-- ==== Sys2Proof/Word.lean ====
section
/-! DEFINITION. The word types of the KF-2 and their plainest readings (00 R1, 03 R68). -/

namespace Sys2Proof

/-- A strand item, a k-register, a doubleword of memory. -/
abbrev Word := BitVec 64

/-- A byte of memory. -/
abbrev Byte := BitVec 8

/-- The word that holds a natural number modulo 2^64. -/
abbrev word (n : Nat) : Word := BitVec.ofNat 64 n

/-- Bits `[lo + n - 1 : lo]` of a natural number (00 R1). -/
def fld (w lo n : Nat) : Nat := w / 2 ^ lo % 2 ^ n

/-- Bit `k` of a natural number. -/
def bit (w k : Nat) : Bool := w / 2 ^ k % 2 == 1

/-- The signed reading of the low `n` bits of a natural number. -/
def sext (n x : Nat) : Int := if x % 2 ^ n < 2 ^ (n - 1) then (x % 2 ^ n : Nat) else (x % 2 ^ n : Nat) - (2 ^ n : Nat)

end Sys2Proof
end

