-- ==== Sys2Proof/Syntax.lean ====
section
/-! DEFINITION. The instruction set of the KF-2: the words of Gyfen (02 R48-R57), the move words of a bank unit
(10 R295) and the part's other indivisible steps (95_what_each_step_holds.md). -/

namespace Sys2Proof

/-- What one measurement brings for one zone (13 R393). -/
structure ZoneReading where
  dry : Bool
  flow : BitVec 16
  t0 : BitVec 16
  t1 : BitVec 16
  t2 : BitVec 16
  t3 : BitVec 16
deriving DecidableEq, Repr

/-- What one measurement brings for the package (13 R393, Table 144): pressures of D0, D1, D2. -/
structure PkgReading where
  inlet : BitVec 16
  flow : BitVec 12
  inP0 : BitVec 16
  outP0 : BitVec 16
  inP1 : BitVec 16
  outP1 : BitVec 16
  inP2 : BitVec 16
  outP2 : BitVec 16
deriving DecidableEq, Repr

/-- The atomics of Table 88 (09 R285). -/
inductive AtomOp where
  | xch | cas | add | and | or | xor | min | max | minn | maxn
deriving DecidableEq, Repr

/-- An access between packages through a Smivar port (14 R432); `mark` is the hallmark mismatch of the grains it writes
whole. -/
inductive PeerOp where
  | read (n : Nat)
  | write (bytes : List (BitVec 8)) (mark : BitVec 32)
  | atomic (op : AtomOp) (b c : BitVec 64)
deriving DecidableEq, Repr

/-- The TDISP states of the one TDI (14 R422). -/
inductive Tdisp where
  | configUnlocked | configLocked | run | error
deriving DecidableEq, Repr

/-- Where an ECC error strikes and whether it is corrected (14 R418). -/
inductive EccKind where
  | corrected (die : Nat)
  | grain (loc : Nat)
  | mismatch (loc : Nat) (diff : BitVec 32)
  | flashPage (page fails : Nat) (bad : Bool)
  | checker (core : Nat)
  | cell (core row col : Nat)
  | tileRow (core : Nat) (acc : Bool) (tile row : Nat)
  | sideMemory (core off : Nat)
deriving DecidableEq, Repr

/-- One constructor per row of spec/opcode_table.json: the words of the four engines and of a bank unit, with the
fields of the table, and the steps without an encoding, with what comes from outside as operands. -/
inductive Instr where
  | ill (x : BitVec 24)  -- ILL (R59)
  | add (a : BitVec 5) (b : BitVec 5) (w : Bool)  -- ADD (R115)
  | sub (a : BitVec 5) (b : BitVec 5) (w : Bool)  -- SUB (R115)
  | mul (a : BitVec 5) (b : BitVec 5) (w : Bool)  -- MUL (R115)
  | mulh (a : BitVec 5) (b : BitVec 5) (w : Bool)  -- MULH (R115)
  | mulhn (a : BitVec 5) (b : BitVec 5) (w : Bool)  -- MULHN (R115)
  | div (a : BitVec 5) (b : BitVec 5) (w : Bool)  -- DIV (R115)
  | divn (a : BitVec 5) (b : BitVec 5) (w : Bool)  -- DIVN (R115)
  | rem (a : BitVec 5) (b : BitVec 5) (w : Bool)  -- REM (R115)
  | remn (a : BitVec 5) (b : BitVec 5) (w : Bool)  -- REMN (R115)
  | and (a : BitVec 5) (b : BitVec 5) (w : Bool)  -- AND (R115)
  | or (a : BitVec 5) (b : BitVec 5) (w : Bool)  -- OR (R115)
  | xor (a : BitVec 5) (b : BitVec 5) (w : Bool)  -- XOR (R115)
  | andn (a : BitVec 5) (b : BitVec 5) (w : Bool)  -- ANDN (R115)
  | shl (a : BitVec 5) (b : BitVec 5) (w : Bool)  -- SHL (R115)
  | shr (a : BitVec 5) (b : BitVec 5) (w : Bool)  -- SHR (R115)
  | sar (a : BitVec 5) (b : BitVec 5) (w : Bool)  -- SAR (R115)
  | rol (a : BitVec 5) (b : BitVec 5) (w : Bool)  -- ROL (R115)
  | ror (a : BitVec 5) (b : BitVec 5) (w : Bool)  -- ROR (R115)
  | min (a : BitVec 5) (b : BitVec 5) (w : Bool)  -- MIN (R115)
  | max (a : BitVec 5) (b : BitVec 5) (w : Bool)  -- MAX (R115)
  | minn (a : BitVec 5) (b : BitVec 5) (w : Bool)  -- MINN (R115)
  | maxn (a : BitVec 5) (b : BitVec 5) (w : Bool)  -- MAXN (R115)
  | ceq (a : BitVec 5) (b : BitVec 5) (w : Bool)  -- CEQ (R116)
  | cne (a : BitVec 5) (b : BitVec 5) (w : Bool)  -- CNE (R116)
  | clt (a : BitVec 5) (b : BitVec 5) (w : Bool)  -- CLT (R116)
  | cltn (a : BitVec 5) (b : BitVec 5) (w : Bool)  -- CLTN (R116)
  | cle (a : BitVec 5) (b : BitVec 5) (w : Bool)  -- CLE (R116)
  | clen (a : BitVec 5) (b : BitVec 5) (w : Bool)  -- CLEN (R116)
  | clz (a : BitVec 5) (w : Bool)  -- CLZ (R117)
  | ctz (a : BitVec 5) (w : Bool)  -- CTZ (R117)
  | popc (a : BitVec 5) (w : Bool)  -- POPC (R117)
  | brev (a : BitVec 5) (w : Bool)  -- BREV (R117)
  | sext8 (a : BitVec 5)  -- SEXT8 (R117)
  | sext16 (a : BitVec 5)  -- SEXT16 (R117)
  | sext32 (a : BitVec 5)  -- SEXT32 (R117)
  | sel (a : BitVec 5) (b : BitVec 5) (c : BitVec 5)  -- SEL (R118)
  | addi (a : BitVec 5) (w : Bool) (h : BitVec 2) (i : BitVec 16)  -- ADDI (R119)
  | andi (a : BitVec 5) (w : Bool) (h : BitVec 2) (i : BitVec 16)  -- ANDI (R119)
  | ori (a : BitVec 5) (w : Bool) (h : BitVec 2) (i : BitVec 16)  -- ORI (R119)
  | xori (a : BitVec 5) (w : Bool) (h : BitVec 2) (i : BitVec 16)  -- XORI (R119)
  | shli (a : BitVec 5) (w : Bool) (n : BitVec 16)  -- SHLI (R120)
  | shri (a : BitVec 5) (w : Bool) (n : BitVec 16)  -- SHRI (R120)
  | sari (a : BitVec 5) (w : Bool) (n : BitVec 16)  -- SARI (R120)
  | roli (a : BitVec 5) (w : Bool) (n : BitVec 16)  -- ROLI (R120)
  | lit (a : BitVec 5) (h : BitVec 2) (i : BitVec 16)  -- LIT (R121)
  | lits (i : BitVec 16)  -- LITS (R121)
  | dup (a : BitVec 5)  -- DUP (R122)
  | ld (a : BitVec 5) (c : BitVec 4) (s : BitVec 2) (g : Bool) (q : Bool) (o : BitVec 11)  -- LD (R123)
  | ldk (a : BitVec 5) (c : BitVec 4) (s : BitVec 2) (g : Bool) (o : BitVec 11)  -- LDK (R124)
  | st (a : BitVec 5) (v : BitVec 5) (c : BitVec 4) (s : BitVec 2) (l : Bool) (o : BitVec 7)  -- ST (R125)
  | axch (a : BitVec 5) (b : BitVec 5) (k : BitVec 4) (o : BitVec 2) (s : BitVec 3)  -- AXCH (R285)
  | acas (a : BitVec 5) (b : BitVec 5) (c : BitVec 5) (k : BitVec 4) (o : BitVec 2) (s : BitVec 3)  -- ACAS (R285)
  | aadd (a : BitVec 5) (b : BitVec 5) (k : BitVec 4) (o : BitVec 2) (s : BitVec 3)  -- AADD (R285)
  | aand (a : BitVec 5) (b : BitVec 5) (k : BitVec 4) (o : BitVec 2) (s : BitVec 3)  -- AAND (R285)
  | aor (a : BitVec 5) (b : BitVec 5) (k : BitVec 4) (o : BitVec 2) (s : BitVec 3)  -- AOR (R285)
  | axor (a : BitVec 5) (b : BitVec 5) (k : BitVec 4) (o : BitVec 2) (s : BitVec 3)  -- AXOR (R285)
  | amin (a : BitVec 5) (b : BitVec 5) (k : BitVec 4) (o : BitVec 2) (s : BitVec 3)  -- AMIN (R285)
  | amax (a : BitVec 5) (b : BitVec 5) (k : BitVec 4) (o : BitVec 2) (s : BitVec 3)  -- AMAX (R285)
  | aminn (a : BitVec 5) (b : BitVec 5) (k : BitVec 4) (o : BitVec 2) (s : BitVec 3)  -- AMINN (R285)
  | amaxn (a : BitVec 5) (b : BitVec 5) (k : BitVec 4) (o : BitVec 2) (s : BitVec 3)  -- AMAXN (R285)
  | fence (p : BitVec 6) (q : BitVec 6) (s : BitVec 3) (m : BitVec 5)  -- FENCE (R283)
  | fencea (p : BitVec 6) (q : BitVec 6) (s : BitVec 3)  -- FENCEA (R283)
  | rinv (a : BitVec 5) (b : BitVec 5) (k : Bool)  -- RINV (R113)
  | tlookFind (a : BitVec 5) (c : BitVec 4)  -- TLOOK_FIND (R215)
  | tlookClaim (a : BitVec 5) (c : BitVec 4)  -- TLOOK_CLAIM (R215)
  | tlookFree (c : BitVec 4)  -- TLOOK_FREE (R215)
  | tsetk (a : BitVec 5) (b : BitVec 5) (c : BitVec 4)  -- TSETK (R216)
  | tdrop (a : BitVec 5) (c : BitVec 4)  -- TDROP (R216)
  | pbr (t : BitVec 2) (o : BitVec 22)  -- PBR (R128)
  | br (t : BitVec 2) (i : BitVec 5) (c : BitVec 3)  -- BR (R129)
  | call (t : BitVec 2)  -- CALL (R131)
  | jtb (t : BitVec 2) (i : BitVec 5) (b : BitVec 10)  -- JTB (R133)
  | clasp (l : BitVec 16)  -- CLASP (R134)
  | give (p : BitVec 2) (n : BitVec 4)  -- GIVE (R226)
  | take (p : BitVec 2) (n : BitVec 4)  -- TAKE (R226)
  | qset (a : BitVec 5) (b : BitVec 5) (h : BitVec 4)  -- QSET (R219)
  | qadv (a : BitVec 5) (s : Bool) (h : BitVec 4)  -- QADV (R223)
  | qwait (a : BitVec 5) (s : Bool) (h : BitVec 4)  -- QWAIT (R223)
  | qinfo (s : Bool) (h : BitVec 4)  -- QINFO (R223)
  | prmw (a : BitVec 5) (f : BitVec 6) (i : BitVec 8)  -- PRMW (R228)
  | fmtq (a : BitVec 5)  -- FMTQ (R185)
  | stmpq (a : BitVec 5)  -- STMPQ (R185)
  | getk (k : BitVec 12)  -- GETK (R104)
  | setk (a : BitVec 5) (k : BitVec 12)  -- SETK (R105)
  | waitTick (a : BitVec 5)  -- WAIT_TICK (R368)
  | waitSerai (a : BitVec 5)  -- WAIT_SERAI (R368)
  | tlaunch (a : BitVec 5)  -- TLAUNCH (R363)
  | trig (a : BitVec 5)  -- TRIG (R375)
  | sreg (a : BitVec 5)  -- SREG (R365)
  | sbind (a : BitVec 5) (b : BitVec 5)  -- SBIND (R365)
  | spost (a : BitVec 5) (b : BitVec 5) (n : BitVec 4)  -- SPOST (R365)
  | rcall (t : BitVec 5) (k : BitVec 5) (f : BitVec 5) (n : BitVec 4) (c : BitVec 4) (l : Bool)  -- RCALL (R316)
  | rpoll (a : BitVec 5) (w : Bool)  -- RPOLL (R322)
  | rret (a : BitVec 5) (n : BitVec 4)  -- RRET (R321)
  | search (a : BitVec 5) (c : BitVec 4)  -- SEARCH (R346)
  | crsv (a : BitVec 5) (b : BitVec 5)  -- CRSV (R398)
  | crel (a : BitVec 5)  -- CREL (R398)
  | cqry (a : BitVec 5)  -- CQRY (R398)
  | lmark (a : BitVec 5)  -- LMARK (R415)
  | trap (i : BitVec 16)  -- TRAP (R380)
  | tret (a : BitVec 5)  -- TRET (R384)
  | pgshare (a : BitVec 5) (b : BitVec 5) (m : BitVec 3)  -- PGSHARE (R265)
  | pgdrop (a : BitVec 5)  -- PGDROP (R266)
  | vAdd (d : BitVec 6) (a : BitVec 6) (b : BitVec 6) (g : BitVec 3) (t : BitVec 3)  -- V_ADD (R156)
  | vSub (d : BitVec 6) (a : BitVec 6) (b : BitVec 6) (g : BitVec 3) (t : BitVec 3)  -- V_SUB (R156)
  | vMul (d : BitVec 6) (a : BitVec 6) (b : BitVec 6) (g : BitVec 3) (t : BitVec 3)  -- V_MUL (R156)
  | vFma (d : BitVec 6) (a : BitVec 6) (b : BitVec 6) (c : BitVec 6)  -- V_FMA (R159)
  | vFms (d : BitVec 6) (a : BitVec 6) (b : BitVec 6) (c : BitVec 6)  -- V_FMS (R159)
  | vMin (d : BitVec 6) (a : BitVec 6) (b : BitVec 6) (g : BitVec 3) (t : BitVec 3)  -- V_MIN (R156)
  | vMax (d : BitVec 6) (a : BitVec 6) (b : BitVec 6) (g : BitVec 3) (t : BitVec 3)  -- V_MAX (R156)
  | vAbs (d : BitVec 6) (a : BitVec 6) (g : BitVec 3) (t : BitVec 3)  -- V_ABS (R160)
  | vNeg (d : BitVec 6) (a : BitVec 6) (g : BitVec 3) (t : BitVec 3)  -- V_NEG (R160)
  | vAnd (d : BitVec 6) (a : BitVec 6) (b : BitVec 6) (g : BitVec 3) (t : BitVec 3)  -- V_AND (R156)
  | vOr (d : BitVec 6) (a : BitVec 6) (b : BitVec 6) (g : BitVec 3) (t : BitVec 3)  -- V_OR (R156)
  | vXor (d : BitVec 6) (a : BitVec 6) (b : BitVec 6) (g : BitVec 3) (t : BitVec 3)  -- V_XOR (R156)
  | vShl (d : BitVec 6) (a : BitVec 6) (b : BitVec 6) (g : BitVec 3) (t : BitVec 3)  -- V_SHL (R158)
  | vShr (d : BitVec 6) (a : BitVec 6) (b : BitVec 6) (g : BitVec 3) (t : BitVec 3)  -- V_SHR (R158)
  | vSar (d : BitVec 6) (a : BitVec 6) (b : BitVec 6) (g : BitVec 3) (t : BitVec 3)  -- V_SAR (R158)
  | vRol (d : BitVec 6) (a : BitVec 6) (b : BitVec 6) (g : BitVec 3) (t : BitVec 3)  -- V_ROL (R158)
  | vCmp (c : BitVec 3) (k : BitVec 3) (a : BitVec 6) (b : BitVec 6) (g : BitVec 3) (t : BitVec 3)  -- V_CMP (R161)
  | vSel (d : BitVec 6) (a : BitVec 6) (b : BitVec 6) (s : BitVec 3) (t : BitVec 3)  -- V_SEL (R162)
  | vCvt (d : BitVec 6) (a : BitVec 6) (e : BitVec 3) (r : BitVec 3) (g : BitVec 3) (t : BitVec 3)  -- V_CVT (R165)
  | vSfn (d : BitVec 6) (a : BitVec 6) (f : BitVec 6) (g : BitVec 3) (t : BitVec 3)  -- V_SFN (R168)
  | vRed (d : BitVec 6) (a : BitVec 6) (o : BitVec 6) (g : BitVec 3) (t : BitVec 3)  -- V_RED (R169)
  | vScan (d : BitVec 6) (a : BitVec 6) (o : BitVec 6) (g : BitVec 3) (t : BitVec 3)  -- V_SCAN (R170)
  | vPerm (d : BitVec 6) (a : BitVec 6) (b : BitVec 6) (g : BitVec 3) (t : BitVec 3)  -- V_PERM (R171)
  | vLrot (d : BitVec 6) (a : BitVec 6) (b : BitVec 6) (g : BitVec 3) (t : BitVec 3)  -- V_LROT (R171)
  | vBcast (d : BitVec 6) (a : BitVec 6) (b : BitVec 6) (g : BitVec 3) (t : BitVec 3)  -- V_BCAST (R171)
  | vPack (d : BitVec 6) (a : BitVec 6) (b : BitVec 6) (f : BitVec 3) (t : BitVec 3)  -- V_PACK (R166)
  | vUnpk (d : BitVec 6) (a : BitVec 6) (b : BitVec 6) (f : BitVec 3) (t : BitVec 3)  -- V_UNPK (R167)
  | vMov (d : BitVec 6) (a : BitVec 6) (g : BitVec 3) (t : BitVec 3)  -- V_MOV (R163)
  | vLit (n : BitVec 5) (t : BitVec 3) (i : BitVec 16)  -- V_LIT (R164)
  | vTopk (d : BitVec 6) (a : BitVec 6) (k : BitVec 6) (g : BitVec 3) (t : BitVec 3)  -- V_TOPK (R172)
  | vBind (n : BitVec 5) (v : BitVec 3) (m : BitVec 5) (c : BitVec 3) (s : Bool)  -- V_BIND (R140)
  | vRrbSet (n : BitVec 4)  -- V_RRB_SET (R149)
  | vRrbAdd (n : BitVec 4)  -- V_RRB_ADD (R149)
  | vGuard (n : BitVec 3)  -- V_GUARD (R148)
  | vPredAnd (d : BitVec 3) (a : BitVec 3) (b : BitVec 3)  -- V_PRED_AND (R147)
  | vPredOr (d : BitVec 3) (a : BitVec 3) (b : BitVec 3)  -- V_PRED_OR (R147)
  | vPredXor (d : BitVec 3) (a : BitVec 3) (b : BitVec 3)  -- V_PRED_XOR (R147)
  | vPredAndn (d : BitVec 3) (a : BitVec 3) (b : BitVec 3)  -- V_PRED_ANDN (R147)
  | vPredNot (d : BitVec 3) (a : BitVec 3)  -- V_PRED_NOT (R147)
  | vPredFirst (d : BitVec 3) (n : BitVec 12)  -- V_PRED_FIRST (R147)
  | vPredLane (d : BitVec 3) (n : BitVec 12)  -- V_PRED_LANE (R147)
  | vNest (b : BitVec 6) (l : BitVec 3) (s : BitVec 3)  -- V_NEST (R155)
  | vPortRead (p : BitVec 2) (h : BitVec 4)  -- V_PORT_READ (R151)
  | vPortWrite (p : BitVec 2) (h : BitVec 4)  -- V_PORT_WRITE (R151)
  | vPortUnbind (p : BitVec 2)  -- V_PORT_UNBIND (R151)
  | vTos (a : BitVec 6) (l : BitVec 8) (t : BitVec 3)  -- V_TOS (R173)
  | vGive (p : BitVec 2) (n : BitVec 4)  -- V_GIVE (R175)
  | vTake (p : BitVec 2) (n : BitVec 4)  -- V_TAKE (R175)
  | vStatStat (n : BitVec 5)  -- V_STAT_STAT (R174)
  | vStatClear (n : BitVec 5) (m : BitVec 6)  -- V_STAT_CLEAR (R174)
  | vStatPred (p : BitVec 3) (q : BitVec 2)  -- V_STAT_PRED (R174)
  | mMma (k : BitVec 2) (a : BitVec 5) (j : BitVec 2) (b : BitVec 5) (t : BitVec 5) (z : Bool) (s : Bool) (p : Bool)  -- M_MMA (R193)
  | mMmas (k : BitVec 2) (a : BitVec 5) (j : BitVec 2) (b : BitVec 5) (t : BitVec 5) (z : Bool) (s : Bool) (p : Bool)  -- M_MMAS (R193)
  | mMmv (k : BitVec 2) (a : BitVec 5) (j : BitVec 2) (b : BitVec 5) (t : BitVec 5) (z : Bool) (s : Bool) (p : Bool)  -- M_MMV (R193)
  | mZero (n : BitVec 5) (s : Bool)  -- M_ZERO (R195)
  | mLoadTile (n : BitVec 5) (m : BitVec 5)  -- M_LOAD_TILE (R196)
  | mLoadDesc (n : BitVec 5) (k : BitVec 5) (s : Bool) (c : BitVec 4)  -- M_LOAD_DESC (R196)
  | mDrainTile (n : BitVec 5) (m : BitVec 5) (z : Bool)  -- M_DRAIN_TILE (R196)
  | mDrainDesc (n : BitVec 5) (k : BitVec 5) (c : BitVec 4) (z : Bool)  -- M_DRAIN_DESC (R196)
  | mSwap (n : BitVec 5) (m : BitVec 5)  -- M_SWAP (R197)
  | mStatStat (n : BitVec 5)  -- M_STAT_STAT (R206)
  | mStatClear (n : BitVec 5) (m : BitVec 6)  -- M_STAT_CLEAR (R206)
  | mNest (b : BitVec 6) (l : BitVec 3)  -- M_NEST (R198)
  | mGive (p : BitVec 2) (n : BitVec 4)  -- M_GIVE (R199)
  | mTake (p : BitVec 2) (n : BitVec 4)  -- M_TAKE (R199)
  | mToll (n : BitVec 20)  -- M_TOLL (R191)
  | tollGrant (cluster : Nat)  -- TOLL_GRANT (R190)
  | xCopy (s : BitVec 4) (d : BitVec 4) (l : BitVec 3) (q : BitVec 4) (c : BitVec 4) (v : Bool)  -- X_COPY (R237)
  | xGath (s : BitVec 4) (d : BitVec 4) (l : BitVec 3) (q : BitVec 4) (c : BitVec 4)  -- X_GATH (R237)
  | xScat (s : BitVec 4) (d : BitVec 4) (l : BitVec 3) (q : BitVec 4) (c : BitVec 4)  -- X_SCAT (R237)
  | xSadd (s : BitVec 4) (d : BitVec 4) (l : BitVec 3) (q : BitVec 4) (c : BitVec 4) (w : Bool)  -- X_SADD (R238)
  | xTrans (s : BitVec 4) (d : BitVec 4) (l : BitVec 3) (q : BitVec 4) (c : BitVec 4)  -- X_TRANS (R239)
  | xPad (s : BitVec 4) (d : BitVec 4) (l : BitVec 3) (q : BitVec 4) (c : BitVec 4)  -- X_PAD (R240)
  | xMeta (s : BitVec 4) (d : BitVec 4) (l : BitVec 3) (q : BitVec 4) (c : BitVec 4)  -- X_META (R241)
  | xFill (s : BitVec 4) (d : BitVec 4) (c : BitVec 4) (v : Bool)  -- X_FILL (R242)
  | xEvict (s : BitVec 4) (d : BitVec 4) (c : BitVec 4) (v : Bool)  -- X_EVICT (R242)
  | xCheck (s : BitVec 4) (l : BitVec 3) (q : BitVec 4) (c : BitVec 4)  -- X_CHECK (R243)
  | xWait (m : BitVec 16)  -- X_WAIT (R244)
  | xQadv (h : BitVec 4) (s : Bool) (n : BitVec 13)  -- X_QADV (R245)
  | xNest (b : BitVec 6) (l : BitVec 3)  -- X_NEST (R246)
  | xGive (p : BitVec 2) (n : BitVec 4)  -- X_GIVE (R247)
  | xTake (p : BitVec 2) (n : BitVec 4)  -- X_TAKE (R247)
  | xFread (s : BitVec 4) (d : BitVec 4) (l : BitVec 3) (q : BitVec 4) (c : BitVec 4) (v : Bool)  -- X_FREAD (R332)
  | xFapp (s : BitVec 4) (d : BitVec 4) (l : BitVec 3) (c : BitVec 4) (v : Bool)  -- X_FAPP (R333)
  | xKv (s : BitVec 4) (d : BitVec 4) (l : BitVec 3) (c : BitVec 4) (v : Bool)  -- X_KV (R350)
  | xBankt (s : BitVec 4) (d : BitVec 4) (l : BitVec 3) (c : BitVec 4) (v : Bool)  -- X_BANKT (R302)
  | xBankp (s : BitVec 4) (d : BitVec 4) (l : BitVec 3) (c : BitVec 4) (v : Bool)  -- X_BANKP (R299)
  | xBankgo (s : BitVec 4) (c : BitVec 4)  -- X_BANKGO (R303)
  | xIred (s : BitVec 4) (d : BitVec 4) (l : BitVec 3) (c : BitVec 4) (v : Bool) (w : Bool)  -- X_IRED (R313)
  | xHin (s : BitVec 4) (d : BitVec 4) (l : BitVec 3) (q : BitVec 4) (c : BitVec 4) (v : Bool)  -- X_HIN (R424)
  | xHout (s : BitVec 4) (d : BitVec 4) (l : BitVec 3) (q : BitVec 4) (c : BitVec 4) (v : Bool)  -- X_HOUT (R424)
  | xHdec (s : BitVec 4) (d : BitVec 4) (l : BitVec 3) (q : BitVec 4) (c : BitVec 4) (v : Bool)  -- X_HDEC (R425)
  | move (g : BitVec 2) (d : BitVec 6) (s : BitVec 6)  -- MOVE (R295)
  | moveImm (g : BitVec 2) (d : BitVec 6) (i : BitVec 16)  -- MOVE_IMM (R295)
  | claspMove (l : BitVec 16)  -- CLASP_MOVE (R295)
  | colWrite (v : BitVec 512)  -- COL_WRITE (R298)
  | kdec (v : BitVec 512)  -- KDEC (R294)
  | pcWrite (v : BitVec 512)  -- PC_WRITE (R294)
  | modeWrite (v : BitVec 512)  -- MODE_WRITE (R294)
  | ret (v : BitVec 512)  -- RET (R296)
  | rep (v : BitVec 512)  -- REP (R294)
  | addT (v : BitVec 512)  -- ADD_T (R297)
  | maxT (v : BitVec 512)  -- MAX_T (R297)
  | cmpT (v : BitVec 512)  -- CMP_T (R297)
  | shfT (v : BitVec 512)  -- SHF_T (R297)
  | macT (v : BitVec 512)  -- MAC_T (R297)
  | accz (v : BitVec 512)  -- ACCZ (R294)
  | pakT (v : BitVec 512)  -- PAK_T (R297)
  | bankCmdIssue (stack : Nat)  -- BANK_CMD_ISSUE (R312)
  | timetableStart (run : Nat)  -- TIMETABLE_START (R303)
  | timetableEntry (chan : Nat)  -- TIMETABLE_ENTRY (R304)
  | forcedRefresh (chan : Nat)  -- FORCED_REFRESH (R301)
  | callStart (call : Nat)  -- CALL_START (R317)
  | callLate (call : Nat)  -- CALL_LATE (R319)
  | callWatchdog (call : Nat)  -- CALL_WATCHDOG (R319)
  | replyArrival (reply : Nat)  -- REPLY_ARRIVAL (R322)
  | replyExpire (reply : Nat)  -- REPLY_EXPIRE (R319)
  | callLost (slot : Nat)  -- CALL_LOST (R319)
  | callAck (ack : Nat)  -- CALL_ACK (R320)
  | replyCacheExpire (target : Nat)  -- REPLY_CACHE_EXPIRE (R320)
  | searchHop (search : Nat) (fails : Nat)  -- SEARCH_HOP (R338)
  | searchDone (search : Nat)  -- SEARCH_DONE (R346)
  | indexMergeStart (region : Nat)  -- INDEX_MERGE_START (R340)
  | indexMergeDone (region : Nat)  -- INDEX_MERGE_DONE (R340)
  | streamStart (stream : Nat)  -- STREAM_START (R351)
  | streamEntry (stream : Nat)  -- STREAM_ENTRY (R352)
  | heldAccessPerform (n : Nat)  -- HELD_ACCESS_PERFORM (R279)
  | orderGateMatch (n : Nat)  -- ORDER_GATE_MATCH (R410)
  | handlerLaunch (serai : Nat)  -- HANDLER_LAUNCH (R367)
  | devicePostDeliver (serai : Nat)  -- DEVICE_POST_DELIVER (R366)
  | tripUngate (zone : Nat)  -- TRIP_UNGATE (R400)
  | dryCloseValve (zone : Nat)  -- DRY_CLOSE_VALVE (R401)
  | dryPurge (zone : Nat)  -- DRY_PURGE (R401)
  | dryRefill (zone : Nat)  -- DRY_REFILL (R401)
  | dryVerify (zone : Nat)  -- DRY_VERIFY (R401)
  | dryRelease (zone : Nat)  -- DRY_RELEASE (R401)
  | refusedWord (w : BitVec 32)  -- REFUSED_WORD (R58)
  | nop  -- NOP (R60)
  | loadReturn  -- LOAD_RETURN (R97)
  | copyUnit  -- COPY_UNIT (R233)
  | rets  -- RETS (R132)
  | stamp  -- STAMP (R109)
  | barCrew  -- BAR_CREW (R378)
  | barSpan  -- BAR_SPAN (R378)
  | barStage  -- BAR_STAGE (R378)
  | texit  -- TEXIT (R42)
  | tyield  -- TYIELD (R386)
  | lhash  -- LHASH (R414)
  | vStatEng  -- V_STAT_ENG (R174)
  | vStatBind  -- V_STAT_BIND (R174)
  | mStart  -- M_START (R203)
  | mStatQueues  -- M_STAT_QUEUES (R206)
  | mStatAssay  -- M_STAT_ASSAY (R206)
  | mStatWindow  -- M_STAT_WINDOW (R206)
  | mStatToll  -- M_STAT_TOLL (R206)
  | mAssay  -- M_ASSAY (R201)
  | tollRefill  -- TOLL_REFILL (R188)
  | bankImageLoad  -- BANK_IMAGE_LOAD (R299)
  | bankCmdWatchdog  -- BANK_CMD_WATCHDOG (R296)
  | bankgoComplete  -- BANKGO_COMPLETE (R303)
  | convoyApply  -- CONVOY_APPLY (R290)
  | sealfault  -- SEALFAULT (R41)
  | watchdog  -- WATCHDOG (R388)
  | taskEnd  -- TASK_END (R42)
  | instanceIssue  -- INSTANCE_ISSUE (R371)
  | preemptDecision  -- PREEMPT_DECISION (R385)
  | coolGrant  -- COOL_GRANT (R397)
  | masterElection  -- MASTER_ELECTION (R389)
  | invalComplete  -- INVAL_COMPLETE (R261)
  | valveUpdate  -- VALVE_UPDATE (R399)
  | limitEnter  -- LIMIT_ENTER (R403)
  | limitExit  -- LIMIT_EXIT (R403)
  | hostTransferDone  -- HOST_TRANSFER_DONE (R427)
  | powerOnReset  -- POWER_ON_RESET (R28)
  | fosynBoot  -- FOSYN_BOOT (R428)
  | powerLoss  -- POWER_LOSS (R430)
  | dieFailure (die : Nat) (control : Bool)  -- DIE_FAILURE (R420)
  | sensorMeasure (zones : List ZoneReading) (pkg : PkgReading)  -- SENSOR_MEASURE (R393)
  | tollCapWrite (cluster : Nat) (off : Nat) (v : BitVec 64)  -- TOLL_CAP_WRITE (R188)
  | stackBucketWrite (stack : Nat) (off : Nat) (v : BitVec 64)  -- STACK_BUCKET_WRITE (R310)
  | contextWrite (ctx : Nat) (v : BitVec 64)  -- CONTEXT_WRITE (R250)
  | invcmd (v : BitVec 64)  -- INVCMD (R261)
  | freeconsWrite (v : BitVec 64)  -- FREECONS_WRITE (R267)
  | regionWrite (region : Nat) (v : BitVec 64)  -- REGION_WRITE (R328)
  | regionFillWrite (region : Nat) (v : BitVec 64)  -- REGION_FILL_WRITE (R328)
  | dieFence (v : BitVec 64)  -- DIE_FENCE (R389)
  | killwb (v : BitVec 64)  -- KILLWB (R390)
  | hpost (v : BitVec 64)  -- HPOST (R390)
  | coolRearm (zone : Nat) (v : BitVec 64)  -- COOL_REARM (R401)
  | coolFloorWrite (zone : Nat) (v : BitVec 64)  -- COOL_FLOOR_WRITE (R397)
  | coolLimitsWrite (v : BitVec 64)  -- COOL_LIMITS_WRITE (R397)
  | recctlWrite (v : BitVec 64)  -- RECCTL_WRITE (R404)
  | keyctx (v : BitVec 64)  -- KEYCTX (R421)
  | hxgo (v : BitVec 64)  -- HXGO (R427)
  | regWrite (off : Nat) (v : BitVec 64)  -- REG_WRITE (R18)
  | hostRead (pa : Nat) (n : Nat)  -- HOST_READ (R426)
  | hostWrite (pa : Nat) (bytes : List (BitVec 8))  -- HOST_WRITE (R431)
  | peerAccess (pa : Nat) (op : PeerOp)  -- PEER_ACCESS (R432)
  | tdispTransition (next : Tdisp)  -- TDISP_TRANSITION (R422)
  | spdmAttest (nonce : BitVec 256)  -- SPDM_ATTEST (R429)
  | eccError (kind : EccKind)  -- ECC_ERROR (R418)
  | clockThrottle (lower : Bool)  -- CLOCK_THROTTLE (R186)
deriving DecidableEq, Repr

end Sys2Proof
end

