-- ==== Sys2Proof/WellFormed.lean ====
section
/-! DEFINITION. Which operand values of an instruction the encodings allow: those that R58 refuses as ILLWORD, those
it refuses as RESBITS, and the rest, which are well formed. -/

namespace Sys2Proof

/-- Who may write a k-register (04 Table 46). -/
inductive KAccess where
  | ro | rw
deriving DecidableEq, Repr

/-- The k-registers of Table 46 (04 R103): every other number is unassigned. -/
def kAccess (k : Nat) : Option KAccess :=
  if k ≤ 5 then some .ro
  else if k = 0x010 ∨ k = 0x011 ∨ k = 0x020 then some .rw
  else if 0x100 ≤ k ∧ k ≤ 0x103 then some .rw
  else if k = 0x200 then some .rw
  else if k = 0x201 ∨ k = 0x202 then some .ro
  else if k = 0x400 ∨ k = 0x401 then some .ro
  else if k = 0x500 then some .rw
  else if k = 0x501 then some .ro
  else if k = 0x600 then some .rw
  else if k = 0x601 ∨ k = 0x700 then some .ro
  else if 0x800 ≤ k ∧ k ≤ 0x804 then some .ro
  else if 0x808 ≤ k ∧ k ≤ 0x80F then some .ro
  else if k = 0x900 ∨ k = 0x901 then some .ro
  else if 0xA00 ≤ k ∧ k ≤ 0xA02 then some .ro
  else none

/-- A vector operand code that names nothing (02 R50). -/
def badRow (x : BitVec 6) : Bool := decide (52 < x.toNat)

/-- A vector type that is refused (02 Table 21). -/
def badType (t : BitVec 3) : Bool := t.toNat == 7

/-- The operands of a three-row VABD word. -/
def badAbd (d a b : BitVec 6) (t : BitVec 3) : Bool := badRow d || badRow a || badRow b || badType t

/-- A packed type. -/
def packed (t : Nat) : Bool := t == 4 || t == 5

/-- The type pairs that V.CVT accepts (05 R165). -/
def cvtPair (t e : Nat) : Bool :=
  if packed t && packed e then t == 4 && e == 4
  else if packed t || packed e then true
  else t != e

/-- An operand of a product word that names nothing (02 R51). -/
def badMx (kind : BitVec 2) (n : BitVec 5) : Bool :=
  match kind.toNat with
  | 0 => decide (24 < n.toNat)
  | 1 => n.toNat == 31
  | 2 => decide (3 < n.toNat)
  | _ => true

/-- The seal layout (02 R49): the peer is another engine and the count is not zero. -/
def badSeal (own : Nat) (p : BitVec 2) (n : BitVec 4) : Bool := p.toNat == own || n.toNat == 0

/-- A block and word index that PRMW does not accept (02 Table 25, 07 R228). -/
def badPrm (f : BitVec 6) (i : BitVec 8) : Bool :=
  if f.toNat < 24 then decide (6 < i.toNat)
  else if f.toNat ≤ 40 then decide (3 < i.toNat)
  else true

/-- The operand values refused as ILLWORD (R58 item 1). -/
def Instr.illOperand : Instr → Bool
  | .addi _ w h _ | .andi _ w h _ | .ori _ w h _ | .xori _ w h _ => w && decide (2 ≤ h.toNat)
  | .axch _ _ _ _ s | .aadd _ _ _ _ s | .aand _ _ _ _ s | .aor _ _ _ _ s | .axor _ _ _ _ s
  | .amin _ _ _ _ s | .amax _ _ _ _ s | .aminn _ _ _ _ s | .amaxn _ _ _ _ s | .acas _ _ _ _ _ s =>
    decide (4 < s.toNat)
  | .fence p q s _ | .fencea p q s => p.toNat == 0 || q.toNat == 0 || decide (4 < s.toNat)
  | .br _ _ c => decide (4 < c.toNat)
  | .jtb _ _ b => b.toNat == 0
  | .give p n | .take p n => badSeal 0 p n
  | .vGive p n | .vTake p n => badSeal 1 p n
  | .mGive p n | .mTake p n => badSeal 2 p n
  | .xGive p n | .xTake p n => badSeal 3 p n
  | .prmw _ f i => badPrm f i
  | .getk k => (kAccess k.toNat).isNone
  | .setk _ k => kAccess k.toNat != some .rw
  | .rcall _ _ f n _ _ => decide (8 < n.toNat) || decide (32 < f.toNat + n.toNat)
  | .rret a n => decide (8 < n.toNat) || decide (32 < a.toNat + n.toNat)
  | .spost _ _ n => n.toNat == 0 || n.toNat == 15
  | .pgshare _ _ m => m.toNat == 0
  | .vAdd d a b _ t | .vSub d a b _ t | .vMul d a b _ t | .vMin d a b _ t | .vMax d a b _ t
  | .vAnd d a b _ t | .vOr d a b _ t | .vXor d a b _ t | .vSel d a b _ t
  | .vPerm d a b _ t | .vLrot d a b _ t | .vBcast d a b _ t => badAbd d a b t
  | .vShl d a b _ t | .vShr d a b _ t | .vSar d a b _ t | .vRol d a b _ t =>
    badAbd d a b t || t.toNat == 0 || t.toNat == 2
  | .vFma d a b c | .vFms d a b c => badRow d || badRow a || badRow b || badRow c
  | .vAbs d a _ t | .vNeg d a _ t | .vMov d a _ t => badRow d || badRow a || badType t
  | .vCmp c k a b _ t =>
    decide (4 < c.toNat) || k.toNat == 0 || badRow a || badRow b || badType t || packed t.toNat
  | .vCvt d a e r _ t =>
    badRow d || badRow a || badType e || decide (5 < r.toNat) || badType t || !cvtPair t.toNat e.toNat
  | .vSfn d a f _ t => badRow d || badRow a || decide (8 < f.toNat) || !(t.toNat == 0 || t.toNat == 2)
  | .vRed d a o _ t | .vScan d a o _ t => badRow d || badRow a || decide (5 < o.toNat) || badType t
  | .vPack d a b f t | .vUnpk d a b f t =>
    badRow d || badRow a || badRow b || decide (5 < f.toNat) || !(t.toNat == 0 || t.toNat == 2)
  | .vLit _ t _ => badType t
  | .vTopk d a _ _ t => badRow d || badRow a || !(t.toNat == 2 || t.toNat == 3)
  | .vBind n v m _ _ => decide (24 < n.toNat) || v.toNat == 7 || decide (24 < m.toNat)
  | .vPredAnd d _ _ | .vPredOr d _ _ | .vPredXor d _ _ | .vPredAndn d _ _ | .vPredNot d _ => d.toNat == 0
  | .vPredFirst d n => d.toNat == 0 || decide (256 < n.toNat)
  | .vPredLane d n => d.toNat == 0 || decide (255 < n.toNat)
  | .vTos a _ t => badRow a || badType t
  | .vStatStat n | .vStatClear n _ => decide (24 < n.toNat)
  | .mMma k a j b t _ _ _ | .mMmas k a j b t _ _ _ | .mMmv k a j b t _ _ _ =>
    badMx k a || badMx j b || decide (24 < t.toNat)
  | .mZero n _ | .mStatStat n | .mStatClear n _ => decide (24 < n.toNat)
  | .mLoadTile n m | .mDrainTile n m _ | .mSwap n m => decide (24 < n.toNat) || decide (24 < m.toNat)
  | .mLoadDesc n k _ _ => decide (24 < n.toNat) || k.toNat == 31
  | .mDrainDesc n k _ _ => decide (24 < n.toNat) || k.toNat == 31
  | .mToll n => n.toNat == 0
  | .xWait m => m.toNat == 0
  | .xQadv _ _ n => n.toNat == 0 || decide (4096 < n.toNat)
  | .move g _ _ | .moveImm g _ _ => g.toNat == 3
  | _ => false

/-- The operand values refused as RESBITS although the fixed zero fields hold (R58 item 2). -/
def Instr.resOperand : Instr → Bool
  | .lit a h _ => h.toNat == 0 && a.toNat != 0
  | .ld _ _ s g _ _ | .ldk _ _ s g _ => s.toNat == 3 && g
  | .br _ i c => c.toNat == 0 && i.toNat != 0
  | .axch _ _ _ o s | .aadd _ _ _ o s | .aand _ _ _ o s | .aor _ _ _ o s | .axor _ _ _ o s
  | .amin _ _ _ o s | .amax _ _ _ o s | .aminn _ _ _ o s | .amaxn _ _ _ o s | .acas _ _ _ _ o s =>
    o.toNat == 0 && s.toNat != 0
  | .rcall _ _ f n _ _ => n.toNat == 0 && f.toNat != 0
  | .vPack _ _ b f _ | .vUnpk _ _ b f _ => f.toNat == 5 && b.toNat != 0
  | .vLit _ t i => t.toNat == 5 && decide (255 < i.toNat)
  | _ => false

/-- A well-formed instruction: no check 1 or 2 of R58 refuses its operands. -/
def Instr.wellFormed (i : Instr) : Bool := !i.illOperand && !i.resOperand

end Sys2Proof
end

