-- ==== Sys2Proof/Decode.lean ====
section
/-! DEFINITION. The decoder, total on every word, and after it the encoder. A word is refused as ILLWORD or as
RESBITS, in the order of R58 (02 R48-R58, Tables 19-26; 10 R295 for bank-unit words). -/

namespace Sys2Proof

/-- What the decoder answers: an instruction, or the cause that R58 raises at the word. -/
inductive Decoded where
  | instr (i : Instr)
  | illword
  | resbits
deriving DecidableEq, Repr

/-- Bits `[lo + n - 1 : lo]` of a word as a field. -/
def bits (w lo n : Nat) : BitVec n := BitVec.ofNat n (w / 2 ^ lo)

/-- The scalar opcodes of Table 25 (R54): the instruction and the sum of the fields that must be zero. -/
def candScalar (w : Nat) : Option (Instr × Nat) :=
  match fld w 24 8 with
  | 0 => some (.ill (bits w 0 24), 0)
  | 1 =>
    match fld w 8 6 with
    | 0 => some (.add (bits w 19 5) (bits w 14 5) (bit w 7), fld w 0 7)
    | 1 => some (.sub (bits w 19 5) (bits w 14 5) (bit w 7), fld w 0 7)
    | 2 => some (.mul (bits w 19 5) (bits w 14 5) (bit w 7), fld w 0 7)
    | 3 => some (.mulh (bits w 19 5) (bits w 14 5) (bit w 7), fld w 0 7)
    | 4 => some (.mulhn (bits w 19 5) (bits w 14 5) (bit w 7), fld w 0 7)
    | 5 => some (.div (bits w 19 5) (bits w 14 5) (bit w 7), fld w 0 7)
    | 6 => some (.divn (bits w 19 5) (bits w 14 5) (bit w 7), fld w 0 7)
    | 7 => some (.rem (bits w 19 5) (bits w 14 5) (bit w 7), fld w 0 7)
    | 8 => some (.remn (bits w 19 5) (bits w 14 5) (bit w 7), fld w 0 7)
    | 9 => some (.and (bits w 19 5) (bits w 14 5) (bit w 7), fld w 0 7)
    | 10 => some (.or (bits w 19 5) (bits w 14 5) (bit w 7), fld w 0 7)
    | 11 => some (.xor (bits w 19 5) (bits w 14 5) (bit w 7), fld w 0 7)
    | 12 => some (.andn (bits w 19 5) (bits w 14 5) (bit w 7), fld w 0 7)
    | 13 => some (.shl (bits w 19 5) (bits w 14 5) (bit w 7), fld w 0 7)
    | 14 => some (.shr (bits w 19 5) (bits w 14 5) (bit w 7), fld w 0 7)
    | 15 => some (.sar (bits w 19 5) (bits w 14 5) (bit w 7), fld w 0 7)
    | 16 => some (.rol (bits w 19 5) (bits w 14 5) (bit w 7), fld w 0 7)
    | 17 => some (.ror (bits w 19 5) (bits w 14 5) (bit w 7), fld w 0 7)
    | 18 => some (.min (bits w 19 5) (bits w 14 5) (bit w 7), fld w 0 7)
    | 19 => some (.max (bits w 19 5) (bits w 14 5) (bit w 7), fld w 0 7)
    | 20 => some (.minn (bits w 19 5) (bits w 14 5) (bit w 7), fld w 0 7)
    | 21 => some (.maxn (bits w 19 5) (bits w 14 5) (bit w 7), fld w 0 7)
    | _ => none
  | 2 =>
    match fld w 8 6 with
    | 0 => some (.ceq (bits w 19 5) (bits w 14 5) (bit w 7), fld w 0 7)
    | 1 => some (.cne (bits w 19 5) (bits w 14 5) (bit w 7), fld w 0 7)
    | 2 => some (.clt (bits w 19 5) (bits w 14 5) (bit w 7), fld w 0 7)
    | 3 => some (.cltn (bits w 19 5) (bits w 14 5) (bit w 7), fld w 0 7)
    | 4 => some (.cle (bits w 19 5) (bits w 14 5) (bit w 7), fld w 0 7)
    | 5 => some (.clen (bits w 19 5) (bits w 14 5) (bit w 7), fld w 0 7)
    | _ => none
  | 3 =>
    match fld w 8 6 with
    | 0 => some (.clz (bits w 19 5) (bit w 7), fld w 0 7 + fld w 14 5)
    | 1 => some (.ctz (bits w 19 5) (bit w 7), fld w 0 7 + fld w 14 5)
    | 2 => some (.popc (bits w 19 5) (bit w 7), fld w 0 7 + fld w 14 5)
    | 3 => some (.brev (bits w 19 5) (bit w 7), fld w 0 7 + fld w 14 5)
    | 4 => some (.sext8 (bits w 19 5), fld w 0 8 + fld w 14 5)
    | 5 => some (.sext16 (bits w 19 5), fld w 0 8 + fld w 14 5)
    | 6 => some (.sext32 (bits w 19 5), fld w 0 8 + fld w 14 5)
    | _ => none
  | 4 => some (.sel (bits w 19 5) (bits w 14 5) (bits w 9 5), fld w 0 9)
  | 5 => some (.addi (bits w 19 5) (bit w 18) (bits w 16 2) (bits w 0 16), 0)
  | 6 => some (.andi (bits w 19 5) (bit w 18) (bits w 16 2) (bits w 0 16), 0)
  | 7 => some (.ori (bits w 19 5) (bit w 18) (bits w 16 2) (bits w 0 16), 0)
  | 8 => some (.xori (bits w 19 5) (bit w 18) (bits w 16 2) (bits w 0 16), 0)
  | 9 =>
    match fld w 16 2 with
    | 0 => some (.shli (bits w 19 5) (bit w 18) (bits w 0 16), 0)
    | 1 => some (.shri (bits w 19 5) (bit w 18) (bits w 0 16), 0)
    | 2 => some (.sari (bits w 19 5) (bit w 18) (bits w 0 16), 0)
    | 3 => some (.roli (bits w 19 5) (bit w 18) (bits w 0 16), 0)
    | _ => none
  | 10 =>
    match fld w 18 1 with
    | 0 => some (.lit (bits w 19 5) (bits w 16 2) (bits w 0 16), 0)
    | _ => if fld w 16 2 = 0 then some (.lits (bits w 0 16), fld w 19 5) else none
  | 11 => some (.dup (bits w 19 5), fld w 0 19)
  | 12 => some (.ld (bits w 19 5) (bits w 15 4) (bits w 13 2) (bit w 12) (bit w 11) (bits w 0 11), 0)
  | 13 => some (.ldk (bits w 19 5) (bits w 15 4) (bits w 13 2) (bit w 12) (bits w 0 11), fld w 11 1)
  | 14 => some (.st (bits w 19 5) (bits w 14 5) (bits w 10 4) (bits w 8 2) (bit w 7) (bits w 0 7), 0)
  | 15 => some (.nop, fld w 0 24)
  | 16 => some (.axch (bits w 19 5) (bits w 14 5) (bits w 5 4) (bits w 3 2) (bits w 0 3), fld w 9 5)
  | 17 => some (.acas (bits w 19 5) (bits w 14 5) (bits w 9 5) (bits w 5 4) (bits w 3 2) (bits w 0 3), 0)
  | 18 => some (.aadd (bits w 19 5) (bits w 14 5) (bits w 5 4) (bits w 3 2) (bits w 0 3), fld w 9 5)
  | 19 => some (.aand (bits w 19 5) (bits w 14 5) (bits w 5 4) (bits w 3 2) (bits w 0 3), fld w 9 5)
  | 20 => some (.aor (bits w 19 5) (bits w 14 5) (bits w 5 4) (bits w 3 2) (bits w 0 3), fld w 9 5)
  | 21 => some (.axor (bits w 19 5) (bits w 14 5) (bits w 5 4) (bits w 3 2) (bits w 0 3), fld w 9 5)
  | 22 => some (.amin (bits w 19 5) (bits w 14 5) (bits w 5 4) (bits w 3 2) (bits w 0 3), fld w 9 5)
  | 23 => some (.amax (bits w 19 5) (bits w 14 5) (bits w 5 4) (bits w 3 2) (bits w 0 3), fld w 9 5)
  | 24 => some (.aminn (bits w 19 5) (bits w 14 5) (bits w 5 4) (bits w 3 2) (bits w 0 3), fld w 9 5)
  | 25 => some (.amaxn (bits w 19 5) (bits w 14 5) (bits w 5 4) (bits w 3 2) (bits w 0 3), fld w 9 5)
  | 26 => some (.fence (bits w 18 6) (bits w 12 6) (bits w 9 3) (bits w 4 5), fld w 0 4)
  | 27 => some (.fencea (bits w 18 6) (bits w 12 6) (bits w 9 3), fld w 0 9)
  | 28 => some (.rinv (bits w 19 5) (bits w 14 5) (bit w 0), fld w 1 13)
  | 29 =>
    match fld w 8 6 with
    | 0 =>
      match fld w 0 2 with
      | 0 => some (.tlookFind (bits w 19 5) (bits w 4 4), fld w 2 2 + fld w 14 5)
      | 1 => some (.tlookClaim (bits w 19 5) (bits w 4 4), fld w 2 2 + fld w 14 5)
      | 2 => some (.tlookFree (bits w 4 4), fld w 2 2 + fld w 14 10)
      | _ => none
    | 1 => some (.tsetk (bits w 19 5) (bits w 14 5) (bits w 4 4), fld w 0 4)
    | 2 => some (.tdrop (bits w 19 5) (bits w 4 4), fld w 0 4 + fld w 14 5)
    | _ => none
  | 30 => some (.pbr (bits w 22 2) (bits w 0 22), 0)
  | 31 => some (.br (bits w 22 2) (bits w 17 5) (bits w 14 3), fld w 0 14)
  | 32 => some (.call (bits w 22 2), fld w 0 22)
  | 33 => some (.rets, fld w 0 24)
  | 34 => some (.jtb (bits w 22 2) (bits w 17 5) (bits w 7 10), fld w 0 7)
  | 35 => some (.clasp (bits w 0 16), fld w 16 8)
  | 36 =>
    match fld w 23 1 with
    | 0 => some (.give (bits w 21 2) (bits w 17 4), fld w 0 17)
    | 1 => some (.take (bits w 21 2) (bits w 17 4), fld w 0 17)
    | _ => none
  | 37 =>
    match fld w 8 6 with
    | 0 => some (.qset (bits w 19 5) (bits w 14 5) (bits w 0 4), fld w 4 4)
    | 1 => some (.qadv (bits w 19 5) (bit w 4) (bits w 0 4), fld w 5 3 + fld w 14 5)
    | 2 => some (.qwait (bits w 19 5) (bit w 4) (bits w 0 4), fld w 5 3 + fld w 14 5)
    | 3 => some (.qinfo (bit w 4) (bits w 0 4), fld w 5 3 + fld w 14 10)
    | _ => none
  | 38 => some (.prmw (bits w 19 5) (bits w 8 6) (bits w 0 8), fld w 14 5)
  | 39 => some (.fmtq (bits w 19 5), fld w 0 19)
  | 40 => some (.stmpq (bits w 19 5), fld w 0 19)
  | 41 => some (.getk (bits w 0 12), fld w 12 12)
  | 42 => some (.setk (bits w 19 5) (bits w 0 12), fld w 12 7)
  | 43 => some (.stamp, fld w 0 24)
  | 44 =>
    match fld w 22 2 with
    | 0 => some (.barCrew, fld w 0 22)
    | 1 => some (.barSpan, fld w 0 22)
    | 2 => some (.barStage, fld w 0 22)
    | _ => none
  | 45 =>
    match fld w 8 6 with
    | 0 => some (.waitTick (bits w 19 5), fld w 0 8 + fld w 14 5)
    | 1 => some (.waitSerai (bits w 19 5), fld w 0 8 + fld w 14 5)
    | _ => none
  | 46 =>
    match fld w 8 6 with
    | 0 => some (.tlaunch (bits w 19 5), fld w 0 8 + fld w 14 5)
    | 1 => some (.trig (bits w 19 5), fld w 0 8 + fld w 14 5)
    | 2 => some (.texit, fld w 0 8 + fld w 14 10)
    | 3 => some (.tyield, fld w 0 8 + fld w 14 10)
    | _ => none
  | 47 =>
    match fld w 8 6 with
    | 0 => some (.sreg (bits w 19 5), fld w 0 8 + fld w 14 5)
    | 1 => some (.sbind (bits w 19 5) (bits w 14 5), fld w 0 8)
    | 2 => some (.spost (bits w 19 5) (bits w 14 5) (bits w 0 4), fld w 4 4)
    | _ => none
  | 48 => some (.rcall (bits w 19 5) (bits w 14 5) (bits w 9 5) (bits w 5 4) (bits w 1 4) (bit w 0), 0)
  | 49 => some (.rpoll (bits w 19 5) (bit w 0), fld w 1 18)
  | 50 => some (.rret (bits w 19 5) (bits w 0 4), fld w 4 15)
  | 51 => some (.search (bits w 19 5) (bits w 0 4), fld w 4 15)
  | 52 =>
    match fld w 8 6 with
    | 0 => some (.crsv (bits w 19 5) (bits w 14 5), fld w 0 8)
    | 1 => some (.crel (bits w 19 5), fld w 0 8 + fld w 14 5)
    | 2 => some (.cqry (bits w 19 5), fld w 0 8 + fld w 14 5)
    | _ => none
  | 53 =>
    match fld w 8 6 with
    | 0 => some (.lmark (bits w 19 5), fld w 0 8 + fld w 14 5)
    | 1 => some (.lhash, fld w 0 8 + fld w 14 10)
    | _ => none
  | 54 => some (.trap (bits w 0 16), fld w 16 8)
  | 55 => some (.tret (bits w 19 5), fld w 0 19)
  | 56 =>
    match fld w 8 6 with
    | 0 => some (.pgshare (bits w 19 5) (bits w 14 5) (bits w 0 3), fld w 3 5)
    | 1 => some (.pgdrop (bits w 19 5), fld w 0 8 + fld w 14 5)
    | _ => none
  | _ => none
/-- The vector opcodes of Table 26 (R55, R147, R149, R151, R174). -/
def candVector (w : Nat) : Option (Instr × Nat) :=
  match fld w 24 8 with
  | 65 => some (.vAdd (bits w 18 6) (bits w 12 6) (bits w 6 6) (bits w 3 3) (bits w 0 3), 0)
  | 66 => some (.vSub (bits w 18 6) (bits w 12 6) (bits w 6 6) (bits w 3 3) (bits w 0 3), 0)
  | 67 => some (.vMul (bits w 18 6) (bits w 12 6) (bits w 6 6) (bits w 3 3) (bits w 0 3), 0)
  | 68 => some (.vFma (bits w 18 6) (bits w 12 6) (bits w 6 6) (bits w 0 6), 0)
  | 69 => some (.vFms (bits w 18 6) (bits w 12 6) (bits w 6 6) (bits w 0 6), 0)
  | 70 => some (.vMin (bits w 18 6) (bits w 12 6) (bits w 6 6) (bits w 3 3) (bits w 0 3), 0)
  | 71 => some (.vMax (bits w 18 6) (bits w 12 6) (bits w 6 6) (bits w 3 3) (bits w 0 3), 0)
  | 72 =>
    match fld w 6 6 with
    | 0 => some (.vAbs (bits w 18 6) (bits w 12 6) (bits w 3 3) (bits w 0 3), 0)
    | 1 => some (.vNeg (bits w 18 6) (bits w 12 6) (bits w 3 3) (bits w 0 3), 0)
    | _ => none
  | 73 => some (.vAnd (bits w 18 6) (bits w 12 6) (bits w 6 6) (bits w 3 3) (bits w 0 3), 0)
  | 74 => some (.vOr (bits w 18 6) (bits w 12 6) (bits w 6 6) (bits w 3 3) (bits w 0 3), 0)
  | 75 => some (.vXor (bits w 18 6) (bits w 12 6) (bits w 6 6) (bits w 3 3) (bits w 0 3), 0)
  | 76 => some (.vShl (bits w 18 6) (bits w 12 6) (bits w 6 6) (bits w 3 3) (bits w 0 3), 0)
  | 77 => some (.vShr (bits w 18 6) (bits w 12 6) (bits w 6 6) (bits w 3 3) (bits w 0 3), 0)
  | 78 => some (.vSar (bits w 18 6) (bits w 12 6) (bits w 6 6) (bits w 3 3) (bits w 0 3), 0)
  | 79 => some (.vRol (bits w 18 6) (bits w 12 6) (bits w 6 6) (bits w 3 3) (bits w 0 3), 0)
  | 80 => some (.vCmp (bits w 21 3) (bits w 18 3) (bits w 12 6) (bits w 6 6) (bits w 3 3) (bits w 0 3), 0)
  | 81 => some (.vSel (bits w 18 6) (bits w 12 6) (bits w 6 6) (bits w 3 3) (bits w 0 3), 0)
  | 82 => some (.vCvt (bits w 18 6) (bits w 12 6) (bits w 9 3) (bits w 6 3) (bits w 3 3) (bits w 0 3), 0)
  | 83 => some (.vSfn (bits w 18 6) (bits w 12 6) (bits w 6 6) (bits w 3 3) (bits w 0 3), 0)
  | 84 => some (.vRed (bits w 18 6) (bits w 12 6) (bits w 6 6) (bits w 3 3) (bits w 0 3), 0)
  | 85 => some (.vScan (bits w 18 6) (bits w 12 6) (bits w 6 6) (bits w 3 3) (bits w 0 3), 0)
  | 86 => some (.vPerm (bits w 18 6) (bits w 12 6) (bits w 6 6) (bits w 3 3) (bits w 0 3), 0)
  | 87 => some (.vLrot (bits w 18 6) (bits w 12 6) (bits w 6 6) (bits w 3 3) (bits w 0 3), 0)
  | 88 => some (.vBcast (bits w 18 6) (bits w 12 6) (bits w 6 6) (bits w 3 3) (bits w 0 3), 0)
  | 89 => some (.vPack (bits w 18 6) (bits w 12 6) (bits w 6 6) (bits w 3 3) (bits w 0 3), 0)
  | 90 => some (.vUnpk (bits w 18 6) (bits w 12 6) (bits w 6 6) (bits w 3 3) (bits w 0 3), 0)
  | 91 => some (.vMov (bits w 18 6) (bits w 12 6) (bits w 3 3) (bits w 0 3), fld w 6 6)
  | 92 => some (.vLit (bits w 19 5) (bits w 16 3) (bits w 0 16), 0)
  | 93 => some (.vTopk (bits w 18 6) (bits w 12 6) (bits w 6 6) (bits w 3 3) (bits w 0 3), 0)
  | 96 => some (.vBind (bits w 19 5) (bits w 16 3) (bits w 11 5) (bits w 8 3) (bit w 7), fld w 0 7)
  | 97 =>
    match fld w 19 1 with
    | 0 => some (.vRrbSet (bits w 20 4), fld w 0 19)
    | 1 => some (.vRrbAdd (bits w 20 4), fld w 0 19)
    | _ => none
  | 98 => some (.vGuard (bits w 21 3), fld w 0 21)
  | 99 =>
    match fld w 12 3 with
    | 0 => some (.vPredAnd (bits w 21 3) (bits w 18 3) (bits w 15 3), fld w 0 12)
    | 1 => some (.vPredOr (bits w 21 3) (bits w 18 3) (bits w 15 3), fld w 0 12)
    | 2 => some (.vPredXor (bits w 21 3) (bits w 18 3) (bits w 15 3), fld w 0 12)
    | 3 => some (.vPredAndn (bits w 21 3) (bits w 18 3) (bits w 15 3), fld w 0 12)
    | 4 => some (.vPredNot (bits w 21 3) (bits w 18 3), fld w 0 12 + fld w 15 3)
    | 5 => some (.vPredFirst (bits w 21 3) (bits w 0 12), fld w 15 6)
    | 6 => some (.vPredLane (bits w 21 3) (bits w 0 12), fld w 15 6)
    | _ => none
  | 100 => some (.vNest (bits w 18 6) (bits w 15 3) (bits w 12 3), fld w 0 12)
  | 101 =>
    match fld w 16 2 with
    | 0 => some (.vPortRead (bits w 22 2) (bits w 18 4), fld w 0 16)
    | 2 => some (.vPortWrite (bits w 22 2) (bits w 18 4), fld w 0 16)
    | 1 => some (.vPortUnbind (bits w 22 2), fld w 0 16 + fld w 17 5)
    | 3 => some (.vPortUnbind (bits w 22 2), fld w 0 16 + fld w 17 5)
    | _ => none
  | 102 => some (.vTos (bits w 18 6) (bits w 10 8) (bits w 0 3), fld w 3 7)
  | 103 =>
    match fld w 23 1 with
    | 0 => some (.vGive (bits w 21 2) (bits w 17 4), fld w 0 17)
    | 1 => some (.vTake (bits w 21 2) (bits w 17 4), fld w 0 17)
    | _ => none
  | 104 =>
    match fld w 16 3 with
    | 0 => some (.vStatStat (bits w 19 5), fld w 0 16)
    | 1 => some (.vStatClear (bits w 19 5) (bits w 0 6), fld w 6 10)
    | 2 => some (.vStatEng, fld w 0 16 + fld w 19 5)
    | 3 => some (.vStatPred (bits w 13 3) (bits w 11 2), fld w 0 11 + fld w 19 5)
    | 4 => some (.vStatBind, fld w 0 16 + fld w 19 5)
    | _ => none
  | _ => none
/-- The matrix opcodes (R56, R195-R206). An M.STAT function that uses no tile counts its tile field among the unused fields, so
25 to 31 there is RESBITS and no ILLWORD, which the spec leaves open (log 48). -/
def candMatrix (w : Nat) : Option (Instr × Nat) :=
  match fld w 24 8 with
  | 129 => some (.mMma (bits w 22 2) (bits w 17 5) (bits w 15 2) (bits w 10 5) (bits w 5 5) (bit w 4) (bit w 3) (bit w 2), fld w 0 2)
  | 130 => some (.mMmas (bits w 22 2) (bits w 17 5) (bits w 15 2) (bits w 10 5) (bits w 5 5) (bit w 4) (bit w 3) (bit w 2), fld w 0 2)
  | 131 => some (.mMmv (bits w 22 2) (bits w 17 5) (bits w 15 2) (bits w 10 5) (bits w 5 5) (bit w 4) (bit w 3) (bit w 2), fld w 0 2)
  | 132 => some (.mZero (bits w 19 5) (bit w 18), fld w 0 18)
  | 133 =>
    match fld w 17 2 with
    | 0 => some (.mLoadTile (bits w 19 5) (bits w 12 5), fld w 0 12)
    | 1 => some (.mLoadDesc (bits w 19 5) (bits w 12 5) (bit w 11) (bits w 7 4), fld w 0 7)
    | _ => none
  | 134 =>
    match fld w 17 2 with
    | 0 => some (.mDrainTile (bits w 19 5) (bits w 12 5) (bit w 6), fld w 0 6 + fld w 7 5)
    | 1 => some (.mDrainDesc (bits w 19 5) (bits w 12 5) (bits w 7 4) (bit w 6), fld w 0 6 + fld w 11 1)
    | _ => none
  | 135 => some (.mSwap (bits w 19 5) (bits w 14 5), fld w 0 14)
  | 136 => some (.mStart, fld w 0 24)
  | 137 =>
    match fld w 16 3 with
    | 0 => some (.mStatStat (bits w 19 5), fld w 0 16)
    | 1 => some (.mStatClear (bits w 19 5) (bits w 0 6), fld w 6 10)
    | 2 => some (.mStatQueues, fld w 0 16 + fld w 19 5)
    | 3 => some (.mStatAssay, fld w 0 16 + fld w 19 5)
    | 4 => some (.mStatWindow, fld w 0 16 + fld w 19 5)
    | 5 => some (.mStatToll, fld w 0 16 + fld w 19 5)
    | _ => none
  | 138 => some (.mAssay, fld w 0 24)
  | 139 => some (.mNest (bits w 18 6) (bits w 15 3), fld w 0 15)
  | 140 =>
    match fld w 23 1 with
    | 0 => some (.mGive (bits w 21 2) (bits w 17 4), fld w 0 17)
    | 1 => some (.mTake (bits w 21 2) (bits w 17 4), fld w 0 17)
    | _ => none
  | 141 => some (.mToll (bits w 4 20), fld w 0 4)
  | _ => none
/-- The copy opcodes (R57, R244-R247). -/
def candCopy (w : Nat) : Option (Instr × Nat) :=
  match fld w 24 8 with
  | 193 => some (.xCopy (bits w 20 4) (bits w 16 4) (bits w 13 3) (bits w 9 4) (bits w 5 4) (bit w 4), fld w 0 4)
  | 194 => some (.xGath (bits w 20 4) (bits w 16 4) (bits w 13 3) (bits w 9 4) (bits w 5 4), fld w 0 5)
  | 195 => some (.xScat (bits w 20 4) (bits w 16 4) (bits w 13 3) (bits w 9 4) (bits w 5 4), fld w 0 5)
  | 196 => some (.xSadd (bits w 20 4) (bits w 16 4) (bits w 13 3) (bits w 9 4) (bits w 5 4) (bit w 3), fld w 0 3 + fld w 4 1)
  | 197 => some (.xTrans (bits w 20 4) (bits w 16 4) (bits w 13 3) (bits w 9 4) (bits w 5 4), fld w 0 5)
  | 198 => some (.xPad (bits w 20 4) (bits w 16 4) (bits w 13 3) (bits w 9 4) (bits w 5 4), fld w 0 5)
  | 199 => some (.xMeta (bits w 20 4) (bits w 16 4) (bits w 13 3) (bits w 9 4) (bits w 5 4), fld w 0 5)
  | 200 => some (.xFill (bits w 20 4) (bits w 16 4) (bits w 5 4) (bit w 4), fld w 0 4 + fld w 9 7)
  | 201 => some (.xEvict (bits w 20 4) (bits w 16 4) (bits w 5 4) (bit w 4), fld w 0 4 + fld w 9 7)
  | 202 => some (.xCheck (bits w 20 4) (bits w 13 3) (bits w 9 4) (bits w 5 4), fld w 0 5 + fld w 16 4)
  | 203 => some (.xWait (bits w 8 16), fld w 0 8)
  | 204 => some (.xQadv (bits w 20 4) (bit w 19) (bits w 6 13), fld w 0 6)
  | 205 => some (.xNest (bits w 18 6) (bits w 15 3), fld w 0 15)
  | 206 =>
    match fld w 23 1 with
    | 0 => some (.xGive (bits w 21 2) (bits w 17 4), fld w 0 17)
    | 1 => some (.xTake (bits w 21 2) (bits w 17 4), fld w 0 17)
    | _ => none
  | 208 =>
    match fld w 1 2 with
    | 0 => some (.xFread (bits w 20 4) (bits w 16 4) (bits w 13 3) (bits w 9 4) (bits w 5 4) (bit w 4), fld w 0 1 + fld w 3 1)
    | 1 => some (.xFapp (bits w 20 4) (bits w 16 4) (bits w 13 3) (bits w 5 4) (bit w 4), fld w 0 1 + fld w 3 1 + fld w 9 4)
    | _ => none
  | 209 => some (.xKv (bits w 20 4) (bits w 16 4) (bits w 13 3) (bits w 5 4) (bit w 4), fld w 0 4 + fld w 9 4)
  | 210 => some (.xBankt (bits w 20 4) (bits w 16 4) (bits w 13 3) (bits w 5 4) (bit w 4), fld w 0 4 + fld w 9 4)
  | 211 => some (.xBankp (bits w 20 4) (bits w 16 4) (bits w 13 3) (bits w 5 4) (bit w 4), fld w 0 4 + fld w 9 4)
  | 212 => some (.xBankgo (bits w 20 4) (bits w 5 4), fld w 0 5 + fld w 9 11)
  | 213 => some (.xIred (bits w 20 4) (bits w 16 4) (bits w 13 3) (bits w 5 4) (bit w 4) (bit w 3), fld w 0 3 + fld w 9 4)
  | 214 =>
    match fld w 1 2 with
    | 0 => some (.xHin (bits w 20 4) (bits w 16 4) (bits w 13 3) (bits w 9 4) (bits w 5 4) (bit w 4), fld w 0 1 + fld w 3 1)
    | 1 => some (.xHout (bits w 20 4) (bits w 16 4) (bits w 13 3) (bits w 9 4) (bits w 5 4) (bit w 4), fld w 0 1 + fld w 3 1)
    | 2 => some (.xHdec (bits w 20 4) (bits w 16 4) (bits w 13 3) (bits w 9 4) (bits w 5 4) (bit w 4), fld w 0 1 + fld w 3 1)
    | _ => none
  | _ => none

/-- The rows of all four engines; the tag stands in bits [31:30] (R29). -/
def candidate (w : Nat) : Option (Instr × Nat) :=
  match fld w 30 2 with
  | 0 => candScalar w
  | 1 => candVector w
  | 2 => candMatrix w
  | _ => candCopy w

/-- Checks 1 and 2 of R58 on a candidate. -/
def screen : Option (Instr × Nat) → Decoded
  | none => .illword
  | some (i, r) =>
    if i.illOperand then .illword
    else if r ≠ 0 ∨ i.resOperand then .resbits
    else .instr i

/-- The decoder of program text (R58, checks 1 and 2). -/
def decode (w : BitVec 32) : Decoded := screen (candidate w.toNat)

/-- The move words of a bank unit (10 R295, Table 103). -/
def candBank (w : Nat) : Option (Instr × Nat) :=
  if fld w 30 2 = 3 then some (.claspMove (bits w 0 16), fld w 16 14)
  else if fld w 29 1 = 1 then some (.moveImm (bits w 30 2) (bits w 23 6) (bits w 0 16), fld w 16 7)
  else some (.move (bits w 30 2) (bits w 23 6) (bits w 17 6), fld w 0 17)

/-- The decoder of a bank unit's program store. -/
def decodeBank (w : BitVec 32) : Decoded := screen (candBank w.toNat)

/-- The word that four bytes hold in memory, the first at the lowest address (R1, R29). -/
def wordOfBytes : List Byte → BitVec 32
  | [b0, b1, b2, b3] => b3 ++ b2 ++ b1 ++ b0
  | _ => 0

/-- The four bytes that hold a word in memory (R1, R29). -/
def bytesOfWord (w : BitVec 32) : List Byte :=
  [w.extractLsb' 0 8, w.extractLsb' 8 8, w.extractLsb' 16 8, w.extractLsb' 24 8]

/-- The instruction that a table word holds: laid out as bytes and decoded as program text; a word that program
text refuses is read as a bank unit's word, whose encodings overlap the others (log 22). -/
def decodeTableWord (_nbits w : Nat) : Option Instr :=
  let v := wordOfBytes (bytesOfWord (BitVec.ofNat 32 w))
  match decode v with
  | .instr i => some i
  | _ =>
    match decodeBank v with
    | .instr i => some i
    | _ => none


/-- The word of an instruction, from the same tables; a step without an encoding has none. -/
def encode : Instr → Option Nat
  | .ill x => some (0 + x.toNat)
  | .nop => some (251658240)
  | .add a b w => some (16777216 + a.toNat * 524288 + b.toNat * 16384 + w.toNat * 128)
  | .sub a b w => some (16777472 + a.toNat * 524288 + b.toNat * 16384 + w.toNat * 128)
  | .mul a b w => some (16777728 + a.toNat * 524288 + b.toNat * 16384 + w.toNat * 128)
  | .mulh a b w => some (16777984 + a.toNat * 524288 + b.toNat * 16384 + w.toNat * 128)
  | .mulhn a b w => some (16778240 + a.toNat * 524288 + b.toNat * 16384 + w.toNat * 128)
  | .div a b w => some (16778496 + a.toNat * 524288 + b.toNat * 16384 + w.toNat * 128)
  | .divn a b w => some (16778752 + a.toNat * 524288 + b.toNat * 16384 + w.toNat * 128)
  | .rem a b w => some (16779008 + a.toNat * 524288 + b.toNat * 16384 + w.toNat * 128)
  | .remn a b w => some (16779264 + a.toNat * 524288 + b.toNat * 16384 + w.toNat * 128)
  | .and a b w => some (16779520 + a.toNat * 524288 + b.toNat * 16384 + w.toNat * 128)
  | .or a b w => some (16779776 + a.toNat * 524288 + b.toNat * 16384 + w.toNat * 128)
  | .xor a b w => some (16780032 + a.toNat * 524288 + b.toNat * 16384 + w.toNat * 128)
  | .andn a b w => some (16780288 + a.toNat * 524288 + b.toNat * 16384 + w.toNat * 128)
  | .shl a b w => some (16780544 + a.toNat * 524288 + b.toNat * 16384 + w.toNat * 128)
  | .shr a b w => some (16780800 + a.toNat * 524288 + b.toNat * 16384 + w.toNat * 128)
  | .sar a b w => some (16781056 + a.toNat * 524288 + b.toNat * 16384 + w.toNat * 128)
  | .rol a b w => some (16781312 + a.toNat * 524288 + b.toNat * 16384 + w.toNat * 128)
  | .ror a b w => some (16781568 + a.toNat * 524288 + b.toNat * 16384 + w.toNat * 128)
  | .min a b w => some (16781824 + a.toNat * 524288 + b.toNat * 16384 + w.toNat * 128)
  | .max a b w => some (16782080 + a.toNat * 524288 + b.toNat * 16384 + w.toNat * 128)
  | .minn a b w => some (16782336 + a.toNat * 524288 + b.toNat * 16384 + w.toNat * 128)
  | .maxn a b w => some (16782592 + a.toNat * 524288 + b.toNat * 16384 + w.toNat * 128)
  | .ceq a b w => some (33554432 + a.toNat * 524288 + b.toNat * 16384 + w.toNat * 128)
  | .cne a b w => some (33554688 + a.toNat * 524288 + b.toNat * 16384 + w.toNat * 128)
  | .clt a b w => some (33554944 + a.toNat * 524288 + b.toNat * 16384 + w.toNat * 128)
  | .cltn a b w => some (33555200 + a.toNat * 524288 + b.toNat * 16384 + w.toNat * 128)
  | .cle a b w => some (33555456 + a.toNat * 524288 + b.toNat * 16384 + w.toNat * 128)
  | .clen a b w => some (33555712 + a.toNat * 524288 + b.toNat * 16384 + w.toNat * 128)
  | .clz a w => some (50331648 + a.toNat * 524288 + w.toNat * 128)
  | .ctz a w => some (50331904 + a.toNat * 524288 + w.toNat * 128)
  | .popc a w => some (50332160 + a.toNat * 524288 + w.toNat * 128)
  | .brev a w => some (50332416 + a.toNat * 524288 + w.toNat * 128)
  | .sext8 a => some (50332672 + a.toNat * 524288)
  | .sext16 a => some (50332928 + a.toNat * 524288)
  | .sext32 a => some (50333184 + a.toNat * 524288)
  | .sel a b c => some (67108864 + a.toNat * 524288 + b.toNat * 16384 + c.toNat * 512)
  | .addi a w h i => some (83886080 + a.toNat * 524288 + w.toNat * 262144 + h.toNat * 65536 + i.toNat)
  | .andi a w h i => some (100663296 + a.toNat * 524288 + w.toNat * 262144 + h.toNat * 65536 + i.toNat)
  | .ori a w h i => some (117440512 + a.toNat * 524288 + w.toNat * 262144 + h.toNat * 65536 + i.toNat)
  | .xori a w h i => some (134217728 + a.toNat * 524288 + w.toNat * 262144 + h.toNat * 65536 + i.toNat)
  | .shli a w n => some (150994944 + a.toNat * 524288 + w.toNat * 262144 + n.toNat)
  | .shri a w n => some (151060480 + a.toNat * 524288 + w.toNat * 262144 + n.toNat)
  | .sari a w n => some (151126016 + a.toNat * 524288 + w.toNat * 262144 + n.toNat)
  | .roli a w n => some (151191552 + a.toNat * 524288 + w.toNat * 262144 + n.toNat)
  | .lit a h i => some (167772160 + a.toNat * 524288 + h.toNat * 65536 + i.toNat)
  | .lits i => some (168034304 + i.toNat)
  | .dup a => some (184549376 + a.toNat * 524288)
  | .ld a c s g q o => some (201326592 + a.toNat * 524288 + c.toNat * 32768 + s.toNat * 8192 + g.toNat * 4096 + q.toNat * 2048 + o.toNat)
  | .ldk a c s g o => some (218103808 + a.toNat * 524288 + c.toNat * 32768 + s.toNat * 8192 + g.toNat * 4096 + o.toNat)
  | .st a v c s l o => some (234881024 + a.toNat * 524288 + v.toNat * 16384 + c.toNat * 1024 + s.toNat * 256 + l.toNat * 128 + o.toNat)
  | .axch a b k o s => some (268435456 + a.toNat * 524288 + b.toNat * 16384 + k.toNat * 32 + o.toNat * 8 + s.toNat)
  | .acas a b c k o s => some (285212672 + a.toNat * 524288 + b.toNat * 16384 + c.toNat * 512 + k.toNat * 32 + o.toNat * 8 + s.toNat)
  | .aadd a b k o s => some (301989888 + a.toNat * 524288 + b.toNat * 16384 + k.toNat * 32 + o.toNat * 8 + s.toNat)
  | .aand a b k o s => some (318767104 + a.toNat * 524288 + b.toNat * 16384 + k.toNat * 32 + o.toNat * 8 + s.toNat)
  | .aor a b k o s => some (335544320 + a.toNat * 524288 + b.toNat * 16384 + k.toNat * 32 + o.toNat * 8 + s.toNat)
  | .axor a b k o s => some (352321536 + a.toNat * 524288 + b.toNat * 16384 + k.toNat * 32 + o.toNat * 8 + s.toNat)
  | .amin a b k o s => some (369098752 + a.toNat * 524288 + b.toNat * 16384 + k.toNat * 32 + o.toNat * 8 + s.toNat)
  | .amax a b k o s => some (385875968 + a.toNat * 524288 + b.toNat * 16384 + k.toNat * 32 + o.toNat * 8 + s.toNat)
  | .aminn a b k o s => some (402653184 + a.toNat * 524288 + b.toNat * 16384 + k.toNat * 32 + o.toNat * 8 + s.toNat)
  | .amaxn a b k o s => some (419430400 + a.toNat * 524288 + b.toNat * 16384 + k.toNat * 32 + o.toNat * 8 + s.toNat)
  | .fence p q s m => some (436207616 + p.toNat * 262144 + q.toNat * 4096 + s.toNat * 512 + m.toNat * 16)
  | .fencea p q s => some (452984832 + p.toNat * 262144 + q.toNat * 4096 + s.toNat * 512)
  | .rinv a b k => some (469762048 + a.toNat * 524288 + b.toNat * 16384 + k.toNat)
  | .tlookFind a c => some (486539264 + a.toNat * 524288 + c.toNat * 16)
  | .tlookClaim a c => some (486539265 + a.toNat * 524288 + c.toNat * 16)
  | .tlookFree c => some (486539266 + c.toNat * 16)
  | .tsetk a b c => some (486539520 + a.toNat * 524288 + b.toNat * 16384 + c.toNat * 16)
  | .tdrop a c => some (486539776 + a.toNat * 524288 + c.toNat * 16)
  | .pbr t o => some (503316480 + t.toNat * 4194304 + o.toNat)
  | .br t i c => some (520093696 + t.toNat * 4194304 + i.toNat * 131072 + c.toNat * 16384)
  | .call t => some (536870912 + t.toNat * 4194304)
  | .rets => some (553648128)
  | .jtb t i b => some (570425344 + t.toNat * 4194304 + i.toNat * 131072 + b.toNat * 128)
  | .clasp l => some (587202560 + l.toNat)
  | .give p n => some (603979776 + p.toNat * 2097152 + n.toNat * 131072)
  | .take p n => some (612368384 + p.toNat * 2097152 + n.toNat * 131072)
  | .qset a b h => some (620756992 + a.toNat * 524288 + b.toNat * 16384 + h.toNat)
  | .qadv a s h => some (620757248 + a.toNat * 524288 + s.toNat * 16 + h.toNat)
  | .qwait a s h => some (620757504 + a.toNat * 524288 + s.toNat * 16 + h.toNat)
  | .qinfo s h => some (620757760 + s.toNat * 16 + h.toNat)
  | .prmw a f i => some (637534208 + a.toNat * 524288 + f.toNat * 256 + i.toNat)
  | .fmtq a => some (654311424 + a.toNat * 524288)
  | .stmpq a => some (671088640 + a.toNat * 524288)
  | .getk k => some (687865856 + k.toNat)
  | .setk a k => some (704643072 + a.toNat * 524288 + k.toNat)
  | .stamp => some (721420288)
  | .barCrew => some (738197504)
  | .barSpan => some (742391808)
  | .barStage => some (746586112)
  | .waitTick a => some (754974720 + a.toNat * 524288)
  | .waitSerai a => some (754974976 + a.toNat * 524288)
  | .tlaunch a => some (771751936 + a.toNat * 524288)
  | .trig a => some (771752192 + a.toNat * 524288)
  | .texit => some (771752448)
  | .tyield => some (771752704)
  | .sreg a => some (788529152 + a.toNat * 524288)
  | .sbind a b => some (788529408 + a.toNat * 524288 + b.toNat * 16384)
  | .spost a b n => some (788529664 + a.toNat * 524288 + b.toNat * 16384 + n.toNat)
  | .rcall t k f n c l => some (805306368 + t.toNat * 524288 + k.toNat * 16384 + f.toNat * 512 + n.toNat * 32 + c.toNat * 2 + l.toNat)
  | .rpoll a w => some (822083584 + a.toNat * 524288 + w.toNat)
  | .rret a n => some (838860800 + a.toNat * 524288 + n.toNat)
  | .search a c => some (855638016 + a.toNat * 524288 + c.toNat)
  | .crsv a b => some (872415232 + a.toNat * 524288 + b.toNat * 16384)
  | .crel a => some (872415488 + a.toNat * 524288)
  | .cqry a => some (872415744 + a.toNat * 524288)
  | .lmark a => some (889192448 + a.toNat * 524288)
  | .lhash => some (889192704)
  | .trap i => some (905969664 + i.toNat)
  | .tret a => some (922746880 + a.toNat * 524288)
  | .pgshare a b m => some (939524096 + a.toNat * 524288 + b.toNat * 16384 + m.toNat)
  | .pgdrop a => some (939524352 + a.toNat * 524288)
  | .vAdd d a b g t => some (1090519040 + d.toNat * 262144 + a.toNat * 4096 + b.toNat * 64 + g.toNat * 8 + t.toNat)
  | .vSub d a b g t => some (1107296256 + d.toNat * 262144 + a.toNat * 4096 + b.toNat * 64 + g.toNat * 8 + t.toNat)
  | .vMul d a b g t => some (1124073472 + d.toNat * 262144 + a.toNat * 4096 + b.toNat * 64 + g.toNat * 8 + t.toNat)
  | .vFma d a b c => some (1140850688 + d.toNat * 262144 + a.toNat * 4096 + b.toNat * 64 + c.toNat)
  | .vFms d a b c => some (1157627904 + d.toNat * 262144 + a.toNat * 4096 + b.toNat * 64 + c.toNat)
  | .vMin d a b g t => some (1174405120 + d.toNat * 262144 + a.toNat * 4096 + b.toNat * 64 + g.toNat * 8 + t.toNat)
  | .vMax d a b g t => some (1191182336 + d.toNat * 262144 + a.toNat * 4096 + b.toNat * 64 + g.toNat * 8 + t.toNat)
  | .vAbs d a g t => some (1207959552 + d.toNat * 262144 + a.toNat * 4096 + g.toNat * 8 + t.toNat)
  | .vNeg d a g t => some (1207959616 + d.toNat * 262144 + a.toNat * 4096 + g.toNat * 8 + t.toNat)
  | .vAnd d a b g t => some (1224736768 + d.toNat * 262144 + a.toNat * 4096 + b.toNat * 64 + g.toNat * 8 + t.toNat)
  | .vOr d a b g t => some (1241513984 + d.toNat * 262144 + a.toNat * 4096 + b.toNat * 64 + g.toNat * 8 + t.toNat)
  | .vXor d a b g t => some (1258291200 + d.toNat * 262144 + a.toNat * 4096 + b.toNat * 64 + g.toNat * 8 + t.toNat)
  | .vShl d a b g t => some (1275068416 + d.toNat * 262144 + a.toNat * 4096 + b.toNat * 64 + g.toNat * 8 + t.toNat)
  | .vShr d a b g t => some (1291845632 + d.toNat * 262144 + a.toNat * 4096 + b.toNat * 64 + g.toNat * 8 + t.toNat)
  | .vSar d a b g t => some (1308622848 + d.toNat * 262144 + a.toNat * 4096 + b.toNat * 64 + g.toNat * 8 + t.toNat)
  | .vRol d a b g t => some (1325400064 + d.toNat * 262144 + a.toNat * 4096 + b.toNat * 64 + g.toNat * 8 + t.toNat)
  | .vCmp c k a b g t => some (1342177280 + c.toNat * 2097152 + k.toNat * 262144 + a.toNat * 4096 + b.toNat * 64 + g.toNat * 8 + t.toNat)
  | .vSel d a b s t => some (1358954496 + d.toNat * 262144 + a.toNat * 4096 + b.toNat * 64 + s.toNat * 8 + t.toNat)
  | .vCvt d a e r g t => some (1375731712 + d.toNat * 262144 + a.toNat * 4096 + e.toNat * 512 + r.toNat * 64 + g.toNat * 8 + t.toNat)
  | .vSfn d a f g t => some (1392508928 + d.toNat * 262144 + a.toNat * 4096 + f.toNat * 64 + g.toNat * 8 + t.toNat)
  | .vRed d a o g t => some (1409286144 + d.toNat * 262144 + a.toNat * 4096 + o.toNat * 64 + g.toNat * 8 + t.toNat)
  | .vScan d a o g t => some (1426063360 + d.toNat * 262144 + a.toNat * 4096 + o.toNat * 64 + g.toNat * 8 + t.toNat)
  | .vPerm d a b g t => some (1442840576 + d.toNat * 262144 + a.toNat * 4096 + b.toNat * 64 + g.toNat * 8 + t.toNat)
  | .vLrot d a b g t => some (1459617792 + d.toNat * 262144 + a.toNat * 4096 + b.toNat * 64 + g.toNat * 8 + t.toNat)
  | .vBcast d a b g t => some (1476395008 + d.toNat * 262144 + a.toNat * 4096 + b.toNat * 64 + g.toNat * 8 + t.toNat)
  | .vPack d a b f t => some (1493172224 + d.toNat * 262144 + a.toNat * 4096 + b.toNat * 64 + f.toNat * 8 + t.toNat)
  | .vUnpk d a b f t => some (1509949440 + d.toNat * 262144 + a.toNat * 4096 + b.toNat * 64 + f.toNat * 8 + t.toNat)
  | .vMov d a g t => some (1526726656 + d.toNat * 262144 + a.toNat * 4096 + g.toNat * 8 + t.toNat)
  | .vLit n t i => some (1543503872 + n.toNat * 524288 + t.toNat * 65536 + i.toNat)
  | .vTopk d a k g t => some (1560281088 + d.toNat * 262144 + a.toNat * 4096 + k.toNat * 64 + g.toNat * 8 + t.toNat)
  | .vBind n v m c s => some (1610612736 + n.toNat * 524288 + v.toNat * 65536 + m.toNat * 2048 + c.toNat * 256 + s.toNat * 128)
  | .vRrbSet n => some (1627389952 + n.toNat * 1048576)
  | .vRrbAdd n => some (1627914240 + n.toNat * 1048576)
  | .vGuard n => some (1644167168 + n.toNat * 2097152)
  | .vPredAnd d a b => some (1660944384 + d.toNat * 2097152 + a.toNat * 262144 + b.toNat * 32768)
  | .vPredOr d a b => some (1660948480 + d.toNat * 2097152 + a.toNat * 262144 + b.toNat * 32768)
  | .vPredXor d a b => some (1660952576 + d.toNat * 2097152 + a.toNat * 262144 + b.toNat * 32768)
  | .vPredAndn d a b => some (1660956672 + d.toNat * 2097152 + a.toNat * 262144 + b.toNat * 32768)
  | .vPredNot d a => some (1660960768 + d.toNat * 2097152 + a.toNat * 262144)
  | .vPredFirst d n => some (1660964864 + d.toNat * 2097152 + n.toNat)
  | .vPredLane d n => some (1660968960 + d.toNat * 2097152 + n.toNat)
  | .vNest b l s => some (1677721600 + b.toNat * 262144 + l.toNat * 32768 + s.toNat * 4096)
  | .vPortRead p h => some (1694498816 + p.toNat * 4194304 + h.toNat * 262144)
  | .vPortWrite p h => some (1694629888 + p.toNat * 4194304 + h.toNat * 262144)
  | .vPortUnbind p => some (1694564352 + p.toNat * 4194304)
  | .vTos a l t => some (1711276032 + a.toNat * 262144 + l.toNat * 1024 + t.toNat)
  | .vGive p n => some (1728053248 + p.toNat * 2097152 + n.toNat * 131072)
  | .vTake p n => some (1736441856 + p.toNat * 2097152 + n.toNat * 131072)
  | .vStatStat n => some (1744830464 + n.toNat * 524288)
  | .vStatClear n m => some (1744896000 + n.toNat * 524288 + m.toNat)
  | .vStatEng => some (1744961536)
  | .vStatPred p q => some (1745027072 + p.toNat * 8192 + q.toNat * 2048)
  | .vStatBind => some (1745092608)
  | .mMma k a j b t z s p => some (2164260864 + k.toNat * 4194304 + a.toNat * 131072 + j.toNat * 32768 + b.toNat * 1024 + t.toNat * 32 + z.toNat * 16 + s.toNat * 8 + p.toNat * 4)
  | .mMmas k a j b t z s p => some (2181038080 + k.toNat * 4194304 + a.toNat * 131072 + j.toNat * 32768 + b.toNat * 1024 + t.toNat * 32 + z.toNat * 16 + s.toNat * 8 + p.toNat * 4)
  | .mMmv k a j b t z s p => some (2197815296 + k.toNat * 4194304 + a.toNat * 131072 + j.toNat * 32768 + b.toNat * 1024 + t.toNat * 32 + z.toNat * 16 + s.toNat * 8 + p.toNat * 4)
  | .mZero n s => some (2214592512 + n.toNat * 524288 + s.toNat * 262144)
  | .mLoadTile n m => some (2231369728 + n.toNat * 524288 + m.toNat * 4096)
  | .mLoadDesc n k s c => some (2231500800 + n.toNat * 524288 + k.toNat * 4096 + s.toNat * 2048 + c.toNat * 128)
  | .mDrainTile n m z => some (2248146944 + n.toNat * 524288 + m.toNat * 4096 + z.toNat * 64)
  | .mDrainDesc n k c z => some (2248278016 + n.toNat * 524288 + k.toNat * 4096 + c.toNat * 128 + z.toNat * 64)
  | .mSwap n m => some (2264924160 + n.toNat * 524288 + m.toNat * 16384)
  | .mStart => some (2281701376)
  | .mStatStat n => some (2298478592 + n.toNat * 524288)
  | .mStatClear n m => some (2298544128 + n.toNat * 524288 + m.toNat)
  | .mStatQueues => some (2298609664)
  | .mStatAssay => some (2298675200)
  | .mStatWindow => some (2298740736)
  | .mStatToll => some (2298806272)
  | .mAssay => some (2315255808)
  | .mNest b l => some (2332033024 + b.toNat * 262144 + l.toNat * 32768)
  | .mGive p n => some (2348810240 + p.toNat * 2097152 + n.toNat * 131072)
  | .mTake p n => some (2357198848 + p.toNat * 2097152 + n.toNat * 131072)
  | .mToll n => some (2365587456 + n.toNat * 16)
  | .xCopy s d l q c v => some (3238002688 + s.toNat * 1048576 + d.toNat * 65536 + l.toNat * 8192 + q.toNat * 512 + c.toNat * 32 + v.toNat * 16)
  | .xGath s d l q c => some (3254779904 + s.toNat * 1048576 + d.toNat * 65536 + l.toNat * 8192 + q.toNat * 512 + c.toNat * 32)
  | .xScat s d l q c => some (3271557120 + s.toNat * 1048576 + d.toNat * 65536 + l.toNat * 8192 + q.toNat * 512 + c.toNat * 32)
  | .xSadd s d l q c w => some (3288334336 + s.toNat * 1048576 + d.toNat * 65536 + l.toNat * 8192 + q.toNat * 512 + c.toNat * 32 + w.toNat * 8)
  | .xTrans s d l q c => some (3305111552 + s.toNat * 1048576 + d.toNat * 65536 + l.toNat * 8192 + q.toNat * 512 + c.toNat * 32)
  | .xPad s d l q c => some (3321888768 + s.toNat * 1048576 + d.toNat * 65536 + l.toNat * 8192 + q.toNat * 512 + c.toNat * 32)
  | .xMeta s d l q c => some (3338665984 + s.toNat * 1048576 + d.toNat * 65536 + l.toNat * 8192 + q.toNat * 512 + c.toNat * 32)
  | .xFill s d c v => some (3355443200 + s.toNat * 1048576 + d.toNat * 65536 + c.toNat * 32 + v.toNat * 16)
  | .xEvict s d c v => some (3372220416 + s.toNat * 1048576 + d.toNat * 65536 + c.toNat * 32 + v.toNat * 16)
  | .xCheck s l q c => some (3388997632 + s.toNat * 1048576 + l.toNat * 8192 + q.toNat * 512 + c.toNat * 32)
  | .xWait m => some (3405774848 + m.toNat * 256)
  | .xQadv h s n => some (3422552064 + h.toNat * 1048576 + s.toNat * 524288 + n.toNat * 64)
  | .xNest b l => some (3439329280 + b.toNat * 262144 + l.toNat * 32768)
  | .xGive p n => some (3456106496 + p.toNat * 2097152 + n.toNat * 131072)
  | .xTake p n => some (3464495104 + p.toNat * 2097152 + n.toNat * 131072)
  | .xFread s d l q c v => some (3489660928 + s.toNat * 1048576 + d.toNat * 65536 + l.toNat * 8192 + q.toNat * 512 + c.toNat * 32 + v.toNat * 16)
  | .xFapp s d l c v => some (3489660930 + s.toNat * 1048576 + d.toNat * 65536 + l.toNat * 8192 + c.toNat * 32 + v.toNat * 16)
  | .xKv s d l c v => some (3506438144 + s.toNat * 1048576 + d.toNat * 65536 + l.toNat * 8192 + c.toNat * 32 + v.toNat * 16)
  | .xBankt s d l c v => some (3523215360 + s.toNat * 1048576 + d.toNat * 65536 + l.toNat * 8192 + c.toNat * 32 + v.toNat * 16)
  | .xBankp s d l c v => some (3539992576 + s.toNat * 1048576 + d.toNat * 65536 + l.toNat * 8192 + c.toNat * 32 + v.toNat * 16)
  | .xBankgo s c => some (3556769792 + s.toNat * 1048576 + c.toNat * 32)
  | .xIred s d l c v w => some (3573547008 + s.toNat * 1048576 + d.toNat * 65536 + l.toNat * 8192 + c.toNat * 32 + v.toNat * 16 + w.toNat * 8)
  | .xHin s d l q c v => some (3590324224 + s.toNat * 1048576 + d.toNat * 65536 + l.toNat * 8192 + q.toNat * 512 + c.toNat * 32 + v.toNat * 16)
  | .xHout s d l q c v => some (3590324226 + s.toNat * 1048576 + d.toNat * 65536 + l.toNat * 8192 + q.toNat * 512 + c.toNat * 32 + v.toNat * 16)
  | .xHdec s d l q c v => some (3590324228 + s.toNat * 1048576 + d.toNat * 65536 + l.toNat * 8192 + q.toNat * 512 + c.toNat * 32 + v.toNat * 16)
  | .move g d s => some (0 + g.toNat * 1073741824 + d.toNat * 8388608 + s.toNat * 131072)
  | .moveImm g d i => some (536870912 + g.toNat * 1073741824 + d.toNat * 8388608 + i.toNat)
  | .claspMove l => some (3221225472 + l.toNat)
  | _ => none

end Sys2Proof
end

