-- ==== Sys2Proof/Config.lean ====
section
/-! DEFINITION. What the spec fixes for the package as constants, and the free values: opaque constants without a body,
one for each value the spec leaves open (log 4). A free value is applied to the operands it depends on, or to the counter
State.fresh for a fresh value each time. -/

namespace Sys2Proof.Config

/-! ## Constants -/

/-- Cores of the package (01 R13). -/
def cores : Nat := 288

/-- First byte past DRAM (01 Table 11). -/
def dramEnd : Nat := 0x10000000000

/-- First byte past the KV block store (01 Table 11). -/
def kvEnd : Nat := 0x10040000000

/-- The device register window and its peer window (01 Table 11, 14 R432). -/
def regBase : Nat := 0x20000000000
def peerBase : Nat := 0x20080000000
def regEnd : Nat := 0x20100000000

/-- The host window (01 Table 11). -/
def hostBase : Nat := 0x80000000000
def hostEnd : Nat := 0x100000000000

/-- The place of the crew scratchpads in the model's one byte map: behind the 44-bit physical space, 64 MiB for each
cluster (07 R208). -/
def padBase : Nat := 0x100000000000
def padSize : Nat := 0x4000000

/-- The place of the traversal cores' working memories, 256 KiB each (11 R348). -/
def travBase : Nat := 0x100040000000

/-! ## Free values -/

/-- V.SFN where Table 58 gives only a bound: function, format, operand (05 R168, log 7). -/
opaque sfn : Nat → Nat → Nat → Nat

/-- Whether the host completes an access with an error (14 R423, log 10). -/
opaque hostFails : Nat → Bool

/-- The valve position at which a zone's flow meets a target (13 R399, log 12). -/
opaque valvePos : Nat → Nat → Nat → BitVec 8

/-- What another package answers, and whether it refuses (14 R432, log 11). -/
opaque peerByte : Nat → Nat → Byte
opaque peerRefuses : Nat → Bool
opaque peerWord : Nat → Word

/-- The mismatch with which a grain comes from another package (14 R432, log 11). -/
opaque peerMark : Nat → BitVec 32

/-- The stamp ticks that a forced refresh takes (10 R301). -/
opaque refreshTicks : Nat → Nat

/-- The neighbour list a merge gives a node of a GRAPH index: the merge, the node, its list so far (11 R340,
log 14). -/
opaque mergeNeighbours : Nat → Nat → List Nat → List Nat

/-- What a faulty cell of the matrix array makes of a container: fresh value, row, column, its right bits (06 R202,
log 20). -/
opaque cellFault : Nat → Nat → Nat → Nat → Nat

/-- A field of the image that the bytes in the recovery mailbox are: field, bytes by address (14 R428, log 18). -/
opaque imageField : Nat → List (Nat × Nat) → Nat

/-- An identity key pair: algorithm, fused secret, image digest (14 R429, log 18). -/
opaque identityKey : Nat → BitVec 256 → BitVec 384 → Nat

/-- A signature: algorithm, key pair, what is signed (14 R429, log 18). -/
opaque signature : Nat → Nat → List Nat → Nat

/-- The state of the link's IDE streams at an occasion (14 R422, log 21). -/
opaque ideState : Nat → Nat

end Sys2Proof.Config
end

