-- ==== Sys2Proof/Machine/Sparse.lean ====
section
/-! DEFINITION. Sparse maps: lists of key and value pairs with keys strictly rising. A key that is not listed reads as a
default. Every register file, table and memory that is too large to write out is held so. -/

namespace Sys2Proof.Machine

/-- Pairs of a key and a value. -/
abbrev Sparse (α : Type) := List (Nat × α)

/-- The value at key k, or the default d. -/
def Sparse.get {α : Type} (d : α) : Sparse α → Nat → α
  | [], _ => d
  | (j, v) :: m, k => if j = k then v else Sparse.get d m k

/-- The map without key k. -/
def Sparse.drop {α : Type} : Sparse α → Nat → Sparse α
  | [], _ => []
  | (j, v) :: m, k => if j = k then Sparse.drop m k else (j, v) :: Sparse.drop m k

/-- The pair (k, v) put before the first greater key. -/
def Sparse.insert {α : Type} : Sparse α → Nat → α → Sparse α
  | [], k, v => [(k, v)]
  | (j, u) :: m, k, v => if j < k then (j, u) :: Sparse.insert m k v else (k, v) :: (j, u) :: m

/-- Key k now holds v. -/
def Sparse.put {α : Type} (m : Sparse α) (k : Nat) (v : α) : Sparse α :=
  (m.drop k).insert k v

/-- Key k now holds v; a key that holds the default d is not listed. -/
def Sparse.putD {α : Type} [DecidableEq α] (d : α) (m : Sparse α) (k : Nat) (v : α) : Sparse α :=
  if v = d then m.drop k else m.put k v

/-- The keys rise strictly, from above b when b is given. -/
def Sparse.risingFrom {α : Type} : Option Nat → Sparse α → Bool
  | _, [] => true
  | none, (k, _) :: m => Sparse.risingFrom (some k) m
  | some b, (k, _) :: m => decide (b < k) && Sparse.risingFrom (some k) m

/-- The canonical form: keys strictly rising and no listed default. -/
def Sparse.wf {α : Type} [DecidableEq α] (d : α) (m : Sparse α) : Bool :=
  Sparse.risingFrom none m && m.all (fun p => decide (p.2 ≠ d))

end Sys2Proof.Machine
end

