-- ==== Sys2Proof/Machine/Types.lean ====
section
/-! DEFINITION. The pieces of the machine's state, one structure for each part the spec names (INVENTORY.md, State). -/

namespace Sys2Proof.Machine

/-- The four engines by their tags (02 R29). -/
inductive Engine where
  | s | v | m | x
deriving DecidableEq, Repr

/-- The tag of an engine. -/
def Engine.tag : Engine → Nat
  | .s => 0 | .v => 1 | .m => 2 | .x => 3

/-- The trap causes of Table 180 (12 R382). -/
inductive Cause where
  | none | illword | resbits | operand | fmtempty | schedmiss | notpresent | protect | align | claspmiss | jtbound
  | retmiss | sealfault | qfault | logfull | remote | remlost | uncorr | assay | hallmark | tretctx | cooltemp
  | coolflow | drychan | flashunc | idetag | diefence | diverge | swtrap | watchdog | preempt
deriving DecidableEq, Repr

/-- The 6-bit code of a cause. -/
def Cause.code : Cause → Nat
  | .none => 0x00 | .illword => 0x01 | .resbits => 0x02 | .operand => 0x03 | .fmtempty => 0x04
  | .schedmiss => 0x05 | .notpresent => 0x06 | .protect => 0x07 | .align => 0x08 | .claspmiss => 0x09
  | .jtbound => 0x0A | .retmiss => 0x0B | .sealfault => 0x0C | .qfault => 0x0D | .logfull => 0x0E
  | .remote => 0x0F | .remlost => 0x10 | .uncorr => 0x11 | .assay => 0x12 | .hallmark => 0x13
  | .tretctx => 0x14 | .cooltemp => 0x15 | .coolflow => 0x16 | .drychan => 0x17 | .flashunc => 0x18
  | .idetag => 0x19 | .diefence => 0x1A | .diverge => 0x1B | .swtrap => 0x1C | .watchdog => 0x1D
  | .preempt => 0x1E

/-- What a trap carries: its cause, the TRAP code, and the fault registers it writes (08 R258, 11 R330). -/
structure Trap where
  cause : Cause
  code : Nat := 0
  fault : Option (Word × BitVec 16) := none
  flash : Option Word := none
deriving DecidableEq, Repr

/-- An engine counter: the walk index and address of the word the engine examines next (02 R31, R42). `next` is where it
goes once the scalar counter stands there, when the word it stands at has retired: no counter is ahead of the scalar
counter (R33). -/
structure Counter where
  walk : Nat := 0
  addr : Word := 0
  stop : Bool := false
  next : Option (Nat × Word) := none
deriving DecidableEq, Repr

/-! ## Strand and hand-offs -/

/-- Results in flight (04 R95): the landing beat and the items in the order their word lists them; `src` is the walk index
of a load whose data has not arrived (R97). -/
structure InFlight where
  due : Nat
  items : List Word
  src : Option Nat := none
deriving DecidableEq, Repr

/-- A memory operand as a word names it: address, size, class. -/
structure Ref where
  va : Word
  size : Nat
  cls : Nat
deriving DecidableEq, Repr

/-- An atomic waiting in convoy order (09 R290): its window, its key number and the word. -/
structure ConvoyAtom where
  window : Nat
  num : Nat
  op : AtomOp
  ref : Ref
  b : Word
  c : Word
  acq : Bool
  rel : Option Nat
deriving DecidableEq, Repr

/-- A queue handle as an engine holds it (07 R218): the QSET that set it, the control block's crew offset, the geometry. -/
structure Handle where
  gen : Nat
  ctl : Nat
  geom : Word
deriving DecidableEq, Repr

/-- What a word that has issued and not retired waits for: data of memory (04 R97), an answer of the tag table (07 R215), a
queue advance applied (07 R223). -/
inductive LoadKind where
  | mem (ref : Ref) (signed constant acquire : Bool)
  | tagFind (tag : BitVec 36)
  | tagClaim (tag : BitVec 36)
  | tagFree
  | advance (h : Nat) (q : Handle) (prod : Bool) (n : Nat)
deriving DecidableEq, Repr

/-- The scalar engine as a load found it at its issue: where a stop before the data's arrival puts the cut (04 R99,
R101). -/
structure ScalarBack where
  ctr : Counter
  strand : List Word
  flight : List InFlight
  beat : Nat
  targets : List (Option Word)
  landing : Bool
deriving DecidableEq, Repr

/-- A load that has issued and whose data has not arrived, or a queue advance not yet applied (04 R97, R123, 07 R223): its
walk index, landing beat, class and place. -/
structure PendLoad where
  walk : Nat
  due : Nat
  cls : Nat
  loc : Nat
  kind : LoadKind
  back : ScalarBack
deriving DecidableEq, Repr

/-- A line of the scalar data cache (04 R110). -/
structure Line where
  num : Nat
  constant : Bool
  bytes : List Byte
deriving DecidableEq, Repr

/-- A route outcome and who has taken it (02 R34). -/
structure RouteOut where
  walk : Nat
  target : Word
  v : Bool := false
  m : Bool := false
  x : Bool := false
deriving DecidableEq, Repr

/-- A value with the walk index that produced it (02 R37). -/
structure Handed where
  walk : Nat
  val : Word
deriving DecidableEq, Repr

/-- The items captured for a matrix word (02 R38). -/
structure Capture where
  walk : Nat
  items : List (Option Word)
deriving DecidableEq, Repr

/-- A parameter write (02 R37, 04 R105, 07 R228, R219). -/
inductive Param where
  | loopWord (set word : Nat) (v : Word)
  | descWord (desc word : Nat) (v : Word)
  | portWord (port : Nat) (v : Word)
  | kreg (num : Nat) (v : Word)
  | handle (h : Nat) (q : Handle)
deriving DecidableEq, Repr

/-- A parameter write and the walk index of the word that made it. -/
structure ParamWrite where
  walk : Nat
  param : Param
deriving DecidableEq, Repr

/-- The walk as the engines behind see it (02 R31-R34): the words of the other engines with their addresses, and the TEXIT;
route words stand in the route queue. A word passed before a resumption is read again (R30). -/
inductive Trail where
  | word (w : BitVec 32) (a : Word)
  | again (a : Word)
  | texit
deriving DecidableEq, Repr

/-- The owner and claims of one side of a handle since its QSET (07 R220, R222). -/
structure Side where
  gen : Nat
  prod : Bool
  owner : Engine
  claims : Nat
deriving DecidableEq, Repr

/-- A record-mode stamp of an access: who is logged (14 R406). -/
structure LogWho where
  mode : Nat
  whr : Nat
  tseq : Nat
deriving DecidableEq, Repr

/-- The kinds of access that fence bits name (09 Table 84). -/
structure Kinds where
  r : Bool := false
  w : Bool := false
  cr : Bool := false
  cw : Bool := false
  mr : Bool := false
  mw : Bool := false
deriving DecidableEq, Repr

/-- The homes of R271 (09): a channel, a crew, the KV store, the registers, the host link, a home of another package, a
traversal core, a flash region with its die. -/
inductive Home where
  | channel (c : Nat) | crew (c : Nat) | kv | reg | host | peer (pkg home : Nat) | trav (t : Nat) | region (r die : Nat)
deriving DecidableEq, Repr

/-- What an access held in the request path does when it performs (09 R278, R279): bytes written, with the hallmark state
that a carried grain brings (07 R236); the seals of a GIVE; a tag entry set or cleared (07 R216); a queue count advanced,
with the slot that it publishes (07 R220, 05 R153); the start of a remote call's function (10 R324). -/
inductive HeldAct where
  | store (bytes : List Byte) (mark : Option (BitVec 32 × Bool))
  | seals (peer : Engine) (n : Nat)
  | tagSet (slot : Nat) (tag : BitVec 36)
  | tagDrop (slot : Nat)
  | count (h : Nat) (q : Handle) (prod : Bool) (n : Nat) (claim : Bool) (slot : Option (Nat × Nat × Nat))
  | call (id : Nat)
deriving DecidableEq, Repr

/-- An access as its edges see it (09 R270, R275-R283): its word's walk index and engine, class and kinds, home (none while
it is not known), place and extent, the scope of its release, whether it acquires, the copy run that makes it (0: none), the virtual page with
its size through which it was translated (size 0: none). -/
structure Acc where
  walk : Nat
  eng : Engine := .s
  cls : Nat := 0
  kinds : Kinds := { w := true }
  home : Option Home := none
  loc : Nat := 0
  len : Nat := 0
  rel : Option Nat := none
  acq : Bool := false
  run : Nat := 0
  page : Nat × Nat := (0, 0)
deriving DecidableEq, Repr

/-- An access waiting in the request path (09 R279): under whose name it is logged, and what it does. -/
structure PathItem where
  acc : Acc
  who : LogWho := ⟨0, 0, 0⟩
  act : HeldAct
deriving DecidableEq, Repr

/-- A foreign word that the scalar engine has passed and whose accesses may still be to come (09 R275). -/
structure Ahead where
  walk : Nat
  eng : Engine
  cls : Nat
  kinds : Kinds
deriving DecidableEq, Repr

/-- A fence that still holds later accesses (09 R283), or barrier n of a kind that was passed (12 R378): then it holds them behind
the accesses of every participant. -/
structure FenceRec where
  walk : Nat
  pred : Kinds
  succ : Kinds
  scope : Nat
  mask : BitVec 16
  bar : Option (Nat × Nat) := none
deriving DecidableEq, Repr

/-- The states of a remote call slot (10 Table 118). -/
inductive SlotState where
  | free | pending | done | fault | refused | lost
deriving DecidableEq, Repr

/-- A call slot (10 R314). -/
structure CallSlot where
  st : SlotState := .free
  id : Nat := 0
  stamp : Nat := 0
  serai : Option Nat := none
  cause : Nat := 0
  sat : Bool := false
  cached : Bool := false
  items : List Word := []
  count : Nat := 0
  target : Nat := 0
  ctx : Nat := 0
deriving DecidableEq, Repr

/-- The k-registers that SETK writes, as SETK last wrote them (04 R103-R105). -/
structure KRegs where
  slipw : Nat := 0x400
  srseed : Word := 1
  clkpin : Bool := false
  vlen : Nat := 0x100
  vtype : BitVec 11 := 0
  vguard : BitVec 3 := 0
  rrb : BitVec 4 := 0
  assayn : Nat := 0x400
  convoy : Bool := false
  rctl : Bool := false
deriving DecidableEq, Repr

/-- The fault and scheduling k-registers (04 Table 46). -/
structure FRegs where
  faddr : Word := 0
  finfo : BitVec 16 := 0
  fladdr : Word := 0
  cause : Word := 0
  msg : Word := 0
  range : Word := 0
  cut : List Word := []
deriving DecidableEq, Repr

/-! ## Scalar engine -/

/-- The scalar engine of a worker (04). -/
structure Scalar where
  ctr : Counter := {}
  strand : List Word := []
  flight : List InFlight := []
  beat : Nat := 0
  pend : Option ConvoyAtom := none
  loads : List PendLoad := []
  targets : List (Option Word) := [none, none, none, none]
  calls : List Word := []
  landing : Bool := false
  k : KRegs := {}
  f : FRegs := {}
  dcache : List Line := []
  hash : Word := 0
  trig : Bool := false
  launches : Nat := 0
  barrier : Option Nat := none
  win : Nat := 0
  convOn : Bool := false
  convn : Nat := 0
deriving DecidableEq, Repr

/-- The hand-off queues of Table 16 and the walk behind the scalar engine. -/
structure Hand where
  route : List RouteOut := []
  fmtq : List Handed := []
  stampq : List Handed := []
  descq : List Capture := []
  pv : List ParamWrite := []
  pm : List ParamWrite := []
  px : List ParamWrite := []
  trail : List (Nat × Trail) := []
  ret : Option Word := none
deriving DecidableEq, Repr

/-- The request path and what holds it (09 R275-R283). -/
structure Request where
  path : List PathItem := []
  ahead : List Ahead := []
  fences : List FenceRec := []
deriving DecidableEq, Repr

/-! ## Vector, matrix and copy engines -/

/-- A loop set (07 Table 73): its base and, for each dimension, stride and bound. -/
structure LoopSet where
  words : List Word := [0, 1, 1, 1, 1, 1, 1]
deriving DecidableEq, Repr

/-- The eight loop sets at task start (07 R229). -/
def LoopSet.all : List LoopSet := [{}, {}, {}, {}, {}, {}, {}, {}]

/-- An entry of the command window (06 R203): a word, its format word and captures, its operand digest, its zero-first
flag, the base advance of its nest, the toll it was charged. `cont` marks a word that belongs to the entry before it, as
the further words of one nest iteration do. -/
structure WinEntry where
  word : Instr
  fmt : Word
  caps : List Word
  digest : BitVec 32
  zero : Bool
  delta : Int
  toll : Nat
  cont : Bool
deriving DecidableEq, Repr

/-- A nest in progress (02 R45): its loop set, stage count, body words, iteration and place in the body; for a matrix nest
also what its words popped and were charged at the first iteration, by place in the body (R46, 06 R189), and this
iteration's words for the command window, and at a tile-start how many of them stood before it and the generator (06 R203). `stale` says that the body is to be
read again after a resumption (02 R30). -/
structure Nest where
  set : Nat
  stages : Nat
  body : List (BitVec 32)
  trips : Nat
  steps : Nat
  iter : Nat
  pos : Nat
  rrb : Nat
  caps : List (Nat × List Word)
  tolls : List (Nat × Nat) := []
  mark : Option (Nat × BitVec 64) := none
  win : List WinEntry := []
  stale : Bool := false
deriving DecidableEq, Repr

/-- A bound port (05 R151): the queue it was bound to, its side and row cursor; above row 0 also the slot it has claimed
and the order of its claim among those of its side (07 R220). -/
structure Port where
  h : Nat
  q : Handle
  write : Bool
  row : Nat := 0
  slot : Nat := 0
  order : Nat := 0
deriving DecidableEq, Repr

/-- The binding window (05 R140). -/
structure Binding where
  w : Nat := 0
  vb : Nat := 0
  t : Nat := 0
  cb : Nat := 0
  split : Bool := true
deriving DecidableEq, Repr

/-- The vector engine of a worker (05 R138, R176). -/
structure Vec where
  ctr : Counter := {}
  vlen : Nat := 0x100
  vtype : BitVec 11 := 0
  vguard : BitVec 3 := 0
  rrb : Nat := 0
  bind : Binding := {}
  preds : List (BitVec 256) := [0, 0, 0, 0, 0, 0, 0]
  words : List Word := [0, 0, 0, 0]
  ports : List (Option Port) := [none, none, none, none]
  loops : List LoopSet := LoopSet.all
  handles : List (Option Handle) := List.replicate 16 none
  gen : BitVec 64 := 1
  nest : Option Nest := none
deriving DecidableEq, Repr

/-- The command window (06 R203): the generator at its marker, its entries, and the generator states that k.SRSEED set since,
each with the number of entries before it (03 R84). -/
structure Window where
  gen : BitVec 64
  closed : Bool
  entries : List WinEntry
  seeds : List (Nat × BitVec 64) := []
deriving DecidableEq, Repr

/-- The matrix engine of a worker (06 R207). -/
structure Mat where
  ctr : Counter := {}
  loops : List LoopSet := LoopSet.all
  gen : BitVec 64 := 0xA5A5A5A5A5A5A5A4
  pin : Bool := false
  assayN : Nat := 0x400
  count : Nat := 0
  off : Nat := 1
  record : Word := 0
  assayNext : Bool := false
  win : Option Window := none
  replays : Nat := 0
  resv : Nat := 0
  owed : Nat := 0
  asked : Option (Nat × Nat) := none
  paid : Option Nat := none
  toll : Nat := 0
  nest : Option Nest := none
  release : Bool := false
  busy : Nat := 0
deriving DecidableEq, Repr

/-- A copy descriptor's fields (07 Table 74). -/
structure CDesc where
  addr : Word
  kind : Nat
  loop : Bool
  nadv : Bool
  res : Bool
  etype : Nat
  rowlen : Nat
  pitch : Int
  nrows : Nat
  aux : Word
deriving DecidableEq, Repr

/-- A copy word in flight (07 R232, R233): its number, the word with its walk index and address, its next unit, and what its
issue fixed: class, the source descriptor's words, the descriptors' fields, loop set, handle number and handle, claimed
slots. `claimed` says that its claims are made. -/
structure CopyRun where
  id : Nat
  word : Instr
  walk : Nat
  addr : Word
  unit : Nat
  units : Nat
  src : CDesc
  dst : CDesc
  words : List Word := []
  loop : LoopSet
  cls : Nat := 0
  h : Nat := 0
  q : Option Handle := none
  srcSide : Bool := false
  dstSide : Bool := false
  srcSlot : Option Nat := none
  dstSlot : Option Nat := none
  claimed : Bool := true
  aux : Nat := 0
deriving DecidableEq, Repr

/-- Whether an X.BANKGO in flight has passed every check: it waits for its channels (10 R303, R305). -/
def CopyRun.passed (r : CopyRun) : Bool := match r.word with | .xBankgo .. => decide (0 < r.unit) | _ => false

/-- The channels in the mask of an X.BANKGO (10 R303). -/
def CopyRun.channels (r : CopyRun) : List Nat :=
  (List.range 128).filter fun n => ((r.words.getD (n / 64) 0).getLsbD (n % 64))

/-- The copy engine of a worker (07 R248): its words in flight in walk order, and how many it has issued. -/
structure Cpy where
  ctr : Counter := {}
  descs : List (List Word) := List.replicate 16 [0, 0, 0, 0]
  loops : List LoopSet := LoopSet.all
  handles : List (Option Handle) := List.replicate 16 none
  runs : List CopyRun := []
  issued : Nat := 0
  nest : Option Nest := none
deriving DecidableEq, Repr

/-! ## Worker -/

/-- A row of a tile: 1,280 bytes (05 R135). -/
abbrev Row := BitVec 10240

/-- Mode and status word of a tile (05 R137, 03 Table 40). -/
structure TileMeta where
  split : Bool := true
  status : BitVec 6 := 0
deriving DecidableEq, Repr

/-- The tile stores and the side memory (05 R135, R136); a tile number below 32 names t, from 32 on names w - 32. -/
structure Tiles where
  rows : Sparse Row := []
  info : Sparse TileMeta := []
  bad : List (Nat × Nat) := []
  side : Sparse Byte := []
  sideBad : List Nat := []
deriving DecidableEq, Repr

/-- What a launch gives a task (12, 04 Table 46). -/
structure Job where
  handle : Word := 0
  wbAddr : Word := 0
  handler : Bool := false
  ctx : Nat := 0
  inst : Nat := 0
  pos : Nat := 0
  count : Nat := 1
  stages : Nat := 1
  recmode : Nat := 0
  tseq : Nat := 0
  start : Nat := 0
deriving DecidableEq, Repr

/-- Whether a worker's task runs (12 R379-R385, 13 R401). -/
inductive Run where
  | idle | running | parked | ended
deriving DecidableEq, Repr

/-- The last stop of a task (12 R381, R383): its cut header, and the retry memory. -/
structure StopRec where
  header : List Word := []
  cause : Cause := .none
  walk : Nat := 0
  retry : Nat := 0
  code : Nat := 0
deriving DecidableEq, Repr

/-- A translation held in a TLB (08 R255): context, first address and size of the page, its physical address,
permissions, and of its DRAM frames those that are PLAIN with their OWNER, as they stood at the fill. -/
structure TlbEntry where
  ctx : Nat
  va : Nat
  size : Nat
  pa : Nat
  r : Bool
  w : Bool
  x : Bool
  plain : List (Nat × Nat)
deriving DecidableEq, Repr

/-- What a function run for a remote call adds to the scalar state of its runner (10 R317, R318): the call, the page of
its text, when it started. -/
structure Runner where
  call : Nat
  page : Nat
  size : Nat
  started : Nat
deriving DecidableEq, Repr

/-- One core with the worker it holds (01 R13, R20); `text` is its text cache, the grains it holds by number, newest first
(02 R30); `slow` says that throttling holds its clock below 1.6 GHz (06 R186,
01 R14). -/
structure Core where
  run : Run := .idle
  gated : Bool := false
  deferred : Bool := false
  job : Job := {}
  sc : Scalar := {}
  hand : Hand := {}
  req : Request := {}
  vec : Vec := {}
  mat : Mat := {}
  cpy : Cpy := {}
  tiles : Tiles := {}
  handles : List (Option Handle) := List.replicate 16 none
  sides : List (Nat × Side) := []
  seals : Sparse Nat := []
  slots : Sparse CallSlot := []
  stop : StopRec := {}
  lastIssue : Nat := 0
  tlb : List TlbEntry := []
  text : List (Nat × List Byte) := []
  starts : Nat := 0
  runner : Option Runner := none
  checkerBad : Bool := false
  slow : Bool := false
  badCells : List (Nat × Nat) := []
deriving DecidableEq, Repr

/-- A cluster's crew home (07 R209, R213, 08 R255): the resident instance, the tag table by slot, the crew TLB. -/
structure Crew where
  resident : Option Nat := none
  tags : Sparse (BitVec 36) := []
  tlb : List TlbEntry := []
deriving DecidableEq, Repr

/-! ## Waybills and scoreboards -/

/-- A waybill as the device copies it (12 Table 131). -/
structure Waybill where
  kind : Nat := 0
  ctx : Nat := 0
  reissueOk : Bool := false
  convoy : Bool := false
  record : Bool := false
  prio : Nat := 0
  stages : Nat := 0
  deps : Nat := 0
  entry : Word := 0
  shape : List (Nat × Nat) := []
  first : Nat := 0
  count : Nat := 0
  chunk : Nat := 0
  est : Nat := 0
  succ : List Word := []
  strm : List Word := []
  cool : Word := 0
  post : Bool := false
  serai : Nat := 0
  addr : Word := 0
deriving DecidableEq, Repr

/-- The states of Table 137; a free entry is `free`. -/
inductive WbState where
  | free | waiting | held | ready | running | ended
deriving DecidableEq, Repr

/-- What the scheduler keeps of one task of an instance (12 R376, R378, 09 R289): its core and place, what it has
released, how many barriers of each kind it has passed, the convoy windows it has closed. -/
structure TaskRec where
  core : Nat
  pos : Nat
  stage : Nat
  cluster : Nat
  trig : Bool := false
  ended : Bool := false
  crewBars : Nat := 0
  spanBars : Nat := 0
  stageBars : Nat := 0
  closed : Nat := 0
deriving DecidableEq, Repr

/-- A checkpointed crew: cluster, tag table and scratchpad bytes (12 R385). -/
structure CrewSave where
  cluster : Nat
  tags : Sparse (BitVec 36)
  bytes : List Host.Cell
  grains : Sparse (BitVec 32 × Bool)
deriving DecidableEq, Repr

/-- One instance of a waybill (12 R359): its number, issue tick and order, crews, tasks, and its cuts when it stands in
the checkpoint area. -/
structure Inst where
  id : Nat
  j : Nat
  issued : Nat
  order : Nat
  clusters : List Nat
  tasks : List TaskRec
  draining : Bool := false
  saved : Option (List (Nat × Core) × List CrewSave) := none
deriving DecidableEq, Repr

/-- What merges have made of an index (11 R340): for each id they touched its vector, or none when it is removed; for a
LISTS index the list it belongs to; for a GRAPH index the choices made so far, one free value for each merge. -/
structure Version where
  changed : Sparse (Option (List Byte)) := []
  moved : Sparse Nat := []
  choices : List Nat := []
deriving DecidableEq, Repr

/-- A merge under way (11 R340): the log position it merges through, and where its region's pages lie (R328). -/
structure Merge where
  upto : Nat
  ctrl : Nat
  base : Nat
  pages : Nat
deriving DecidableEq, Repr

/-- A flash region (11 R328, Table 119). -/
structure Region where
  valid : Bool := false
  index : Bool := false
  w : Bool := false
  r : Bool := false
  ctx : Nat := 0
  ctrl : Nat := 0
  base : Nat := 0
  pages : Nat := 0
  fill : Nat := 0
  version : Nat := 0
  merged : Nat := 0
  logpos : Nat := 0
  hold : Bool := false
  logcap : Nat := 0x4000
  log : List (List Byte) := []
  cur : Version := {}
  merging : Option Merge := none
deriving DecidableEq, Repr

/-- A flash page (11 R327, R330): its bytes, the reads still to fail, whether its hallmark is bad. -/
structure FlashPage where
  bytes : Sparse Byte := []
  failing : Nat := 0
  badMark : Bool := false
deriving DecidableEq, Repr

/-- Flash (11): pages by channel and page number, and the regions. -/
structure Flash where
  pages : Sparse FlashPage := []
  regions : Sparse Region := []
deriving DecidableEq, Repr

/-- How a search ends (11 R345, R346): the page failure, the slot header, and the writes still to make, the header last. -/
structure Ending where
  why : Option (Cause × Word)
  header : List Word
  parts : List (Word × List Byte)
deriving DecidableEq, Repr

/-- A search in flight (11 R338-R346): its region's number and the region as it stood, its snapshot, query and descriptor
fields, the traversal so far, and its end once that has begun. -/
structure Search where
  region : Nat := 0
  reg : Region := {}
  stale : Bool := false
  version : Nat := 0
  logseq : Nat := 0
  query : List Byte := []
  hopsMax : Nat := 0
  beam : Nat := 0
  k : Nat := 0
  slot : Word := 0
  claim : Nat := 0
  post : Option Nat := none
  cls : Nat := 0
  begun : Bool := false
  pool : List (Int × Nat) := []
  seen : List Nat := []
  expanded : List Nat := []
  hops : Nat := 0
  requeues : Nat := 0
  ending : Option Ending := none
  who : LogWho := ⟨0, 0, 0⟩
deriving DecidableEq, Repr

/-- A stream in flight (11 R351, R352): its record, the entry it stands at, and that entry once pinned: its doublewords, the
frame it pins, where its block lies (in memory, or in a region as it then stood), the bytes of the pieces it has published; of
the present piece the claimed slot number, the bytes read and how many bytes of the slot are written. -/
structure Stream where
  table : Word := 0
  tbytes : Nat := 0
  nent : Nat := 0
  q : Handle := ⟨0, 0, 0⟩
  cls : Nat := 0
  entry : Nat := 0
  held : Option (Word × Word) := none
  frame : Option Nat := none
  block : Nat := 0
  reg : Option Region := none
  copied : List Byte := []
  claim : Option Nat := none
  got : List Byte := []
  put : Nat := 0
  who : LogWho := ⟨0, 0, 0⟩
deriving DecidableEq, Repr

/-- A scoreboard entry (12 R369). `live` says that its launch is recorded (14 R409), `cooled`
that its coolant is granted (13 R397); `after` names the launching core,
instance and walk index whose accesses come first (12 R363), `mode` the mode of the task that launched it (14 R406); `cut` is a forwarded header (12 Table 133). -/
structure Score where
  seq : Nat := 0
  st : WbState := .free
  wb : Waybill := {}
  deps : Nat := 0
  since : Nat := 0
  next : Nat := 0
  again : List Nat := []
  reissues : Nat := 0
  insts : List Inst := []
  done : Nat := 0
  credited : Bool := false
  killed : Option Cause := none
  finalCause : Nat := 0
  key : Word := 0
  msg : Word := 0
  bySerai : Option Nat := none
  home : Nat := 0
  search : Option Search := none
  stream : Option Stream := none
  live : Bool := false
  cooled : Bool := false
  after : Option (Nat × Nat × Nat) := none
  mode : Nat := 0
  cut : List Word := []
deriving DecidableEq, Repr

/-- A serai (12 R364-R367); `bad` says that its ring header could not be read (14 R418). -/
structure Serai where
  ctx : Option Nat := none
  ring : Word := 0
  slots : Nat := 0
  hostOk : Bool := false
  bound : Option Waybill := none
  running : Option Nat := none
  bad : Bool := false
  launched : Nat := 0
deriving DecidableEq, Repr

/-- A device post held at the master (12 R366): serai, source code, payload, the call slot that its delivery frees, and the
acknowledgement that its delivery sends (10 R320, R325), the entry whose report it is (R370). -/
structure Post where
  serai : Nat
  source : Nat
  payload : List Word
  slot : Option (Nat × Nat) := none
  ack : Option (Nat × Nat × Nat) := none
  ends : Option Nat := none
deriving DecidableEq, Repr

/-- The distributors and their registers (12 Table 141); `sources` are posts that wait at their source for room at the master
(R366), `late` register writes of ended tasks (09 R441). -/
structure Sched where
  master : Nat := 0
  electing : Bool := false
  fenced : BitVec 3 := 0
  actbase : BitVec 44 := 0
  ckbase : BitVec 44 := 0
  ckunits : Word := 0
  drainT : BitVec 32 := 0x13880
  wdlimit : Word := 0x4C4B4000
  dropped : Nat := 0
  hmsg : Word := 0
  entries : Sparse Score := []
  serais : Sparse Serai := []
  posts : List Post := []
  sources : List Post := []
  nextInst : Nat := 1
  nextOrder : Nat := 0
  reserved : List Nat := []
  ckUsed : Nat := 0
  late : List PathItem := []
deriving DecidableEq, Repr

/-! ## Pages, records, trust -/

/-- One context (08 Table 76, 10 Table 115, 14 Tables 158, 159). -/
structure Ctx where
  valid : Bool := false
  root : BitVec 30 := 0
  hostio : Bool := false
  lockreq : Bool := false
  keyok : Bool := false
  salt : BitVec 32 := 0
  key : BitVec 256 := 0
  rxhigh : Word := 0
  rftBase : BitVec 49 := 0
  rftCount : Nat := 0
deriving DecidableEq, Repr

/-- An invalidation (08 R261). -/
structure Inval where
  seq : Nat
  ctx : Option Nat
  range : Option (Nat × Nat)
deriving DecidableEq, Repr

/-- The translation registers outside the contexts (08 Table 76). -/
structure Pages where
  ctxs : Sparse Ctx := []
  ftbase : BitVec 44 := 0
  freebase : BitVec 44 := 0
  freelog : BitVec 5 := 0
  freeprod : Nat := 0
  freecons : Word := 0
  invaddr : Nat := 0
  invlen : BitVec 34 := 0
  inviss : Nat := 0
  invdone : Nat := 0
  invals : List Inval := []
  heldInv : List Inval := []
  ringq : List Nat := []
deriving DecidableEq, Repr

/-- The record registers and what the rings remember (14 R404-R411): for each ring the last logged access that a next
one may extend; `waiting` are the accesses that wait at order gates, by who makes them and location (Table 152). -/
structure Records where
  setting : Nat := 0
  ringbase : BitVec 44 := 0
  session : Nat := 0
  newest : Sparse Nat := []
  used : Sparse Nat := []
  owed : List (Nat × List Word) := []
  taken : List (Nat × Nat) := []
  waiting : List (Nat × Nat) := []
  released : Bool := false
deriving DecidableEq, Repr

/-- A host transfer waiting for its turn, and the bytes it has moved (14 R427). -/
structure HostMove where
  host : Word
  dev : Nat
  len : Nat
  ctx : Nat
  serai : Nat
  at_ : Nat := 0
deriving DecidableEq, Repr

/-- A peer entry (14 Table 161). -/
structure Peer where
  valid : Bool := false
  pkg : Nat := 0
  remote : Nat := 0
deriving DecidableEq, Repr

/-- Integrity counters of one die (14 Table 157). -/
structure Counters where
  hmerr : Nat := 0
  ucerr : Nat := 0
  assays : Nat := 0
  corrected : Nat := 0
  recent : List Nat := []
deriving DecidableEq, Repr

/-- An image of the boot flash (14 R428): its digest, the header's digests of the Ed25519 and of the ML-DSA-65 public key,
whether each signature verifies, its security version, whether the header asks to raise the fused minimum. -/
structure Image where
  digest : BitVec 384 := 0
  edKey : BitVec 384 := 0
  mlKey : BitVec 384 := 0
  edSig : Bool := false
  mlSig : Bool := false
  version : Nat := 0
  raise : Bool := false
deriving DecidableEq, Repr

/-- Trust state (14 R416-R432): `fusedEd`, `fusedMl` and `fusedSecret` are fuses, `mailbox` the bytes of the recovery image as
written. -/
structure Trust where
  dies : Sparse Counters := []
  assaylim : Nat := 0x40
  poisoned : Nat := 0
  keys : List Word := [0, 0, 0, 0]
  tdisp : Tdisp := .configUnlocked
  hxhost : Word := 0
  hxdev : Nat := 0
  hxlen : Nat := 0
  moves : List HostMove := []
  explo : BitVec 44 := 0
  exphi : BitVec 44 := 0
  self : BitVec 8 := 0
  peers : Sparse Peer := []
  imageA : Image := {}
  imageB : Image := {}
  fusedEd : BitVec 384 := 0
  fusedMl : BitVec 384 := 0
  fusedSecret : BitVec 256 := 0
  fusedMin : Nat := 0
  released : Bool := false
  recovery : Bool := false
  digest : BitVec 384 := 0
  version : Nat := 0
  mailbox : List Host.Cell := []
  powered : Bool := true
deriving DecidableEq, Repr

/-- An attestation report (14 R429): nonce, image digest and version, the TDISP and IDE states, SETTING, HOSTIO and LOCKREQ of
every context. -/
structure Attest where
  nonce : BitVec 256
  digest : BitVec 384
  version : Nat
  tdisp : Tdisp
  ide : Nat
  setting : Nat
  bits : List (Bool × Bool)
deriving DecidableEq, Repr

/-- What the package sends to the host and to peers, oldest first (14 R424, R426, R429, R432): model's own. -/
inductive Sent where
  | read (pa : Nat) (bytes : List Byte) (poisoned : Bool)
  | unsupported (off : Nat)
  | report (r : Attest) (edSig mlSig : Nat)
  | peer (pkg pa : Nat) (op : PeerOp)
  | refusedPeer (pa : Nat)
  | answered (pa : Nat) (bytes : List Byte) (marks : List (BitVec 32 × Bool))
deriving DecidableEq, Repr

/-! ## Tolls -/

/-- A toll request at a crew bucket's arbiter (06 R190): core, toll, whether it is a reservation, since when. -/
structure TollReq where
  core : Nat
  toll : Nat
  resv : Bool
  since : Nat
deriving DecidableEq, Repr

/-- A crew toll bucket (06 Table 66). -/
structure Bucket where
  level : Int := 0x3D090
  cap : Nat := 0x3D090
  rate : Nat := 0x3E8
  waiting : List TollReq := []
deriving DecidableEq, Repr

/-- A bank-unit command waiting at its stack (10 R312): the unit, its toll, how it starts, the call it answers, its
window, and the class and worker of its accesses. -/
structure BankCmd where
  unit : Nat
  toll : Nat
  entry : Nat
  keep : Bool
  line : Nat
  call : Option Nat
  window : List (Nat × Nat) := []
  cls : Nat := 0
  who : LogWho := ⟨0, 0, 0⟩
deriving DecidableEq, Repr

/-- A stack toll bucket (10 Table 107). -/
structure Stack where
  level : Int := 0xC350
  cap : Nat := 0xC350
  rate : Nat := 0x138
  permit : Nat := 0x20
  waiting : List BankCmd := []
deriving DecidableEq, Repr

/-! ## Bank units and channels -/

/-- The architectural state of a bank unit that a remote call sets aside (10 Table 101, R307). -/
structure UnitState where
  h : List (BitVec 512) := List.replicate 8 0
  acc : List (BitVec 32) := List.replicate 64 0
  mode : Bool := false
  g : Bool := false
  k : BitVec 32 := 0
  rcur : BitVec 24 := 0
  wcur : BitVec 24 := 0
  ports : Sparse (BitVec 512) := []
deriving DecidableEq, Repr

/-- A command of a bank unit in progress (10 R296): when it started, its window, its agent and class, the call it
answers. -/
structure UnitRun where
  started : Nat
  window : List (Nat × Nat)
  call : Option Nat
  cls : Nat
  who : LogWho
deriving DecidableEq, Repr

/-- A bank unit (10 R293). An upload stands with the number of commands that arrived before it and wait for the unit
(R299). -/
structure BankUnit where
  st : UnitState := {}
  aside : Option UnitState := none
  sat : Bool := false
  pc : Nat := 0
  rep : Option Nat := none
  store : List (BitVec 32) := []
  entries : List (Option Nat) := []
  run : Option UnitRun := none
  uploads : List (Nat × List (BitVec 32)) := []
deriving DecidableEq, Repr

/-- The states of a channel's timetable (10 R306). -/
inductive ChanState where
  | empty | loaded | armed | running | fault
deriving DecidableEq, Repr

/-- A DRAM channel's timetable and status (10 R300-R306). `owner` is the X.BANKGO that armed it, by task and walk index;
`window` lists virtual and physical addresses of frames in context `ctx`, and `revoked` says that an invalidation covers
one; `nominal` is N(i), `began` when the entry started, `ended` the end of the one before, `doneAt` when a command last
ended, `lastCmd` the tick at which one last issued. -/
structure Chan where
  st : ChanState := .empty
  table : List Word := []
  window : List (Nat × Nat) := []
  entry : Nat := 0
  group : Nat := 0
  cause : Nat := 0
  slip : Nat := 0
  passes : Nat := 0
  forced : Nat := 0
  start : Nat := 0
  nominal : Nat := 0
  began : Option Nat := none
  ended : Nat := 0
  doneAt : Nat := 0
  lastCmd : Option Nat := none
  ctx : Nat := 0
  revoked : Bool := false
  lastRefresh : Nat := 0
  stopping : Bool := false
  owner : Option (Nat × Nat) := none
  goal : Nat := 0
  cls : Nat := 0
  who : LogWho := ⟨0, 0, 0⟩
deriving DecidableEq, Repr

/-! ## Remote calls -/

/-- A call on its way or waiting at its target (10 R315-R317); `behind` are the search hops that were queued before it at its
traversal core's controller: entry, launch, hop (11 R348). -/
structure Call where
  caller : Nat
  slot : Nat
  inst : Nat
  ctx : Nat
  id : Nat
  label : Nat
  func : Nat
  stamp : Nat
  payload : List Word
  cls : Nat
  kind : Nat
  target : Nat
  va : Word
  pa : Nat
  page : Nat × Nat
  started : Option Nat := none
  who : LogWho := ⟨0, 0, 0⟩
  behind : List (Nat × Nat × Nat) := []
deriving DecidableEq, Repr

/-- A reply on its way to its caller (10 R319-R325). -/
structure Reply where
  caller : Nat
  slot : Nat
  inst : Nat
  id : Nat
  stamp : Nat
  st : SlotState
  cause : Nat
  sat : Bool
  cached : Bool
  items : List Word
  count : Nat
  sent : Nat
  target : Nat
deriving DecidableEq, Repr

/-- An entry of a reply cache (10 R320): target, key, its reply when stored, the issue stamp of the latest attempt. -/
structure CacheEntry where
  target : Nat
  ctx : Nat
  id : Nat
  reply : Option (SlotState × Nat × Bool × List Word × Nat)
  stamp : Nat
deriving DecidableEq, Repr

/-- A traversal core (11 R348): the context of the last call. Its working memory is part of the byte map. -/
structure Traversal where
  lastCtx : Option Nat := none
deriving DecidableEq, Repr

/-- Everything that remote calls keep outside cores and units (10 R314-R326). -/
structure Remote where
  calls : Sparse Call := []
  replies : Sparse Reply := []
  cache : List CacheEntry := []
  acks : Sparse (Nat × Nat × Nat) := []
  next : Nat := 0
  traversal : Sparse Traversal := []
deriving DecidableEq, Repr

/-- The bank side of the package (10); `refilled` counts the refills of all toll buckets so far (06 R188, log 8). -/
structure Banks where
  units : Sparse BankUnit := []
  chans : Sparse Chan := []
  stackTab : Sparse Stack := []
  refilled : Nat := 0
deriving DecidableEq, Repr

/-! ## Coolant -/

/-- A zone (13 Table 143) and the ticks since when its conditions hold (R400, R401). -/
structure Zone where
  state : Nat := 0
  dry : Bool := false
  flow : BitVec 16 := 0
  valve : Nat := 0xFF
  t0 : BitVec 16 := 0
  t1 : BitVec 16 := 0
  t2 : BitVec 16 := 0
  t3 : BitVec 16 := 0
  held : Bool := false
  prio : Nat := 0
  maxf : Nat := 0
  minf : Nat := 0
  floor : Nat := 0x14
  holder : Word := 0
  hotSince : Option Nat := none
  coolSince : Option Nat := none
  tempArmed : Bool := true
  tripArmed : Bool := true
  lowSince : Option Nat := none
  okSince : Option Nat := none
  flowArmed : Bool := true
  tripped : Bool := false
  seq0 : Nat := 0
  wetSince : Option Nat := none
  fails : Nat := 0
  target : Nat := 0x14
deriving DecidableEq, Repr

/-- The coolant controller (13 Table 144, R403). -/
structure Cool where
  zones : Sparse Zone := []
  ttrip : BitVec 16 := 0x690
  twarn : BitVec 16 := 0x5F0
  budget : Nat := 0x960
  inlett : BitVec 16 := 0
  pkgflow : Nat := 0
  pdrop : Bool := false
  lowin : Bool := false
  limit : Bool := false
  inp : List (BitVec 16) := [0, 0, 0]
  outp : List (BitVec 16) := [0, 0, 0]
  badSince : Option Nat := none
  lowFlowSince : Option Nat := none
  goodSince : Option Nat := none
  measured : Option Nat := none
  valved : Option Nat := none
deriving DecidableEq, Repr

/-! ## Agenda -/

/-- Which agent moves (log 1): an engine of a core, a copy word or a load in flight by its place among those of the core, a bank
unit, or one of the steps without an encoding. -/
inductive Turn where
  | engine (e : Engine)
  | copy (n : Nat)
  | load (n : Nat)
  | unit (u : Nat)
  | event (i : Instr)
deriving DecidableEq, Repr

/-- One place of the agenda: the core concerned, how many stamp ticks pass first, and who moves. -/
structure Slot where
  core : Nat
  dt : Nat
  turn : Turn
deriving DecidableEq, Repr

end Sys2Proof.Machine
end

