-- ==== Sys2Proof/Machine/State.lean ====
section
/-! DEFINITION. The state of the whole package, the machine after reset, and the reasons a step can stop. -/

namespace Sys2Proof.Machine

/-- The package (INVENTORY.md, State). Fields from `agenda` to `fresh` are the model's own (logs 1, 4). -/
structure State where
  stamp : Nat
  mem : List Host.Cell
  grains : Sparse (BitVec 32 × Bool)
  host : List Host.Cell
  cores : Sparse Core
  crews : Sparse Crew
  buckets : Sparse Bucket
  sched : Sched
  pages : Pages
  records : Records
  trust : Trust
  banks : Banks
  remote : Remote
  flash : Flash
  cool : Cool
  sent : List Sent
  agenda : List Slot
  cur : Nat
  curUnit : Nat
  pick : Nat
  stalled : Bool
  fresh : Nat
deriving DecidableEq, Repr

/-- The machine after power-on reset, before Fosyn has released it (01 R15, R28, 14 R428, R430; logs 2, 3, 18). -/
def State.reset : State where
  stamp := 0
  mem := []
  grains := []
  host := []
  cores := []
  crews := []
  buckets := []
  sched := {}
  pages := {}
  records := {}
  trust := {}
  banks := {}
  remote := {}
  flash := {}
  cool := {}
  sent := []
  agenda := []
  cur := 0
  curUnit := 0
  pick := 0
  stalled := false
  fresh := 0

/-- Why a step stops the model. Both are raised only where the spec gives the word no effect: safe. -/
inductive Fault where
  /-- Raised by a word of an engine executed on a core whose task does not run (12 R379, 01 R20). Safe: the hardware
  executes no word there. -/
  | noTask
  /-- Raised by a move word or a port effect executed on a bank unit that runs no command (10 R293). Safe: the unit
  executes no word there. -/
  | noCommand
deriving DecidableEq, Repr

/-- Why a step is refused. -/
inductive Refusal where
  /-- Raised by an arm of exec whose instruction has no meaning yet. Safe: the model stops. -/
  | notModelled (mnemonic : String)
deriving DecidableEq, Repr

end Sys2Proof.Machine
end

