-- ==== Sys2Proof/Machine/Mem.lean ====
section
/-! DEFINITION. Memory as one byte map over locations: the 44-bit physical space and, behind it, the crew scratchpads.
Hallmarks are kept as their mismatch against the bytes: 0 is a good hallmark (14 R416, R417, log 2). -/

namespace Sys2Proof.Machine

/-! ## Places -/

/-- What stands at a location (01 Table 11, 07 R208). -/
inductive Place where
  | dram | kv | pad | reg | peer | host | trav | reserved
deriving DecidableEq, Repr

/-- The place of a location (01 R18). -/
def place (loc : Nat) : Place :=
  if loc < Config.dramEnd then .dram
  else if loc < Config.kvEnd then .kv
  else if loc < Config.regBase then .reserved
  else if loc < Config.peerBase then .reg
  else if loc < Config.regEnd then .peer
  else if loc < Config.hostBase then .reserved
  else if loc < Config.padBase then .host
  else if loc < Config.travBase then .pad
  else .trav

/-- The location of a crew offset of cluster c (07 R208). -/
def padLoc (c off : Nat) : Nat := Config.padBase + c * Config.padSize + off

/-- The location of a local address of traversal core t (11 R348). -/
def travLoc (t a : Nat) : Nat := Config.travBase + t * 0x40000 + a

/-- The cluster of a core coordinate: 0-3 D0, 4-7 D1, 8 D2 (06 R188). -/
def clusterOf (core : Nat) : Nat := core / 32

/-- The die of a cluster, of a core, of a DRAM channel and of a bank unit (01 Table 10). -/
def dieOfCluster (c : Nat) : Nat := if c < 4 then 0 else if c < 8 then 1 else 2
def dieOf (core : Nat) : Nat := dieOfCluster (clusterOf core)
def dieOfChannel (c : Nat) : Nat := if c < 64 then 0 else 1

/-- The channel of a DRAM address (01 R18) and the bank unit that serves it (10 R292). -/
def channelOf (pa : Nat) : Nat := pa / 2 ^ 33
def unitOf (pa : Nat) : Nat := pa / 2 ^ 30

/-- The home of a location of this package (09 R271); a peer's home needs the peer table (State.home). -/
def homeOf (loc : Nat) : Home :=
  match place loc with
  | .dram => .channel (channelOf loc)
  | .kv => .kv
  | .pad => .crew ((loc - Config.padBase) / Config.padSize)
  | .reg => .reg
  | .peer => .peer 0 0
  | .host => .host
  | .trav => .trav ((loc - Config.travBase) / 0x40000)
  | .reserved => .reg

/-- Where a peer page leads: package and remote address (14 R432). -/
def State.peerTarget (s : State) (loc : Nat) : Nat × Nat :=
  let p : Peer := Sparse.get {} s.trust.peers ((loc - Config.peerBase) / 2 ^ 19)
  (p.pkg, p.remote * 2 ^ 19 + (loc - Config.peerBase) % 2 ^ 19)

/-- The homes of another package by number: its channels, its KV store, the rest (09 R271). -/
def peerHome (pa : Nat) : Nat :=
  match place pa with
  | .dram => channelOf pa
  | .kv => 128
  | _ => 129

/-- The home of a location (09 R271). -/
def State.home (s : State) (loc : Nat) : Home :=
  if place loc = .peer then .peer (s.peerTarget loc).1 (peerHome (s.peerTarget loc).2) else homeOf loc

/-- The die on which a home lies or to which it attaches (09 R271); none outside the package. -/
def Home.die : Home → Option Nat
  | .channel c => some (dieOfChannel c)
  | .crew c => some (dieOfCluster c)
  | .kv => some 2
  | .reg => some 0
  | .host => none
  | .peer .. => none
  | .trav t => some (if t < 8 then 0 else 1)
  | .region _ d => some d

/-- Whether a home lies in another package or behind the host link (09 R275). -/
def Home.outside (h : Home) : Bool := h.die.isNone

/-- Whether a home lies within the reach of a scope for a worker on a core (09 Table 85). -/
def reaches (scope core : Nat) (a : Home) : Bool :=
  match scope with
  | 0 => false
  | 1 => a == .crew (clusterOf core)
  | 2 => a.die == some (dieOf core)
  | 3 => a.die.isSome
  | _ => true

/-- Whether an edge between two homes is in force at a scope (09 R276). -/
def inReach (scope core : Nat) (a b : Home) : Bool := a == b || reaches scope core a && reaches scope core b

/-! ## Bytes -/

/-- The memory form: addresses strictly rising, no listed byte equal to what an unlisted address reads as (log 2). -/
def Memory.wf (m : List Host.Cell) : Bool := Sparse.wf (0 : Byte) m

/-- One byte of memory; an unlisted byte reads as 0 (log 2). -/
def State.byte (s : State) (loc : Nat) : Byte := Sparse.get (0 : Byte) s.mem loc

/-- Bytes put at consecutive addresses of a byte map. -/
def putBytes : List Host.Cell → Nat → List Byte → List Host.Cell
  | m, _, [] => m
  | m, a, b :: bs => putBytes (Sparse.putD (0 : Byte) m a b) (a + 1) bs

/-- n bytes from consecutive addresses of a byte map. -/
def getBytes (m : List Host.Cell) (a : Nat) : Nat → List Byte
  | 0 => []
  | n + 1 => Sparse.get (0 : Byte) m a :: getBytes m (a + 1) n

/-- The number little-endian bytes spell (00 R1). -/
def leNat : List Byte → Nat
  | [] => 0
  | b :: bs => b.toNat + 256 * leNat bs

/-- n little-endian bytes of a number (00 R1). -/
def leBytes : Nat → Nat → List Byte
  | 0, _ => []
  | n + 1, x => BitVec.ofNat 8 x :: leBytes n (x / 256)

/-- n bytes of memory. -/
def State.bytes (s : State) (loc n : Nat) : List Byte := getBytes s.mem loc n

/-- A little-endian doubleword of memory. -/
def State.dword (s : State) (loc : Nat) : Word := word (leNat (s.bytes loc 8))

/-! ## Grains -/

/-- The grains that n bytes from loc touch. -/
def grainsOf (loc n : Nat) : List Nat :=
  if n = 0 then [] else (List.range ((loc + n - 1) / 256 - loc / 256 + 1)).map (· + loc / 256)

/-- Mismatch and poison of a grain. -/
def State.grain (s : State) (g : Nat) : BitVec 32 × Bool := Sparse.get (0, false) s.grains g

/-- What a verifying read of n bytes finds: HALLMARK before UNCORR (08 R257, 14 R418). -/
def State.verify (s : State) (loc n : Nat) : Option Cause :=
  let gs := (grainsOf loc n).map s.grain
  if gs.any (fun g => g.1 != 0 && !g.2) then some .hallmark
  else if gs.any (·.2) then some .uncorr
  else none

/-- The grains that a write of n bytes covers whole get a fresh hallmark and lose their poison (14 R417). -/
def freshGrains (gs : Sparse (BitVec 32 × Bool)) (loc n : Nat) : Sparse (BitVec 32 × Bool) :=
  (grainsOf loc n).foldl
    (fun acc g => if decide (loc ≤ 256 * g) && decide (256 * g + 256 ≤ loc + n) then Sparse.putD (0, false) acc g (0, false)
      else acc) gs

/-- Bytes written to device memory with the hallmark rule of R417: a partly written grain keeps its mismatch and its
poison. -/
def State.write (s : State) (loc : Nat) (bs : List Byte) : State :=
  { s with mem := putBytes s.mem loc bs, grains := freshGrains s.grains loc bs.length }

/-- A doubleword written to device memory. -/
def State.writeWord (s : State) (loc : Nat) (v : Word) : State := s.write loc (leBytes 8 v.toNat)

/-- Grain g takes another grain's stored hallmark state (07 R236). -/
def State.setGrain (s : State) (g : Nat) (v : BitVec 32 × Bool) : State :=
  { s with grains := Sparse.putD (0, false) s.grains g v }

/-! ## CRC-32C (14 R416) -/

/-- One bit of the reflected CRC-32C. -/
def crcBit (r : Nat) : Nat := if r % 2 = 1 then (r / 2) ^^^ 0x82F63B78 else r / 2

/-- One byte of the reflected CRC-32C. -/
def crcByte (r : Nat) (b : Byte) : Nat :=
  crcBit (crcBit (crcBit (crcBit (crcBit (crcBit (crcBit (crcBit (r ^^^ b.toNat))))))))

/-- The CRC-32C of bytes in ascending address order. -/
def crc32c (bs : List Byte) : BitVec 32 := BitVec.ofNat 32 (bs.foldl crcByte 0xFFFFFFFF ^^^ 0xFFFFFFFF)

/-! ## Cores -/

/-- The core with a key; keys from 512 on are the runners of remote functions (10 R317). -/
def State.core (s : State) (k : Nat) : Core := Sparse.get {} s.cores k

/-- Core k becomes c. -/
def State.setCore (s : State) (k : Nat) (c : Core) : State := { s with cores := s.cores.put k c }

/-- The current core. -/
def State.here (s : State) : Core := s.core s.cur

/-- The current core becomes c. -/
def State.setHere (s : State) (c : Core) : State := s.setCore s.cur c

/-- The key of the call runner of a core, and of a traversal core. -/
def runnerKey (core : Nat) : Nat := 512 + core
def traversalKey (t : Nat) : Nat := 1024 + t

/-- A crew, its toll bucket, a stack, a unit, a channel, a context, a zone, an entry, a serai, a region. -/
def State.crew (s : State) (c : Nat) : Crew := Sparse.get {} s.crews c
def State.setCrew (s : State) (c : Nat) (v : Crew) : State := { s with crews := s.crews.put c v }
def State.bucket (s : State) (c : Nat) : Bucket := Sparse.get {} s.buckets c
def State.setBucket (s : State) (c : Nat) (v : Bucket) : State := { s with buckets := s.buckets.put c v }
def State.stack (s : State) (k : Nat) : Stack := Sparse.get {} s.banks.stackTab k
def State.setStack (s : State) (k : Nat) (v : Stack) : State :=
  { s with banks := { s.banks with stackTab := s.banks.stackTab.put k v } }
def State.unit (s : State) (u : Nat) : BankUnit := Sparse.get {} s.banks.units u
def State.setUnit (s : State) (u : Nat) (v : BankUnit) : State :=
  { s with banks := { s.banks with units := s.banks.units.put u v } }
def State.chan (s : State) (c : Nat) : Chan := Sparse.get {} s.banks.chans c
def State.setChan (s : State) (c : Nat) (v : Chan) : State :=
  { s with banks := { s.banks with chans := s.banks.chans.put c v } }
def State.ctx (s : State) (n : Nat) : Ctx := Sparse.get {} s.pages.ctxs n
def State.setCtx (s : State) (n : Nat) (v : Ctx) : State :=
  { s with pages := { s.pages with ctxs := s.pages.ctxs.put n v } }
def State.zone (s : State) (z : Nat) : Zone := Sparse.get {} s.cool.zones z
def State.setZone (s : State) (z : Nat) (v : Zone) : State :=
  { s with cool := { s.cool with zones := s.cool.zones.put z v } }
def State.score (s : State) (e : Nat) : Score := Sparse.get {} s.sched.entries e
def State.setScore (s : State) (e : Nat) (v : Score) : State :=
  { s with sched := { s.sched with entries := s.sched.entries.put e v } }
def State.serai (s : State) (n : Nat) : Serai := Sparse.get {} s.sched.serais n
def State.setSerai (s : State) (n : Nat) (v : Serai) : State :=
  { s with sched := { s.sched with serais := s.sched.serais.put n v } }
def State.region (s : State) (r : Nat) : Region := Sparse.get {} s.flash.regions r
def State.setRegion (s : State) (r : Nat) (v : Region) : State :=
  { s with flash := { s.flash with regions := s.flash.regions.put r v } }
def State.counters (s : State) (d : Nat) : Counters := Sparse.get {} s.trust.dies d
def State.setCounters (s : State) (d : Nat) (v : Counters) : State :=
  { s with trust := { s.trust with dies := s.trust.dies.put d v } }

/-- One HALLMARK or uncorrectable event counted on a die (14 R418). -/
def State.countBad (s : State) (d : Nat) (c : Cause) : State :=
  match c with
  | .hallmark => s.setCounters d { s.counters d with hmerr := (s.counters d).hmerr + 1 }
  | .uncorr => s.setCounters d { s.counters d with ucerr := (s.counters d).ucerr + 1 }
  | _ => s

/-- What a write of n bytes meets in the grains that it covers in part (14 R417): a bad one, or a poisoned one. -/
def State.partBad (s : State) (loc n : Nat) : Option Cause :=
  let part := fun (g : Nat) => !(decide (loc ≤ 256 * g) && decide (256 * g + 256 ≤ loc + n))
  let gs := ((grainsOf loc n).filter part).map s.grain
  if gs.any (fun g => g.1 != 0 && !g.2) then some .hallmark
  else if gs.any (·.2) then some .uncorr
  else none

/-- A write whose word has retired and that meets such a grain is counted once, on the die of its home (14 R417, R418). -/
def State.countMet (s : State) (loc n : Nat) : State :=
  match (homeOf loc).die, s.partBad loc n with
  | some d, some c => s.countBad d c
  | _, _ => s

/-- n tolls charged to the stack of a channel, which never wait (10 R310, R311). -/
def State.chargeStack (s : State) (chan n : Nat) : State :=
  let k := s.stack (chan / 8)
  s.setStack (chan / 8) { k with level := k.level - n }

/-- An ordinary access of n bytes to DRAM charged, one toll for each grain (10 Table 110). -/
def State.chargeDram (s : State) (loc n : Nat) : State :=
  if place loc = .dram then s.chargeStack (channelOf loc) (grainsOf loc n).length else s

/-- The posts and credits discarded (12 Table 141). -/
def State.dropPost (s : State) : State := { s with sched := { s.sched with dropped := s.sched.dropped + 1 } }

end Sys2Proof.Machine
end

