-- ==== Sys2Proof/Machine/Rings.lean ====
section
/-! DEFINITION. The record rings (14 R404-R411): ring descriptors and chunks in memory, the order manifest that a home
writes in record mode, the order gate it is in replay, and the dispatch records. -/

namespace Sys2Proof.Machine

/-- A ring's descriptor as memory holds it (14 Table 154). -/
structure Ring where
  at_ : Nat
  base : Nat
  log : Nat
  prod : Nat
  cons : Nat
  usable : Bool
deriving DecidableEq, Repr

/-- The descriptor of ring r (14 R405). -/
def State.ring (s : State) (r : Nat) : Ring :=
  let a := s.records.ringbase.toNat + 32 * r
  let b := (s.dword a).toNat
  let l := (s.dword (a + 8)).toNat
  { at_ := a, base := fld b 0 44, log := l, prod := (s.dword (a + 16)).toNat, cons := (s.dword (a + 24)).toNat,
    usable := decide (fld b 44 20 = 0) && decide (fld b 0 12 = 0) && decide (9 ≤ l) && decide (l ≤ 27) }

/-- Free chunks of a ring; an unusable ring has none (14 R405). -/
def Ring.room (r : Ring) : Nat := if r.usable then 2 ^ r.log - (r.prod - r.cons) else 0

/-- Where chunk k lies (14 R405). -/
def Ring.chunkAt (r : Ring) (k : Nat) : Nat := r.base + 8 * (k % 2 ^ r.log)

/-- A doubleword of a ring or of its descriptor written: charged (10 R311), and a bad grain met counted (R418). -/
def State.ringWrite (s : State) (loc : Nat) (v : Word) : State := ((s.countMet loc 8).chargeDram loc 8).writeWord loc v

/-- One chunk written at PROD, and PROD advanced. -/
def State.pushChunk (s : State) (n : Nat) (v : Word) : State :=
  let r := s.ring n
  (s.ringWrite (r.chunkAt r.prod) v).ringWrite (r.at_ + 16) (word (r.prod + 1))

/-- The ring of a home and whether the access is the KV home's (14 R405). -/
def ringOf (h : Home) : Option (Nat × Bool) :=
  match h with
  | .channel c => some (c, false)
  | .crew c => some (128 + c, false)
  | .kv => some (136, true)
  | .reg => none
  | .host => none
  | .peer .. => none
  | .trav _ => none
  | .region .. => none

/-- Bits [61:32] of an order chunk: KVH, WHERE, TSEQ (14 Table 155). -/
def orderKey (who : LogWho) (kvh : Bool) : Nat :=
  (if kvh then 2 ^ 61 else 0) + fld who.whr 0 9 * 2 ^ 52 + fld who.tseq 0 20 * 2 ^ 32

/-- One logged access written into the order manifest of ring n (14 R407). -/
def State.logOne (s : State) (who : LogWho) (n : Nat) (kvh : Bool) : State :=
  let r := s.ring n
  let key := orderKey who kvh
  let last := r.chunkAt (r.prod - 1)
  let old := (s.dword last).toNat
  let s' :=
    if s.records.newest.get 0 n = key + 1 ∧ r.cons < r.prod ∧ fld old 0 32 < 0xFFFFFFFF then s.ringWrite last (word (old + 1))
    else s.pushChunk n (word (key + 1))
  { s' with records := { s'.records with newest := s'.records.newest.put n (key + 1) } }

/-- The order gate of ring n meets one access in replay (14 R410): it passes and uses one count, or it waits. -/
def State.gateOne (s : State) (who : LogWho) (n : Nat) (kvh : Bool) : Option State :=
  let r := s.ring n
  if s.records.released then some s
  else if !r.usable || decide (r.prod ≤ r.cons) then none
  else
    let c := (s.dword (r.chunkAt r.cons)).toNat
    if fld c 62 2 = 1 then some s
    else if fld c 62 2 ≠ 0 then none
    else if fld c 32 30 * 2 ^ 32 ≠ orderKey who kvh then none
    else
      let used := s.records.used.get 0 n + 1
      if used < fld c 0 32 then some { s with records := { s.records with used := s.records.used.put n used } }
      else
        let s' := s.ringWrite (r.at_ + 24) (word (r.cons + 1))
        some { s' with records := { s'.records with used := s'.records.used.put n 0 } }

/-- Logs or gates the parts of one access of n bytes at loc, one part for each grain (14 R406, R410): none while the order
gate holds it. -/
def State.ordered (s : State) (who : LogWho) (loc n : Nat) : Option State :=
  if who.mode = 0 then some s
  else
    match ringOf (homeOf loc) with
    | none => some s
    | some (r, kvh) =>
      (grainsOf loc n).foldl
        (fun acc _ => acc.bind fun t => if who.mode = 1 then some (t.logOne who r kvh) else t.gateOne who r kvh) (some s)

/-- Access `who` to a location waits at its order gate, or no longer does (14 Table 152). -/
def State.atGate (s : State) (who loc : Nat) : Bool := s.records.waiting.contains (who, loc)
def State.waitGate (s : State) (who loc : Nat) : State :=
  { s with records := { s.records with waiting := (who, loc) :: s.records.waiting } }
def State.passGate (s : State) (who loc : Nat) : State :=
  { s with records := { s.records with waiting := s.records.waiting.erase (who, loc) } }
def State.leaveGates (s : State) (who : Nat) : State :=
  { s with records := { s.records with waiting := s.records.waiting.filter fun p => p.1 != who } }

/-- The names under which a bank unit, the unit that serves a scoreboard entry and the host's transfers wait at order gates; a
core waits under its own number. -/
def unitGate (u : Nat) : Nat := 2048 + u
def entryGate (e : Nat) : Nat := 4096 + e
def hostGate : Nat := 65536

/-- The accesses held in request paths: of cores, of checkpoints, of ended tasks (09 R279, R441). -/
def State.heldItems (s : State) : List PathItem :=
  s.cores.flatMap (fun p => p.2.req.path) ++ s.sched.late ++ s.sched.entries.flatMap fun p =>
    p.2.insts.flatMap fun i => match i.saved with
      | some (cs, _) => cs.flatMap fun q => q.2.req.path
      | none => []

/-- Chunks of ring r that a held access has reserved (14 R408). -/
def PathItem.chunks (p : PathItem) (r : Nat) : Nat :=
  if p.who.mode = 1 ∧ (p.acc.home.bind ringOf).map (·.1) = some r then (grainsOf p.acc.loc p.acc.len).length else 0

/-- Whether the ring of an access has a chunk for each of its parts beside those that held accesses have reserved (14 R408). -/
def State.logRoom (s : State) (who : LogWho) (loc n : Nat) : Bool :=
  who.mode != 1 ||
  match ringOf (homeOf loc) with
  | none => true
  | some (r, _) => decide ((grainsOf loc n).length + (s.heldItems.map (·.chunks r)).sum ≤ (s.ring r).room)

/-! ## Dispatch records -/

/-- The header chunk of a dispatch record (14 R409). -/
def recordHead (type len stamp : Nat) : Word := word (type * 2 ^ 56 + len * 2 ^ 54 + stamp % 2 ^ 54)

/-- A dispatch record written to the ring of die d, or kept until room appears (14 R408, R409). -/
def State.dispatch (s : State) (d type : Nat) (chunks : List Word) : State :=
  let all := recordHead type chunks.length s.stamp :: chunks
  if s.records.owed.any (fun p => p.1 == 137 + d) || decide ((s.ring (137 + d)).room < all.length) then
    { s with records := { s.records with owed := s.records.owed ++ [(137 + d, all)] } }
  else all.foldl (fun t c => t.pushChunk (137 + d) c) s

/-- Records kept for want of room, written as far as room reaches. -/
def State.flushOwed (s : State) : State :=
  s.records.owed.foldl
    (fun t p =>
      if t.records.owed.any (fun q => q.1 == p.1) || decide ((t.ring p.1).room < p.2.length) then
        { t with records := { t.records with owed := t.records.owed ++ [p] } }
      else p.2.foldl (fun u c => u.pushChunk p.1 c) t)
    { s with records := { s.records with owed := [] } }

/-- Whether die d's distributor is held for want of room in its ring (14 R408): a record waits for room, or, while recording,
there is none. -/
def State.distHeld (s : State) (d : Nat) : Bool :=
  s.records.owed.any (fun p => p.1 == 137 + d) || s.records.setting == 1 && decide ((s.ring (137 + d)).room = 0)

/-- The first record of ring n from chunk k on that satisfies p: its place, TYPE and chunks. A TYPE that Table 156 lacks
ends the ring (14 R409). -/
def findRecord (s : State) (n : Nat) (r : Ring) (p : Nat → List Word → Bool) : Nat → Nat → Option (Nat × Nat × List Word)
  | 0, _ => none
  | fuel + 1, k =>
    if r.prod ≤ k then none
    else
      let h := (s.dword (r.chunkAt k)).toNat
      let type := fld h 56 8
      let len := fld h 54 2
      if type = 0 ∨ 11 < type then none
      else
        let body := (List.range len).map fun i => s.dword (r.chunkAt (k + 1 + i))
        if p type body && !s.records.taken.contains (n, k) then some (k, type, body)
        else findRecord s n r p fuel (k + 1 + len)

/-- The next unconsumed record of die d's ring that satisfies p (14 R411). -/
def State.nextRecord (s : State) (d : Nat) (p : Nat → List Word → Bool) : Option (Nat × Nat × List Word) :=
  let r := s.ring (137 + d)
  if r.usable then findRecord s (137 + d) r p (r.prod - r.cons) r.cons else none

/-- CONS moved past the records at the front that are consumed or that replay does not enforce (14 R411). -/
def State.trimRing (s : State) (d : Nat) : Nat → State
  | 0 => s
  | fuel + 1 =>
    let n := 137 + d
    let r := s.ring n
    if !r.usable || decide (r.prod ≤ r.cons) then s
    else
      let h := (s.dword (r.chunkAt r.cons)).toNat
      let type := fld h 56 8
      if s.records.taken.contains (n, r.cons) || type == 3 || type == 4 || type == 5 || type == 9 then
        State.trimRing
          { (s.ringWrite (r.at_ + 24) (word (r.cons + 1 + fld h 54 2))) with
            records := { s.records with taken := s.records.taken.erase (n, r.cons) } } d fuel
      else s

/-- Record k of die d's ring is consumed. -/
def State.takeRecord (s : State) (d k : Nat) : State :=
  let r := s.ring (137 + d)
  State.trimRing { s with records := { s.records with taken := (137 + d, k) :: s.records.taken } } d (r.prod - r.cons)

end Sys2Proof.Machine
end

