-- ==== Sys2Proof/Machine/Walk.lean ====
section
/-! DEFINITION. The page walk (08 R252), the leaf checks (R254) and translation for the units that act for a context. -/

namespace Sys2Proof.Machine

/-- What an access needs of a page (08 R254, Table 80). -/
inductive Need where
  | read | write | both | exec
deriving DecidableEq, Repr

/-- The ACCESS code of Table 80. -/
def Need.code : Need → Nat
  | .read => 0 | .write => 1 | .both => 2 | .exec => 3

/-- A translation fault: cause, LEVEL and REASON of Tables 78 and 80. -/
structure XFault where
  cause : Cause
  level : Nat
  reason : Nat
deriving DecidableEq, Repr

/-- The FINFO value of a fault (08 Table 80). -/
def XFault.info (f : XFault) (n : Need) (e : Engine) : BitVec 16 :=
  BitVec.ofNat 16 (f.level * 2 ^ 12 + n.code * 2 ^ 8 + e.tag * 2 ^ 6 + f.reason)

/-- The index of va at a level (08 R252). -/
def walkIndex (va lv : Nat) : Nat := if lv = 1 then fld va 41 11 else if lv = 2 then fld va 30 11 else fld va 19 11

/-- One level of a walk: the entry at table t is read and decides (08 R252, R253). The result is a leaf or the next
table. -/
def walkLevel (s : State) (va t lv : Nat) : Except XFault (Sum (Nat × Nat × Bool × Bool × Bool) Nat) :=
  let a := t + 8 * walkIndex va lv
  match s.verify a 8 with
  | some c => .error ⟨c, lv, 11⟩
  | none =>
    let e := (s.dword a).toNat
    let addr := fld e 14 30 * 2 ^ 14
    if !bit e 63 then .error ⟨.notpresent, lv, 1⟩
    else if fld e 59 3 ≠ 0 ∨ fld e 44 12 ≠ 0 ∨ fld e 0 14 ≠ 0 then .error ⟨.protect, lv, 5⟩
    else if (lv = 1 ∧ bit e 62) ∨ (lv = 3 ∧ !bit e 62) then .error ⟨.protect, lv, 4⟩
    else if bit e 62 then
      let size := if lv = 2 then 2 ^ 30 else 2 ^ 19
      if addr % size ≠ 0 then .error ⟨.protect, lv, 4⟩
      else .ok (.inl (addr, size, bit e 56, bit e 57, bit e 58))
    else .ok (.inr addr)

/-- The level-0 checks (08 R252). -/
def walkZero (s : State) (ctx va : Nat) : Option XFault :=
  if !(s.ctx ctx).valid then some ⟨.notpresent, 0, 2⟩
  else if fld va 52 11 ≠ 0 then some ⟨.protect, 0, 3⟩
  else none

/-- The whole walk of R252: the page's physical address, its size, R, W, X. -/
def walk (s : State) (ctx va : Nat) : Except XFault (Nat × Nat × Bool × Bool × Bool) :=
  match walkZero s ctx va with
  | some f => .error f
  | none =>
    match walkLevel s va ((s.ctx ctx).root.toNat * 2 ^ 14) 1 with
    | .error f => .error f
    | .ok (.inl l) => .ok l
    | .ok (.inr t) =>
      match walkLevel s va t 2 with
      | .error f => .error f
      | .ok (.inl l) => .ok l
      | .ok (.inr t) =>
        match walkLevel s va t 3 with
        | .error f => .error f
        | .ok (.inl l) => .ok l
        | .ok (.inr _) => .error ⟨.protect, 3, 4⟩

/-- The frame-table entry of frame f (08 R262). -/
def frameAt (s : State) (f : Nat) : Nat := s.pages.ftbase.toNat + 8 * f

/-- Bits of a frame-table entry (08 Table 81). -/
def ftCount (e : Nat) : Nat := fld e 48 16
def ftPins (e : Nat) : Nat := fld e 40 8
def ftFreeq (e : Nat) : Bool := bit e 39
def ftRingq (e : Nat) : Bool := bit e 38
def ftPlain (e : Nat) : Bool := bit e 37
def ftOwner (e : Nat) : Nat := fld e 31 6

/-- A frame-table entry from its fields; bits [30:0] as they stood. -/
def ftPack (count pins : Nat) (freeq ringq plain : Bool) (owner rest : Nat) : Word :=
  word (count * 2 ^ 48 + pins * 2 ^ 40 + freeq.toNat * 2 ^ 39 + ringq.toNat * 2 ^ 38 + plain.toNat * 2 ^ 37 + owner * 2 ^ 31
    + fld rest 0 31)

/-- The plaintext frames of n DRAM frames from frame f on, with their owners (08 R262). -/
def plainFrames (s : State) (f n : Nat) : List (Nat × Nat) :=
  (List.range n).filterMap fun i =>
    let e := (s.dword (frameAt s (f + i))).toNat
    if ftPlain e then some (f + i, ftOwner e) else none

/-- The TLB entry that a completed walk fills (08 R255): DRAM frames bring their PLAIN bits and OWNERs. -/
def fillEntry (s : State) (ctx va : Nat) (l : Nat × Nat × Bool × Bool × Bool) : TlbEntry :=
  { ctx := ctx, va := va / l.2.1 * l.2.1, size := l.2.1, pa := l.1, r := l.2.2.1, w := l.2.2.2.1, x := l.2.2.2.2,
    plain := if place l.1 = .dram then plainFrames s (l.1 / 2 ^ 19) (l.2.1 / 2 ^ 19) else [] }

/-- Whether a leaf grants what an access needs (08 R254). -/
def TlbEntry.grants (t : TlbEntry) : Need → Bool
  | .read => t.r | .write => t.w | .both => t.r && t.w | .exec => t.x

/-- Whether the entry holds the frame of an address as plaintext of another context (08 R254, R255). -/
def TlbEntry.plainOther (t : TlbEntry) (ctx pa : Nat) : Bool := t.plain.any fun p => p.1 == pa / 2 ^ 19 && p.2 != ctx

/-- The leaf checks of R254 for one byte address, in order: permission, reserved range, plaintext owner; a peer page
without a valid entry gives reason 7 (14 R432). -/
def leafCheck (s : State) (t : TlbEntry) (ctx va : Nat) (n : Need) : Except XFault Nat :=
  let pa := t.pa + va % t.size
  if !t.grants n then .error ⟨.protect, 4, 6⟩
  else if place pa = .reserved then .error ⟨.protect, 4, 7⟩
  else if place pa = .peer ∧ !(Sparse.get {} s.trust.peers ((pa - Config.peerBase) / 2 ^ 19)).valid then
    .error ⟨.protect, 4, 7⟩
  else if place pa = .host ∧ s.trust.tdisp = .error then .error ⟨.protect, 4, 7⟩
  else if t.plainOther ctx pa then .error ⟨.protect, 4, 8⟩
  else .ok pa

/-- The table entry that a walk finds bad: where an event without a consumer is counted (14 R418). -/
def badTable (s : State) (ctx va : Nat) : Option Nat :=
  let a := (s.ctx ctx).root.toNat * 2 ^ 14 + 8 * walkIndex va 1
  if (s.verify a 8).isSome then some a
  else
    match walkLevel s va ((s.ctx ctx).root.toNat * 2 ^ 14) 1 with
    | .ok (.inr t) =>
      if (s.verify (t + 8 * walkIndex va 2) 8).isSome then some (t + 8 * walkIndex va 2)
      else
        match walkLevel s va t 2 with
        | .ok (.inr u) => if (s.verify (u + 8 * walkIndex va 3) 8).isSome then some (u + 8 * walkIndex va 3) else none
        | _ => none
    | _ => none

/-- Translation by a walk for a unit that acts for a context: the physical address of one byte. -/
def State.translate (s : State) (ctx va : Nat) (n : Need) : Except XFault Nat :=
  match walk s ctx va with
  | .error f => .error f
  | .ok l => leafCheck s (fillEntry s ctx va l) ctx va n

/-- Whether every page of n bytes from va translates with both permissions (12 R365). -/
def State.mapped (s : State) (ctx va n : Nat) (need : Need) : Bool :=
  ((List.range ((va % 2 ^ 19 + n + 2 ^ 19 - 1) / 2 ^ 19)).all fun i =>
    (s.translate ctx (va / 2 ^ 19 * 2 ^ 19 + i * 2 ^ 19) need).toBool)

end Sys2Proof.Machine
end

