-- ==== Sys2Proof/Machine/Sched.lean ====
section
/-! DEFINITION. Scoreboards, posts, the ends of tasks, instances and waybills, and taking them out of the machine
(12 R361-R378, R381). -/

namespace Sys2Proof.Machine

/-! ## Handles -/

/-- The key of entry i of die d's scoreboard; the handle of its present launch (12 Table 134). -/
def scoreKey (d i : Nat) : Nat := d * 4096 + i
def handleOf (e : Nat) (c : Score) : Word := word ((c.seq - 1) * 2 ^ 16 + e / 4096 * 2 ^ 14 + e % 4096)

/-- The entry that a handle names, if its launch is live (12 R361). -/
def State.named (s : State) (h : Word) : Option Nat :=
  let e := scoreKey (fld h.toNat 14 2) (fld h.toNat 0 12)
  if fld h.toNat 12 2 = 0 ∧ (s.score e).st ≠ .free ∧ (s.score e).seq = fld h.toNat 16 48 + 1 then some e else none

/-- The entries in use, with their keys. -/
def State.liveScores (s : State) : List (Nat × Score) := s.sched.entries.filter fun p => p.2.st != .free

/-- Entries in use on die d (12 Table 141). -/
def State.inUse (s : State) (d : Nat) : Nat := (s.liveScores.filter fun p => p.2.home == d).length

/-- The first number from i on below n that p accepts. -/
def firstFrom (p : Nat → Bool) : Nat → Nat → Option Nat
  | 0, _ => none
  | fuel + 1, i => if p i then some i else firstFrom p fuel (i + 1)

/-- The lowest free entry of die d's scoreboard (12 R363). -/
def State.freeEntry (s : State) (d : Nat) : Option Nat :=
  if 4096 ≤ s.inUse d then none
  else (firstFrom (fun i => (s.score (scoreKey d i)).st == .free) 4096 0).map (scoreKey d)

/-- The number of instances of a waybill (12 R359). -/
def Waybill.instances (w : Waybill) : Nat :=
  if w.chunk = 0 ∨ w.count = 0 then 1 else (w.count + w.chunk - 1) / w.chunk

/-- FIRST and COUNT of instance j (12 R359, Table 133). -/
def Waybill.range (w : Waybill) (j : Nat) : Nat × Nat :=
  if w.chunk = 0 then (w.first, w.count)
  else
    let lo := w.first + j * w.chunk
    (lo, min (lo + w.chunk) (w.first + w.count) - lo)

/-- The worker count N of a span (01 R22). -/
def Waybill.workers (w : Waybill) : Nat := (w.shape.map (·.1)).sum

/-- A waybill enters entry e (12 R363, R367, R346). -/
def State.enterWb (s : State) (e : Nat) (w : Waybill) (key msg : Word) (by_ : Option Nat) (cut : List Word := []) : State :=
  let old := s.score e
  { s with sched := { s.sched with
      entries := s.sched.entries.put e
        { seq := old.seq + 1, st := if w.deps > 0 then .waiting else .held, wb := w, deps := w.deps, key := key, msg := msg,
          bySerai := by_, cut := cut, home := e / 4096, since := s.stamp } } }

/-! ## Selection and placement (12 R371) -/

/-- Effective tokens of an entry (12 R371). -/
def Score.tokens (c : Score) (now : Nat) : Nat := min 255 (c.wb.prio + (now - c.since) / 800000)

/-- Whether entry a comes before entry b in the selection order (12 R371): more tokens, earlier into READY, lower die and
entry. -/
def before (now : Nat) (a b : Nat × Score) : Bool :=
  let x := a.2.tokens now
  let y := b.2.tokens now
  if x ≠ y then decide (y < x)
  else if a.2.since ≠ b.2.since then decide (a.2.since < b.2.since)
  else decide (a.1 < b.1)

/-- A list of entries put in the selection order. -/
def insertBefore (now : Nat) (a : Nat × Score) : List (Nat × Score) → List (Nat × Score)
  | [] => [a]
  | b :: l => if before now a b then a :: b :: l else b :: insertBefore now a l
def selectionOrder (now : Nat) (l : List (Nat × Score)) : List (Nat × Score) := l.foldr (insertBefore now) []

/-- An entry that has an instance to issue (12 R369, R371): checkpointed, or, unless one of its instances was killed (log 23),
unissued or to be issued again. -/
def Score.selectable (c : Score) : Bool :=
  (c.wb.kind == 0 || c.wb.kind == 3) && (c.st == .ready || c.st == .running) &&
    (c.insts.any (·.saved.isSome) || c.killed.isNone && (decide (c.next < c.wb.instances) || !c.again.isEmpty))

/-- The selectable entries in the selection order; the first is the head (12 R371). -/
def State.selection (s : State) : List (Nat × Score) :=
  selectionOrder s.stamp (s.liveScores.filter fun p => p.2.selectable)

/-- Whether a PLACE admits cluster c (12 Table 132). -/
def placeAdmits (place c : Nat) : Bool :=
  if place = 0 then true
  else if place ≤ 9 then place == c + 1
  else if place = 10 then decide (c < 4)
  else decide (4 ≤ c) && decide (c < 8)

/-- Whether a cluster is in service for a waybill: its die is not fenced, no zone of it is DEAD, and its zones are granted
(12 R389, 13 R397, R401). -/
def State.inService (s : State) (w : Waybill) (c : Nat) : Bool :=
  !bit s.sched.fenced.toNat (dieOfCluster c) &&
  ((List.range 4).all fun i => (s.zone (4 * c + i)).state != 10) &&
  (w.cool == 0 || (List.range 4).all fun i => bit w.cool.toNat (4 * c + i))

/-- Whether a waybill's shape can use a cluster (12 R371). -/
def State.usable (s : State) (w : Waybill) (c : Nat) : Bool := s.inService w c && w.shape.any fun p => placeAdmits p.2 c

/-- Each crew takes its cluster in shape order: the named one, or the lowest free one (12 R371). -/
def placeCrews (free : Nat → Bool) : List (Nat × Nat) → List Nat → Option (List Nat)
  | [], _ => some []
  | p :: l, taken =>
    match firstFrom (fun c => free c && placeAdmits p.2 c && !taken.contains c) 9 0 with
    | none => none
    | some c => (placeCrews free l (c :: taken)).map (c :: ·)

/-- The instance number an entry issues next: the least that waits (12 R359). -/
def Score.nextJ (c : Score) : Nat :=
  let live := c.killed.isNone
  let waiting := (c.insts.filter (·.saved.isSome)).map (·.j) ++ if live then c.again else []
  waiting.foldl min (if live ∧ c.next < c.wb.instances then c.next else waiting.headD 0)

/-- The clusters on which an entry's next instance can be placed, among those that `free` admits: a checkpointed one only
where it stood (12 R371, R385). -/
def State.placement (s : State) (c : Score) (free : Nat → Bool) : Option (List Nat) :=
  let ok := fun k => free k && s.inService c.wb k
  match c.insts.find? fun i => i.saved.isSome && i.j == c.nextJ with
  | some i => if i.clusters.all ok then some i.clusters else none
  | none => placeCrews ok c.wb.shape []

/-- A cluster without a crew. -/
def State.vacant (s : State) (c : Nat) : Bool := (s.crew c).resident.isNone

/-- Clusters that free while the head cannot be placed are reserved for it as far as its shape can use them (12 R371). -/
def State.reserveFreed (s : State) (cs : List Nat) : State :=
  match s.selection with
  | [] => s
  | (_, h) :: _ =>
    if (s.placement h s.vacant).isSome then s
    else { s with sched := { s.sched with reserved := s.sched.reserved ++ cs.filter (s.usable h.wb) } }

/-! ## Posts -/

/-- Whether serai n is registered to a context (12 R365). -/
def State.registered (s : State) (n ctx : Nat) : Bool := decide (n < 4096) && ((s.serai n).ctx == some ctx)

/-- Whether the master has room for one more message: it holds up to 16,384, and a post that waits at its source comes first
(12 R366). -/
def State.postRoom (s : State) : Bool := decide (s.sched.posts.length < 16384) && s.sched.sources.isEmpty

/-- A device post is held at the master for its turn, or waits at its source for room there (12 R366). -/
def State.post (s : State) (p : Post) : State :=
  if s.postRoom then { s with sched := { s.sched with posts := s.sched.posts ++ [p] } }
  else { s with sched := { s.sched with sources := s.sched.sources ++ [p] } }

/-- The first doubleword of a message slot (12 Table 136). -/
def slotHead (source len : Nat) : Word := word (source * 2 ^ 56 + len * 2 ^ 52)

/-- The 128 bytes of a message slot (12 Table 136). -/
def slotBytes (source : Nat) (payload : List Word) (seq : Nat) : List Byte :=
  let ws := slotHead source payload.length :: word seq :: payload
  ((ws ++ List.replicate (16 - ws.length) 0).map fun (w : Word) => leBytes 8 w.toNat).flatten

/-- Where the slot of message SEQ lies (12 R364). -/
def Serai.slotVa (q : Serai) (seq : Nat) : Nat := q.ring.toNat + 256 + 128 * (seq % (q.slots + 1))

/-! ## Timetables under invalidations (10 R304, R309) -/

/-- Whether a command of a channel's timetable waits or runs (R304). -/
def State.waveBusy (s : State) (ch : Nat) : Bool :=
  ((s.stack (ch / 8)).waiting.any fun q => q.call.isNone && q.unit / 8 == ch) ||
    (List.range 8).any fun g => match (s.unit (8 * ch + g)).run with | some r => r.call.isNone | none => false

/-- Whether an invalidation covers a page of a context (08 R261). -/
def Inval.coversPage (i : Inval) (ctx va size : Nat) : Bool :=
  (match i.ctx with | none => true | some c => ctx == c) &&
    match i.range with | none => true | some (lo, hi) => decide (va < hi) && decide (lo < va + size)

/-- Whether an invalidation covers a frame in a channel's window (10 R309). -/
def Chan.coveredBy (c : Chan) (i : Inval) : Bool := c.window.any fun p => i.coversPage c.ctx p.1 (2 ^ 19)

/-- The channels of a faulted channel's X.BANKGO stop at the end of their entries (10 R305); those that wait for their start
are LOADED again. -/
def State.stopPeers (s : State) (owner : Option (Nat × Nat)) : State :=
  let cs := s.banks.chans.map fun p =>
    (p.1, if p.2.owner ≠ owner then p.2
      else if p.2.st = .running then { p.2 with stopping := true }
      else if p.2.st = .armed then { p.2 with st := .loaded }
      else p.2)
  { s with banks := { s.banks with chans := cs } }

/-- A channel whose loaded window an invalidation covers faults with PROTECT: at once, or at the end of its current entry when
it runs; the others of its X.BANKGO stop (10 R309, R305). -/
def State.revokeChan (s : State) (i : Inval) (n : Nat) : State :=
  let c := s.chan n
  let fault := { c with st := .fault, cause := Cause.protect.code, group := 0 }
  if !c.coveredBy i then s
  else
    match c.st with
    | .running => s.setChan n { c with revoked := true }
    | .armed => (s.setChan n fault).stopPeers c.owner
    | .loaded => s.setChan n fault
    | .fault => s
    | .empty => s
def State.revoke (s : State) (i : Inval) : State := s.banks.chans.foldl (fun t p => t.revokeChan i p.1) s

/-- Whether a channel that runs, or whose wave still does, keeps an invalidation from completing, and whether it knows that (10
R309). -/
def State.windowRuns (s : State) (i : Inval) : Bool :=
  s.banks.chans.any fun p => p.2.coveredBy i && (p.2.st == .running || s.waveBusy p.1)
def State.windowTold (s : State) (i : Inval) : Bool :=
  s.banks.chans.all fun p => !(p.2.coveredBy i && p.2.st == .running) || p.2.revoked

/-! ## Ends -/

/-- The task of a core, as its instance's record, is changed by f. -/
def Inst.mapTask (i : Inst) (core : Nat) (f : TaskRec → TaskRec) : Inst :=
  { i with tasks := i.tasks.map fun t => if t.core = core then f t else t }

/-- Barriers of a kind that a task has passed: 0 crew, 1 span, 2 stage (12 R378). -/
def TaskRec.bars (t : TaskRec) (kind : Nat) : Nat := if kind = 0 then t.crewBars else if kind = 1 then t.spanBars else t.stageBars

/-- Whether b takes part in a's barriers of a kind (12 R378). -/
def TaskRec.joins (a b : TaskRec) (kind : Nat) : Bool :=
  if kind = 0 then a.cluster == b.cluster else if kind = 1 then true else a.stage == b.stage

/-- Entry and instance of a core's task. -/
def State.instOf (s : State) (core : Nat) : Option (Nat × Inst) :=
  let c := s.core core
  (s.named c.job.handle).bind fun e => ((s.score e).insts.find? fun i => i.id == c.job.inst).map fun i => (e, i)

/-- The worker of an instance's task on core k, there or in the checkpoint area (R385): none when its task has ended. -/
def State.workerOf (s : State) (k inst : Nat) : Option Core :=
  if (s.core k).run ≠ .idle ∧ (s.core k).job.inst = inst then some (s.core k)
  else
    (s.liveScores.flatMap fun p => p.2.insts.flatMap fun i => match i.saved with
      | some (cores, _) => if i.id = inst then (cores.filter fun q => q.1 == k).map (·.2) else []
      | none => []).head?

/-- That worker is changed by f, wherever it stands. -/
def State.mapWorker (s : State) (k inst : Nat) (f : Core → Core) : State :=
  if (s.core k).run ≠ .idle ∧ (s.core k).job.inst = inst then s.setCore k (f (s.core k))
  else
    let fix := fun (i : Inst) =>
      if i.id = inst then
        { i with saved := i.saved.map fun v => (v.1.map fun p => if p.1 = k then (p.1, f p.2) else p, v.2) }
      else i
    { s with sched := { s.sched with
        entries := s.sched.entries.map fun p => (p.1, { p.2 with insts := p.2.insts.map fix }) } }

/-- The state as it would be with that worker on its core: what its accesses wait for is the same wherever it stands. -/
def State.withWorker (s : State) (k inst : Nat) : Option State := (s.workerOf k inst).map (s.setCore k)

/-- Instance id of entry e becomes i. -/
def Score.setInst (c : Score) (id : Nat) (f : Inst → Inst) : Score :=
  { c with insts := c.insts.map fun i => if i.id = id then f i else i }

/-- The record of core k's task is changed by f. -/
def State.mapTask (s : State) (k : Nat) (f : TaskRec → TaskRec) : State :=
  match s.instOf k with
  | none => s
  | some (e, i) => s.setScore e ((s.score e).setInst i.id fun j => j.mapTask k f)

/-- The hallmarks of a published slot are computed (05 R153): a grain that the slot covers whole gets a fresh one, and one
that its rows cover whole loses its poison too. -/
def State.markSlot (s : State) (loc slotLen rowsLen : Nat) : State :=
  ((grainsOf loc slotLen).filter fun g => decide (loc ≤ 256 * g) && decide (256 * (g + 1) ≤ loc + slotLen)).foldl
    (fun t g => t.setGrain g (0, (t.grain g).2 && !decide (256 * (g + 1) ≤ loc + rowsLen))) s

/-- Bytes of the request path written at their home (09 R279): charged, and a partly covered bad grain counted once (10 R311,
14 R417) unless the store completes it. Registers take theirs by State.storeRegs. -/
def State.applyStore (s : State) (loc : Nat) (bytes : List Byte) (mark : Option (BitVec 32 × Bool)) : State :=
  match place loc with
  | .host => { s with host := putBytes s.host (loc - Config.hostBase) bytes }
  | _ =>
    let t := (s.chargeDram loc bytes.length).write loc bytes
    match mark with
    | some m => t.setGrain (loc / 256) m
    | none => t.countMet loc bytes.length

/-- A queue count of core k's crew advances by n at its home; a claim of the side ends with it, and a published slot gets
its hallmarks (07 R220, 05 R153). -/
def State.advanceCount (s : State) (k h : Nat) (q : Handle) (prod : Bool) (n : Nat) (claim : Bool)
    (slot : Option (Nat × Nat × Nat)) : State :=
  let loc := padLoc (clusterOf k) (q.ctl + if prod then 0 else 8)
  let s := match slot with | some (a, m, r) => s.markSlot a m r | none => s
  let s := (s.countMet loc 8).writeWord loc (s.dword loc + word n)
  if !claim then s
  else
    let c := s.core k
    s.setCore k { c with sides := c.sides.map fun p =>
      if p.1 == h && p.2.gen == q.gen && p.2.prod == prod then (p.1, { p.2 with claims := p.2.claims - 1 }) else p }

/-- A tag entry of a crew set, any other entry with the tag losing it, or cleared (07 R216). -/
def Crew.setTag (c : Crew) (slot : Nat) (t : BitVec 36) : Crew :=
  { c with tags := Sparse.put (c.tags.filter fun p => p.2 != t) slot t }
def Crew.dropTag (c : Crew) (slot : Nat) : Crew := { c with tags := c.tags.drop slot }

/-- What a held access of core k does at its home in memory or in the crew (09 R279). -/
def State.applyAct (s : State) (k : Nat) (p : PathItem) : State :=
  let cl := clusterOf k
  match p.act with
  | .store bs mark => s.applyStore p.acc.loc bs mark
  | .tagSet n t => s.setCrew cl ((s.crew cl).setTag n t)
  | .tagDrop n => s.setCrew cl ((s.crew cl).dropTag n)
  | .count h q prod n claim slot => s.advanceCount k h q prod n claim slot
  | .seals .. => s
  | .call _ => s

/-- Whether a held access writes registers. -/
def PathItem.far (p : PathItem) : Bool :=
  match p.act with
  | .store .. => place p.acc.loc == .reg
  | _ => false

/-- A held access that performs when its task ends (09 R441): one that its order gate still holds is discarded (16 R438), one
to a crew that has been checkpointed and ends with its instance changes nothing, and one that writes registers is left for a
step of its own. -/
def State.endAct (s : State) (k : Nat) (p : PathItem) (gone : Bool) : State :=
  if p.far then { s with sched := { s.sched with late := s.sched.late ++ [p] } }
  else
    match p.act with
    | .seals .. => s
    | .call _ => s
    | _ => match s.ordered p.who p.acc.loc (max 1 p.acc.len) with
      | some t => if gone && place p.acc.loc == .pad then t else t.applyAct k p
      | none => s

/-- The accesses still held when a task ends without resuming perform (09 R441); its undelivered seals are discarded
(07 R225). `path` is that of core k or, with `gone`, of its checkpoint. -/
def State.drainPath (s : State) (k : Nat) (path : List PathItem) (gone : Bool := false) : State :=
  path.foldl (fun t p => t.endAct k p gone) s

/-- A reservation of n tolls returns to a crew bucket, up to CAP (06 R191). -/
def State.returnTolls (s : State) (cl n : Nat) : State :=
  let b := s.bucket cl
  s.setBucket cl { b with level := if b.level < b.cap then min (b.cap : Int) (b.level + n) else b.level }

/-- Core k withdraws what it waits for at its bucket's arbiter (06 R190). -/
def State.withdrawTolls (s : State) (k : Nat) : State :=
  let b := s.bucket (clusterOf k)
  s.setBucket (clusterOf k) { b with waiting := b.waiting.filter fun r => r.core != k }

/-- The copy words behind the first in flight that has checks to pass start again from their first unit, without claims, and
what they hold in the request path is gone: the cut stands at the first that has not completed (07 R233). -/
def Core.cutCopies (c : Core) : Core :=
  let front := c.cpy.runs.takeWhile (·.passed)
  match c.cpy.runs.drop front.length with
  | [] => c
  | r :: rs =>
    let gone := fun (x : CopyRun) (s : Nat × Side) =>
      if x.claimed && x.h == s.1 && x.q.any (fun q => q.gen == s.2.gen) && (if s.2.prod then x.dstSide else x.srcSide) then 1
      else 0
    { c with
      cpy := { c.cpy with runs := front ++ r :: rs.map fun x =>
        { x with unit := 0, srcSlot := none, dstSlot := none, claimed := !x.srcSide && !x.dstSide } }
      sides := c.sides.map fun s => (s.1, { s.2 with claims := s.2.claims - (rs.map fun x => gone x s).sum })
      req := { c.req with path := c.req.path.filter fun p => decide (p.acc.run ≤ r.id) } }

/-- What outlives a task on its core (08 R255, 14 R404, 06 R179, log 20). -/
def Core.emptied (c : Core) : Core :=
  { tlb := c.tlb, starts := c.starts, checkerBad := c.checkerBad, slow := c.slow, badCells := c.badCells, gated := c.gated,
    mat := { busy := c.mat.busy } }

/-- Core k is left by its task, whose held accesses perform (09 R441). -/
def State.clearCore (s : State) (k : Nat) : State :=
  let c := s.core k
  let s := ((s.drainPath k c.cutCopies.req.path).withdrawTolls k).returnTolls (clusterOf k) c.mat.resv
  (s.leaveGates k).setCore k c.emptied

/-- Crediting one successor entry (12 R376). -/
def State.credit (s : State) (ctx : Nat) (h : Word) : State :=
  match s.named h with
  | none => s.dropPost
  | some e =>
    let c := s.score e
    if c.st = .waiting ∧ c.wb.ctx = ctx then
      let d := c.deps - 1
      s.setScore e { c with deps := d, st := if d = 0 then .held else .waiting }
    else s.dropPost

/-- The successors of entry e are credited, once (12 R376). -/
def State.creditAll (s : State) (e : Nat) : State :=
  let c := s.score e
  if c.credited then s
  else c.wb.succ.foldl (fun t h => t.credit c.wb.ctx h) (s.setScore e { c with credited := true })

/-- Every zone that a waybill holds is released (13 R399). -/
def State.releaseCool (s : State) (h : Word) : State :=
  { s with cool := { s.cool with zones := s.cool.zones.map fun p =>
      if p.2.held && p.2.holder == h then
        (p.1, { p.2 with held := false, holder := 0, prio := 0, maxf := 0, minf := 0 })
      else p } }

/-- CONS of a serai's ring header advances when its handler ends (12 R367). -/
def State.consume (s : State) (n : Nat) : State :=
  let q := s.serai n
  let s := s.setSerai n { q with running := none }
  match q.ctx with
  | none => s
  | some ctx =>
    match s.translate ctx (q.ring.toNat + 8) .write with
    | .error _ => s
    | .ok pa => s.writeWord pa (s.dword pa + 1)

/-- The report's second doubleword (12 R370). -/
def reportWord (killed : Bool) (reissues cause : Nat) : Word :=
  word (killed.toNat * 2 ^ 56 + min reissues 0xFFFF * 2 ^ 32 + cause * 2 ^ 8)

/-- The entries of fenced scoreboards move to the master's, in entry order, as entries free there (12 R389, log 24). -/
def State.adopt (s : State) : State :=
  let fenced := fun (d : Nat) => bit s.sched.fenced.toNat d
  if fenced s.sched.master then s
  else
    (s.liveScores.filter fun p => fenced p.2.home).foldl
      (fun t p => if t.inUse t.sched.master < 4096 then t.setScore p.1 { p.2 with home := t.sched.master } else t) s

/-- Entry e is free again, and one of a fenced scoreboard may take the place (12 R369, R389). -/
def State.freeScore (s : State) (e : Nat) : State := (s.setScore e { seq := (s.score e).seq }).adopt

/-- In replay the master consumes the END record of a recorded launch when it ends (16 R438). -/
def State.takeEnd (s : State) (c : Score) : State :=
  if c.wb.record ∧ s.records.setting = 2 ∧ !s.records.released then
    match s.nextRecord s.sched.master fun t b => t == 2 && b.getD 0 0 == c.key with
    | some r => s.takeRecord s.sched.master r.1
    | none => s
  else s

/-- A waybill ends DONE or KILLED: report, credits, coolant, the serai's next message; its entry is free again once the
report is posted (12 R369, R370, R376, R367, 13 R399, 14 R409). -/
def State.endWaybill (s : State) (e : Nat) : State :=
  let c := s.score e
  let h := handleOf e c
  let killed := c.killed.isSome
  let cause := match c.killed with | some k => k.code | none => 0
  let s := if killed then s else s.creditAll e
  let s := s.releaseCool h
  let s := match c.bySerai with | some n => s.consume n | none => s
  let s := if c.live then s.dispatch s.sched.master 2 [c.key, word (cause * 2 ^ 8 + killed.toNat)] else s.takeEnd c
  if !c.wb.post then s.freeScore e
  else
    let p : Post := { serai := c.wb.serai, source := 5, payload := [h, reportWord killed c.reissues cause], ends := some e }
    if s.postRoom then (s.post p).freeScore e else (s.setScore e { (s.score e) with st := .ended }).post p

/-- The posts that wait at their sources go to the master as far as it has room (12 R366); a report posted so frees its
entry. -/
def State.fillPosts (s : State) : Nat → State
  | 0 => s
  | fuel + 1 =>
    match s.sched.sources with
    | [] => s
    | p :: ps =>
      if 16384 ≤ s.sched.posts.length then s
      else
        let t := { s with sched := { s.sched with posts := s.sched.posts ++ [p], sources := ps } }
        State.fillPosts (match p.ends with | some e => t.freeScore e | none => t) fuel

/-- Whether nothing of an entry is left to run (12 R359, R369). -/
def Score.finished (c : Score) : Bool :=
  c.st != .free && c.st != .ended && c.insts.isEmpty && (c.killed.isSome || (decide (c.wb.instances ≤ c.next) && c.again.isEmpty))

/-- The waybill of entry e ends if nothing of it is left. -/
def State.settle (s : State) (e : Nat) : State := if (s.score e).finished then s.endWaybill e else s

/-- The clusters of an instance are free (12 R371). -/
def State.freeClusters (s : State) (i : Inst) : State :=
  (i.clusters.foldl (fun t c => t.setCrew c { (t.crew c) with resident := none, tags := [] }) s).reserveFreed i.clusters

/-- Units of the checkpoint area that an instance takes (12 R385). -/
def Inst.units (i : Inst) : Nat := 129 * i.tasks.length + 1025 * i.clusters.length

/-- An instance leaves entry e: its tasks' cores and its clusters, or its units of the checkpoint area, are free. Accesses held
in checkpointed request paths perform (09 R441). -/
def State.removeInst (s : State) (e : Nat) (i : Inst) : State :=
  let s := match i.saved with
    | none =>
      let leave := fun (t : State) (r : TaskRec) =>
        if (t.core r.core).job.inst = i.id ∧ (t.core r.core).run ≠ Run.idle then t.clearCore r.core else t
      (i.tasks.foldl leave s).freeClusters i
    | some (cores, _) =>
      let leave := fun (t : State) (p : Nat × Core) => t.drainPath p.1 p.2.cutCopies.req.path true
      let t := cores.foldl leave s
      { t with sched := { t.sched with ckUsed := t.sched.ckUsed - i.units } }
  s.setScore e { (s.score e) with insts := (s.score e).insts.filter fun j => j.id != i.id }

/-- KILL: every task of the instance ends and the waybill ends KILLED (12 R381, log 23). -/
def State.killInst (s : State) (e : Nat) (i : Inst) (why : Cause) : State :=
  let s := s.removeInst e i
  (s.setScore e { (s.score e) with killed := some ((s.score e).killed.getD why) }).settle e

/-- An instance that its waybill lets run twice ends and is issued again from its start (12 R385, R389, 13 R401). With nothing
else placed the waybill enters READY; a killed one issues nothing again. -/
def State.reissueInst (s : State) (e : Nat) (i : Inst) : State :=
  let s := s.removeInst e i
  let c := s.score e
  let alone := c.insts.all (·.saved.isSome)
  let s := s.setScore e { c with
    again := c.again ++ [i.j], reissues := c.reissues + 1
    since := if alone then s.stamp else c.since, st := if alone then .ready else c.st }
  if c.killed.isSome then s.settle e else s

/-- A waybill ends KILLED whole, as KILLWB and a die fence end it (12 R389, R390). -/
def State.killWaybill (s : State) (e : Nat) (why : Cause) : State :=
  if (s.score e).st = .ended then s
  else
    let s := (s.score e).insts.foldl (fun t i => t.removeInst e i) s
    (s.setScore e { (s.score e) with killed := some why }).settle e

/-- An ACTION record for a task of a recorded launch (14 Table 156). -/
def State.recordAction (s : State) (e mode : Nat) (status : Word) : State :=
  if mode = 1 then s.dispatch s.sched.master 5 [(s.score e).key, status] else s

/-! ## Fenced dies (12 R389) -/

/-- Whether a crew field names only clusters of fenced dies. -/
def placeFenced (fenced : BitVec 3) (place : Nat) : Bool :=
  if 1 ≤ place ∧ place ≤ 9 then bit fenced.toNat (dieOfCluster (place - 1))
  else if place = 10 then bit fenced.toNat 0
  else if place = 11 then bit fenced.toNat 1
  else fenced == 7

/-- Whether a waybill has nowhere to run: its shape names only clusters of fenced dies, or it is a stream and D2 is fenced. -/
def Waybill.fencedOut (w : Waybill) (fenced : BitVec 3) : Bool :=
  w.kind == 2 && bit fenced.toNat 2 ||
    (w.kind == 0 || w.kind == 3) && !w.shape.isEmpty && w.shape.all fun c => placeFenced fenced c.2

end Sys2Proof.Machine
end

