-- ==== Sys2Proof/Machine/Flags.lean ====
section
/-! DEFINITION. The number formats, rounding, special values and the status flags (03 R68-R93). A floating-point value is
decoded to a sign, an exact magnitude m * 2^e, an infinity or a NaN; every result is computed exactly and rounded once. -/

namespace Sys2Proof.Machine

/-! ## Status flags (03 Table 40) -/

/-- A set of status flags. -/
abbrev Flags := BitVec 6

def flagOver : Flags := 0x01
def flagSat : Flags := 0x02
def flagInvalid : Flags := 0x04
def flagInexact : Flags := 0x08
def flagUnder : Flags := 0x10
def flagAssay : Flags := 0x20

/-- A flag if b. -/
def flagIf (b : Bool) (f : Flags) : Flags := if b then f else 0

/-! ## Rounding (R79) -/

/-- The rounding modes of Table 37; codes 6 and 7 are refused where a word names them. -/
inductive Rnd where
  | rne | rtz | rup | rdn | rna | sr
deriving DecidableEq, Repr

/-- A mode from its code. -/
def Rnd.ofCode (n : Nat) : Rnd :=
  match n with
  | 0 => .rne | 1 => .rtz | 2 => .rup | 3 => .rdn | 4 => .rna | _ => .sr

/-- The magnitude num/den rounded to an integer for a value of sign neg, with draw u under SR (R79, R81). -/
def roundMag (md : Rnd) (neg : Bool) (num den u : Nat) : Nat :=
  let q := num / den
  let r := num % den
  let up :=
    match md with
    | .rne => decide (den < 2 * r) || decide (den = 2 * r) && q % 2 == 1
    | .rtz => false
    | .rup => r != 0 && !neg
    | .rdn => r != 0 && neg
    | .rna => decide (den ≤ 2 * r) && r != 0
    | .sr => decide (2 ^ 32 ≤ r * 2 ^ 32 / den + u)
  if up then q + 1 else q

/-- One draw of a generator: its next state and the draw (R81). -/
def draw (g : BitVec 64) : BitVec 64 × Nat :=
  let g := g ^^^ (g <<< 13)
  let g := g ^^^ (g >>> 7)
  let g := g ^^^ (g <<< 17)
  (g, (g >>> 32).toNat)

/-! ## Floating-point values (R70-R73) -/

/-- A decoded value. -/
inductive FVal where
  | nan
  | inf (neg : Bool)
  | fin (neg : Bool) (m : Nat) (e : Int)
deriving DecidableEq, Repr

/-- A floating-point format (Table 32): exponent bits, fraction bits, bias; E4M3 has no infinity (R71). -/
structure FFmt where
  e : Nat
  m : Nat
  bias : Nat
  noInf : Bool := false
deriving DecidableEq, Repr

def fmtF80 : FFmt := { e := 15, m := 64, bias := 16383 }
def fmtF40 : FFmt := { e := 9, m := 30, bias := 255 }
def fmtFP32 : FFmt := { e := 8, m := 23, bias := 127 }
def fmtFP16 : FFmt := { e := 5, m := 10, bias := 15 }
def fmtBF16 : FFmt := { e := 8, m := 7, bias := 127 }
def fmtE5M2 : FFmt := { e := 5, m := 2, bias := 15 }
def fmtE4M3 : FFmt := { e := 4, m := 3, bias := 7, noInf := true }

/-- The value of an encoding (R70, R71). -/
def FFmt.decode (f : FFmt) (x : Nat) : FVal :=
  let s := bit x (f.m + f.e)
  let ex := fld x f.m f.e
  let fr := fld x 0 f.m
  if ex = 2 ^ f.e - 1 ∧ !f.noInf then if fr = 0 then .inf s else .nan
  else if f.noInf ∧ ex = 2 ^ f.e - 1 ∧ fr = 2 ^ f.m - 1 then .nan
  else if ex = 0 then .fin s fr (1 - f.bias - f.m)
  else .fin s (2 ^ f.m + fr) (ex - f.bias - f.m)

/-- The sign bit's weight, the canonical NaN, infinity and the greatest finite magnitude of a format (R73, Table 33). -/
def FFmt.sign (f : FFmt) (neg : Bool) : Nat := if neg then 2 ^ (f.m + f.e) else 0
def FFmt.cnan (f : FFmt) : Nat :=
  if f.noInf then 2 ^ (f.m + f.e) - 1 else (2 ^ f.e - 1) * 2 ^ f.m + 2 ^ (f.m - 1)
def FFmt.infBits (f : FFmt) : Nat := (2 ^ f.e - 1) * 2 ^ f.m
def FFmt.maxBits (f : FFmt) : Nat := if f.noInf then 2 ^ (f.m + f.e) - 2 else f.infBits - 1

/-- The result of an overflow (Table 38). -/
def FFmt.overflow (f : FFmt) (md : Rnd) (neg : Bool) : Nat :=
  let big :=
    if f.noInf then f.maxBits
    else
      match md with
      | .rne => f.infBits
      | .rna => f.infBits
      | .rtz => f.maxBits
      | .sr => f.maxBits
      | .rup => if neg then f.maxBits else f.infBits
      | .rdn => if neg then f.infBits else f.maxBits
  f.sign neg + big

/-- Numerator and denominator of m * 2^e in units of 2^q. -/
def scaled (m : Nat) (e q : Int) : Nat × Nat :=
  if q ≤ e then (m * 2 ^ (e - q).toNat, 1) else (m, 2 ^ (q - e).toNat)

/-- The exponent of the leading bit of m / d. -/
def topBit (m d : Nat) : Int :=
  let k : Int := (Nat.log2 m : Int) - Nat.log2 d
  let (num, den) := scaled m 0 k
  if d * den ≤ num then k else k - 1

/-- The value (m / d) * 2^e rounded into a format, with its flags (R79, R80). -/
def FFmt.roundFin (f : FFmt) (md : Rnd) (u : Nat) (neg : Bool) (m : Nat) (e : Int) (d : Nat := 1) : Nat × Flags :=
  if m = 0 then (f.sign neg, 0)
  else
    let top : Int := e + topBit m d
    let q : Int := max (top - f.m) (1 - f.bias - f.m)
    let (num, den) := scaled m e q
    let n := roundMag md neg num (den * d) u
    let inexact := num % (den * d) != 0
    let n' := if n = 2 ^ (f.m + 1) then 2 ^ f.m else n
    let q' := if n = 2 ^ (f.m + 1) then q + 1 else q
    let ex := if n' < 2 ^ f.m then 0 else (q' + f.m + f.bias).toNat
    let mag := ex * 2 ^ f.m + n' % 2 ^ f.m
    if f.maxBits < mag then (f.overflow md neg, flagOver ||| flagInexact)
    else
      (f.sign neg + mag,
       flagIf inexact flagInexact ||| flagIf (inexact && decide (top < 1 - f.bias)) flagUnder)

/-- A value rounded into a format (R79, R80, R88). -/
def FFmt.round (f : FFmt) (md : Rnd) (u : Nat) : FVal → Nat × Flags
  | .nan => (f.cnan, 0)
  | .inf neg => if f.noInf then (f.cnan, flagInvalid) else (f.sign neg + f.infBits, 0)
  | .fin neg m e => f.roundFin md u neg m e

/-! ## Arithmetic on values (R80, R86) -/

/-- The signed magnitude of a finite value in units of 2^q, for q at most its exponent. -/
def signedAt (neg : Bool) (m : Nat) (e q : Int) : Int :=
  let n : Int := (m * 2 ^ (e - q).toNat : Nat)
  if neg then -n else n

/-- The sum of two finite values; an exact zero from opposite signs is +0, or -0 under RDN (R80). -/
def finAdd (md : Rnd) (s : Bool) (m : Nat) (e : Int) (t : Bool) (n : Nat) (d : Int) : FVal :=
  let q := min e d
  let x := signedAt s m e q + signedAt t n d q
  if x = 0 then .fin (if s = t then s else decide (md = .rdn)) 0 0
  else .fin (decide (x < 0)) x.natAbs q

/-- a + b, exact, with the flag of an invalid operation (R86). -/
def FVal.add (md : Rnd) : FVal → FVal → FVal × Flags
  | .nan, _ => (.nan, 0)
  | _, .nan => (.nan, 0)
  | .inf s, .inf t => if s = t then (.inf s, 0) else (.nan, flagInvalid)
  | .inf s, .fin .. => (.inf s, 0)
  | .fin .., .inf t => (.inf t, 0)
  | .fin s m e, .fin t n d => (finAdd md s m e t n d, 0)

/-- a * b, exact, with the flag of an invalid operation (R86). -/
def FVal.mul : FVal → FVal → FVal × Flags
  | .nan, _ => (.nan, 0)
  | _, .nan => (.nan, 0)
  | .inf s, .inf t => (.inf (xor s t), 0)
  | .inf s, .fin t n _ => if n = 0 then (.nan, flagInvalid) else (.inf (xor s t), 0)
  | .fin s m _, .inf t => if m = 0 then (.nan, flagInvalid) else (.inf (xor s t), 0)
  | .fin s m e, .fin t n d => (.fin (xor s t) (m * n) (e + d), 0)

/-- -a and the magnitude of a. -/
def FVal.neg : FVal → FVal
  | .nan => .nan
  | .inf s => .inf (!s)
  | .fin s m e => .fin (!s) m e
def FVal.abs : FVal → FVal
  | .nan => .nan
  | .inf _ => .inf false
  | .fin _ m e => .fin false m e

/-- Whether a value is a NaN, and its sign bit. -/
def FVal.isNan : FVal → Bool
  | .nan => true
  | _ => false
def FVal.isNeg : FVal → Bool
  | .nan => false
  | .inf s => s
  | .fin s _ _ => s

/-- a < b for values that are no NaN, as numbers. -/
def FVal.lt : FVal → FVal → Bool
  | .inf s, .inf t => s && !t
  | .inf s, .fin .. => s
  | .fin .., .inf t => !t
  | .fin s m e, .fin t n d => let q := min e d; decide (signedAt s m e q < signedAt t n d q)
  | _, _ => false

/-- a < b with -0 below +0, as MIN and MAX order values (R86). -/
def FVal.ordLt (a b : FVal) : Bool := a.lt b || !b.lt a && a.isNeg && !b.isNeg

/-- Whether a value is zero. -/
def FVal.isZero : FVal → Bool
  | .fin _ m _ => m == 0
  | _ => false

/-- An integer as a value. -/
def FVal.ofInt (x : Int) : FVal := .fin (decide (x < 0)) x.natAbs 0

/-- m * 2^e rounded to an integer, and whether that changed the value (R79). -/
def roundInt (md : Rnd) (u : Nat) (neg : Bool) (m : Nat) (e : Int) : Int × Bool :=
  let (num, den) := scaled m e 0
  let n : Int := (roundMag md neg num den u : Nat)
  (if neg then -n else n, num % den != 0)

/-- An integer clamped to a range. -/
def clamp (lo hi x : Int) : Int := if x < lo then lo else if hi < x then hi else x

/-- A value converted to an integer of a range (R88, Table 41). -/
def FVal.toInt (md : Rnd) (u : Nat) (lo hi : Int) : FVal → Int × Flags
  | .nan => (0, flagInvalid)
  | .inf neg => (if neg then lo else hi, flagInvalid ||| flagSat)
  | .fin neg m e =>
    let r := roundInt md u neg m e
    if lo ≤ r.1 ∧ r.1 ≤ hi then (r.1, flagIf r.2 flagInexact) else (clamp lo hi r.1, flagInvalid ||| flagSat)

/-- An integer result clamped to a range, with SAT (Table 41); an exact value that is clamped raises no INEXACT (log 48). -/
def saturate (lo hi x : Int) : Int × Flags := (clamp lo hi x, flagIf (decide (clamp lo hi x ≠ x)) flagSat)

/-! ## Block formats (R74-R77) -/

/-- The value of an E5M3 scale byte (R77). -/
def e5m3 (c : Nat) : FVal :=
  if c = 0xFF then .nan
  else if c / 8 = 0 then .fin false (c % 8) (-17)
  else .fin false (8 + c % 8) (c / 8 - 18)

/-- The value of an MXINT element of n bits before scaling (R74). -/
def mxint (n q : Nat) : FVal := let x := sext n q; .fin (decide (x < 0)) x.natAbs (2 - n)

/-- A value rounded into E5M3 (Table 41): overflow gives the greatest scale. -/
def toE5m3 (md : Rnd) (u : Nat) : FVal → Nat × Flags
  | .nan => (0xFF, 0)
  | .inf neg => if neg then (0, flagInvalid) else (0xFF, 0)
  | .fin neg m e =>
    if m = 0 then (0, 0)
    else if neg then (0, flagInvalid)
    else
      let r := ({ e := 5, m := 3, bias := 15, noInf := true } : FFmt).roundFin md u false m e
      if r.2 &&& flagOver ≠ 0 then (0xFE, flagOver ||| flagInexact) else r

/-- x / s as R86 and R166 form it: a NaN, an infinity, or a quotient (m / d) * 2^e. -/
inductive Quot2 where
  | nan
  | inf (neg : Bool)
  | fin (neg : Bool) (m d : Nat) (e : Int)
deriving DecidableEq, Repr

/-- A value divided by a scale (R166): a zero scale gives an infinity, or a NaN for a zero value. -/
def FVal.divScale (x s : FVal) : Quot2 × Flags :=
  match x, s with
  | .nan, _ => (.nan, 0)
  | _, .nan => (.nan, 0)
  | .inf neg, _ => (.inf neg, 0)
  | .fin neg m e, .fin _ n d =>
    if n = 0 then if m = 0 then (.nan, flagInvalid) else (.inf neg, 0)
    else (.fin neg m n (e - d), 0)
  | .fin neg _ _, .inf _ => (.fin neg 0 1 0, 0)

/-- A quotient rounded into a floating-point format (Table 41). -/
def Quot2.toFloat (f : FFmt) (md : Rnd) (u : Nat) : Quot2 → Nat × Flags
  | .nan => (f.cnan, 0)
  | .inf neg => if f.noInf then (f.cnan, flagInvalid) else (f.sign neg + f.infBits, 0)
  | .fin neg m d e => f.roundFin md u neg m e d

/-- A quotient as an MXINT element of n bits (Table 41). -/
def Quot2.toMxint (n : Nat) (md : Rnd) (u : Nat) : Quot2 → Int × Flags
  | .nan => (0, flagInvalid)
  | .inf neg => (if neg then -(2 ^ (n - 1)) else 2 ^ (n - 1) - 1, flagInvalid ||| flagSat)
  | .fin neg m d e =>
    let (num, den) := scaled m (e + (n - 2 : Int)) 0
    let r : Int := (roundMag md neg num (den * d) u : Nat)
    let v := saturate (-(2 ^ (n - 1))) (2 ^ (n - 1) - 1) (if neg then -r else r)
    (v.1, v.2 ||| flagIf (num % (den * d) != 0) flagInexact)

end Sys2Proof.Machine
end

