-- ==== Sys2Proof/Machine/Tiles.lean ====
section
/-! DEFINITION. The tile stores (05 R135-R137): rows, lanes, modes and status words; loop sets (07 R229). -/

namespace Sys2Proof.Machine

/-! ## Rows and lanes (05 R135) -/

/-- Lanes of a row and bits of a lane, by mode. -/
def laneCount (split : Bool) : Nat := if split then 256 else 128
def laneBits (split : Bool) : Nat := if split then 40 else 80

/-- The lanes of a row, lane 0 first. -/
def rowLanes (split : Bool) (r : Row) : List Nat :=
  (List.range (laneCount split)).map fun l => fld r.toNat (laneBits split * l) (laneBits split)

/-- A row from its lanes. -/
def lanesRow (split : Bool) (ls : List Nat) : Row :=
  BitVec.ofNat 10240 (ls.foldr (fun x acc => x % 2 ^ laneBits split + 2 ^ laneBits split * acc) 0)

/-- The number of vector tile n among the tiles; accumulator tiles come first. -/
def vtile (n : Nat) : Nat := 32 + n

/-- Row r of a tile. -/
def Tiles.rowAt (t : Tiles) (tile r : Nat) : Row := Sparse.get 0 t.rows (128 * tile + r)
def Tiles.setRow (t : Tiles) (tile r : Nat) (v : Row) : Tiles := { t with rows := Sparse.putD 0 t.rows (128 * tile + r) v }

/-- Mode and status word of a tile. -/
def Tiles.infoAt (t : Tiles) (tile : Nat) : TileMeta := Sparse.get {} t.info tile
def Tiles.setInfo (t : Tiles) (tile : Nat) (v : TileMeta) : Tiles := { t with info := Sparse.putD {} t.info tile v }

/-- Flags merged into a tile's status word (03 R87). -/
def Tiles.merge (t : Tiles) (tile : Nat) (f : Flags) : Tiles :=
  t.setInfo tile { (t.infoAt tile) with status := (t.infoAt tile).status ||| f }

/-- Tile t is zero in every row, and its errors are gone. -/
def Tiles.zero (t : Tiles) (tile : Nat) : Tiles :=
  { t with
    rows := t.rows.filter fun p => p.1 / 128 != tile
    bad := t.bad.filter (·.1 != tile) }

/-- The rows of tile t in error are written with zero and INVALID is set (06 R205). -/
def Tiles.giveUp (t : Tiles) (tile : Nat) : Tiles :=
  let bad := (t.bad.filter (·.1 == tile)).map (·.2)
  let t := bad.foldl (fun (x : Tiles) r => x.setRow tile r 0) t
  { (t.merge tile flagInvalid) with bad := t.bad.filter (·.1 != tile) }

/-- The bytes of a row (05 R135). -/
def rowBytes (r : Row) : List Byte := leBytes 1280 r.toNat

/-! ## Loop sets (07 R229) -/

/-- Bound and stride of dimension d, and the base. -/
def LoopSet.bound (l : LoopSet) (d : Nat) : Nat := fld (l.words.getD (d + 1) 0).toNat 0 32
def LoopSet.stride (l : LoopSet) (d : Nat) : Int := sext 32 (fld (l.words.getD (d + 1) 0).toNat 32 32)
def LoopSet.base (l : LoopSet) : Word := l.words.getD 0 0

/-- The trip count of a loop set. -/
def LoopSet.trips (l : LoopSet) : Nat := (List.range 6).foldl (fun n d => n * l.bound d) 1

/-- The sum of index times stride for iteration t, dimension 0 innermost. -/
def LoopSet.offset (l : LoopSet) (t : Nat) : Int :=
  ((List.range 6).foldl (fun (acc : Int × Nat) d =>
    let n := l.bound d
    (acc.1 + (acc.2 % n : Nat) * l.stride d, acc.2 / n)) (0, t)).1

end Sys2Proof.Machine
end

