-- ==== Sys2Proof/Machine/Ops.lean ====
section
/-! DEFINITION. The shared operations: the strand, the engine counters, stopping and resuming a task, taking a trap as one
operation, and issuing a word. -/

namespace Sys2Proof.Machine

/-! ## How a word ends -/

/-- A word that does not complete: it waits and has issued nothing (02 R35, 04 R97), it waits with its arrival recorded
(12 R378), it traps with no effect (02 R58), it traps with the effects its statement lists as surviving (00 R10), it meets an
accumulator tile that cannot be rebuilt (06 R205), it retires and traps at the next word (10 R305, R323), it waits at an order
gate (14 R410), or the model stops. -/
inductive Stop where
  | wait
  | waitWith
  | trap (t : Trap)
  | trapAfter (t : Trap)
  | trapTile (tile : Nat)
  | trapNext (t : Trap)
  | gate (loc : Nat)
  | fault (f : Fault)
deriving DecidableEq, Repr

/-- The body of a word. -/
abbrev M := EStateM Stop State

/-- The word waits. -/
def await {α : Type} : M α := throw .wait

/-- The word traps and has no effect. -/
def trap {α : Type} (c : Cause) : M α := throw (.trap { cause := c })

/-- The word waits unless b. -/
def needs (b : Bool) : M PUnit := if b then pure () else await

/-- The word traps if b. -/
def trapIf (b : Bool) (c : Cause) : M PUnit := if b then trap c else pure ()

/-- The current core. -/
def here : M Core := do return (← get).here

/-- The current core is changed. -/
def onHere (f : Core → Core) : M PUnit := modify fun s => s.setHere (f s.here)

/-- A fresh value of a free source (log 4). -/
def freshNat : M Nat := do
  let s ← get
  set { s with fresh := s.fresh + 1 }
  return s.fresh

/-! ## Engines of a core -/

/-- Counter, nest and parameter writes of an engine. -/
def Core.ctr (c : Core) : Engine → Counter
  | .s => c.sc.ctr | .v => c.vec.ctr | .m => c.mat.ctr | .x => c.cpy.ctr

def Core.setCtr (c : Core) (e : Engine) (v : Counter) : Core :=
  match e with
  | .s => { c with sc := { c.sc with ctr := v } }
  | .v => { c with vec := { c.vec with ctr := v } }
  | .m => { c with mat := { c.mat with ctr := v } }
  | .x => { c with cpy := { c.cpy with ctr := v } }

def Core.nest (c : Core) : Engine → Option Nest
  | .s => none | .v => c.vec.nest | .m => c.mat.nest | .x => c.cpy.nest

def Core.setNest (c : Core) (e : Engine) (v : Option Nest) : Core :=
  match e with
  | .s => c
  | .v => { c with vec := { c.vec with nest := v } }
  | .m => { c with mat := { c.mat with nest := v } }
  | .x => { c with cpy := { c.cpy with nest := v } }

def Core.params (c : Core) : Engine → List ParamWrite
  | .s => [] | .v => c.hand.pv | .m => c.hand.pm | .x => c.hand.px

def Core.setParams (c : Core) (e : Engine) (v : List ParamWrite) : Core :=
  match e with
  | .s => c
  | .v => { c with hand := { c.hand with pv := v } }
  | .m => { c with hand := { c.hand with pm := v } }
  | .x => { c with hand := { c.hand with px := v } }

/-- Walk index and address of the word an engine stands at: in a nest, the body word (02 R31, R45). -/
def Core.at_ (c : Core) (e : Engine) : Nat × Word :=
  let k := c.ctr e
  match c.nest e with
  | none => (k.walk, k.addr)
  | some n => (k.walk + 1 + n.pos, k.addr + word (4 * (1 + n.pos)))

/-- Where an engine's counter stands (02 R31, R33): beyond a word that has retired once the scalar counter is there. -/
def Core.place (c : Core) (e : Engine) : Nat :=
  match (c.ctr e).next with
  | some p => if p.1 ≤ c.sc.ctr.walk then p.1 else (c.ctr e).walk
  | none => (c.ctr e).walk

/-- The lowest walk index of the three engines behind (02 R36). -/
def Core.slowest (c : Core) : Nat := min (c.place .v) (min (c.place .m) (c.place .x))

/-- Whether the slip stays within k.SLIPW (02 R36): otherwise the scalar counter has not advanced to its word. -/
def Core.slipOk (c : Core) : Bool := decide (c.sc.ctr.walk - c.slowest ≤ c.sc.k.slipw)

/-- Whether the scalar counter stands at walk index j or later, for a word of another engine (02 R33): the index it stands at
counts while the slip allows it (R36) and no landing is due there, at which no engine issues (04 R134). -/
def Core.stands (c : Core) (j : Nat) : Bool :=
  decide (j < c.sc.ctr.walk) || (decide (j = c.sc.ctr.walk) && c.slipOk && !c.sc.landing)

/-- The first walk index whose word engine e has not executed (02 R31): beyond its counter when that one's word has
retired. -/
def Core.front (c : Core) (e : Engine) : Nat := match (c.ctr e).next with | some p => p.1 | none => (c.ctr e).walk

/-! ## The strand -/

/-- One item lands (04 R94). -/
def landOne (strand : List Word) (x : Word) : List Word := (x :: strand).take 32

/-- Items land in the order listed; the last becomes s0 (04 R95). -/
def landAll (strand items : List Word) : List Word := items.foldl landOne strand

/-- Every result due at or before beat m lands, in the order in which the words issued (04 R95). -/
def Scalar.landUpTo (c : Scalar) (m : Nat) : Scalar :=
  { c with
    strand := (c.flight.filter fun f => decide (f.due ≤ m)).foldl (fun st f => landAll st f.items) c.strand
    flight := c.flight.filter fun f => !decide (f.due ≤ m) }

/-- Whether the data of every load due at or before beat m has arrived (04 R97). -/
def Scalar.arrivedBy (c : Scalar) (m : Nat) : Bool := c.flight.all fun f => f.src.isNone || decide (m < f.due)

/-- The results due at the present beat land, once the data of each load among them has arrived (04 R95, R97). -/
def Scalar.settle (c : Scalar) : Scalar := if c.arrivedBy c.beat then c.landUpTo c.beat else c

/-- The beat advances by one and the results due land (04 R95, R108). -/
def Scalar.tick (c : Scalar) : Scalar := ({ c with beat := c.beat + 1 } : Scalar).settle

/-- Results in flight, the load at walk index w among them with its item. -/
def fillFlight (w : Nat) (x : Word) (l : List InFlight) : List InFlight :=
  l.map fun f => if f.src = some w then { f with items := [x], src := none } else f

/-- The data of the load at walk index w has arrived: its item flies, and lands at its beat (04 R97). -/
def Scalar.arrive (c : Scalar) (w : Nat) (x : Word) : Scalar :=
  ({ c with
    flight := fillFlight w x c.flight
    loads := (c.loads.filter fun l => l.walk != w).map fun l =>
      { l with back := { l.back with flight := fillFlight w x l.back.flight } } } : Scalar).settle

/-- The scalar engine back at the oldest load whose data has not arrived, as a stop leaves it: that word and the later ones
have not retired (04 R99, R101). -/
def Scalar.undo (c : Scalar) : Scalar :=
  match c.loads with
  | [] => c
  | l :: _ =>
    let b := l.back
    { c with ctr := b.ctr, strand := b.strand, flight := b.flight, beat := b.beat, targets := b.targets, landing := b.landing,
             loads := [] }

/-- At TEXIT the results in flight land, as though the beats had passed (04 R95). -/
def Scalar.landRest (c : Scalar) : Scalar := (List.range 13).foldl (fun (x : Scalar) i => x.landUpTo (c.beat + i)) c

/-- Items dropped at issue beat + lat (04 R96). -/
def Scalar.drop (c : Scalar) (lat : Nat) (items : List Word) : Scalar :=
  if items.isEmpty then c else { c with flight := c.flight ++ [{ due := c.beat + lat, items := items }] }

/-- Strand position n; an unwritten position raises OPERAND (04 R98). -/
def item (n : BitVec 5) : M Word := do
  match (← here).sc.strand[n.toNat]? with
  | some x => return x
  | none => trap .operand

/-! ## Parameter writes (02 R37) -/

/-- The seeds of R83 (03). -/
def vecSeed (v : Word) : BitVec 64 := if v = 0 then 1 else v
def matSeed (v : Word) : BitVec 64 := if v ^^^ 0xA5A5A5A5A5A5A5A5 = 0 then 1 else v ^^^ 0xA5A5A5A5A5A5A5A5

/-- A loop word set (07 R229). -/
def LoopSet.setWord (l : LoopSet) (i : Nat) (v : Word) : LoopSet := { words := l.words.set i v }
def setLoop (ls : List LoopSet) (i w : Nat) (v : Word) : List LoopSet := ls.set i ((ls.getD i {}).setWord w v)

/-- The matrix generator is seeded; an open window keeps that for its replay (03 R83, R84). -/
def Mat.seed (m : Mat) (v : Word) : Mat :=
  { m with gen := matSeed v, win := m.win.map fun w => { w with seeds := w.seeds ++ [(w.entries.length, matSeed v)] } }

/-- A parameter write applied to its engine (02 R37, 04 R105, 03 R83). -/
def Core.applyParam (c : Core) (e : Engine) (p : Param) : Core :=
  match e, p with
  | .v, .loopWord i w v => { c with vec := { c.vec with loops := setLoop c.vec.loops i w v } }
  | .v, .portWord i v => { c with vec := { c.vec with words := c.vec.words.set i v } }
  | .v, .kreg n v =>
    if n = 0x100 then { c with vec := { c.vec with vlen := v.toNat } }
    else if n = 0x101 then { c with vec := { c.vec with vtype := v.setWidth 11 } }
    else if n = 0x102 then { c with vec := { c.vec with vguard := v.setWidth 3 } }
    else if n = 0x103 then { c with vec := { c.vec with rrb := v.toNat } }
    else if n = 0x011 then { c with vec := { c.vec with gen := vecSeed v } }
    else c
  | .v, .handle h q => { c with vec := { c.vec with handles := c.vec.handles.set h (some q) } }
  | .m, .loopWord i w v => { c with mat := { c.mat with loops := setLoop c.mat.loops i w v } }
  | .m, .kreg n v =>
    if n = 0x200 then { c with mat := { c.mat with assayN := v.toNat, count := 0 } }
    else if n = 0x020 then { c with mat := { c.mat with pin := v.toNat == 1 } }
    else if n = 0x011 then { c with mat := c.mat.seed v }
    else c
  | .x, .loopWord i w v => { c with cpy := { c.cpy with loops := setLoop c.cpy.loops i w v } }
  | .x, .descWord d w v => { c with cpy := { c.cpy with descs := c.cpy.descs.set d ((c.cpy.descs.getD d []).set w v) } }
  | .x, .handle h q => { c with cpy := { c.cpy with handles := c.cpy.handles.set h (some q) } }
  | _, _ => c

/-- The parameter writes made below walk index w are applied to engine e (02 R37). -/
def Core.applyParams (c : Core) (e : Engine) (w : Nat) : Core :=
  ((c.params e).filter fun p => decide (p.walk < w)).foldl (fun c p => c.applyParam e p.param)
    (c.setParams e ((c.params e).filter fun p => !decide (p.walk < w)))

/-- Whether an access before walk index w may be to come: in the request path, of a word ahead, of a copy word in flight, of a
load. -/
def Core.owes (c : Core) (w : Nat) : Bool :=
  (c.req.path.any fun p => decide (p.acc.walk < w)) || (c.req.ahead.any fun a => decide (a.walk < w))
    || (c.cpy.runs.any fun r => decide (r.walk < w)) || c.sc.loads.any fun l => decide (l.walk < w)

/-- A fence that holds nothing any more leaves the request path (09 R283). -/
def Core.trimFences (c : Core) : Core :=
  { c with req := { c.req with fences := c.req.fences.filter fun f => f.bar.isSome || c.owes f.walk } }

/-- What no engine needs any more is forgotten: the walk behind the slowest engine, the words ahead that are done. -/
def Core.prune (c : Core) : Core :=
  let low := c.slowest
  ({ c with
    hand := { c.hand with trail := c.hand.trail.filter fun p => decide (low ≤ p.1) }
    req := { c.req with ahead := c.req.ahead.filter fun a => decide (c.front a.eng ≤ a.walk) } } : Core).trimFences

/-- Engine e goes on to walk index w at address a. -/
def Core.moveTo (c : Core) (e : Engine) (w : Nat) (a : Word) : Core :=
  ((c.setCtr e { walk := w, addr := a, stop := false }).applyParams e w).prune

/-- Engine e has executed its word and goes on to walk index w at address a, when the scalar counter stands there or later:
no counter is ever ahead of the scalar counter (02 R33). -/
def Core.goTo (c : Core) (e : Engine) (w : Nat) (a : Word) : Core :=
  if w ≤ c.sc.ctr.walk then c.moveTo e w a else (c.setCtr e { c.ctr e with next := some (w, a) }).prune

/-- An engine that waits for the scalar counter moves when that stands where it goes (02 R33). -/
def Core.catchOne (c : Core) (e : Engine) : Core :=
  match (c.ctr e).next with
  | some (w, a) => if w ≤ c.sc.ctr.walk then c.moveTo e w a else c
  | none => c

/-! ## Stopping a task (12 R379, R383) -/

/-- The status word of a stop (12 Table 138). -/
def statusWord (code retry engine cause resume : Nat) : Word :=
  word (code % 2 ^ 16 * 2 ^ 32 + retry % 256 * 2 ^ 24 + engine * 2 ^ 14 + cause * 2 ^ 8 + resume)

/-- k.STAGE and k.SPAN of a job (01 R22, 04 R106, R107). -/
def Job.stage (j : Job) : Nat := j.pos / (j.count / j.stages)
def Job.index (j : Job) : Nat := j.pos % (j.count / j.stages)
def Job.spanWord (j : Job) : Word := word (j.stages * 2 ^ 24 + j.count * 2 ^ 12 + j.pos)
def Job.stageWord (j : Job) : Word := word (j.index * 16 + j.stage)

/-- The coordinate of a core (01 Table 12): the model numbers cores by it. -/
def coordinate (k : Nat) : Nat := k

/-- The cut header of a stopped task (12 Table 138). -/
def cutHeader (k : Nat) (c : Core) (pos : Nat × Word) (status : Word) (t : Trap) : List Word :=
  [status, c.job.handle, word pos.1, pos.2,
    (match t.flash with | some a => a | none => match t.fault with | some f => f.1 | none => c.sc.f.faddr),
    (match t.fault with | some f => f.2.setWidth 64 | none => 0),
    c.job.wbAddr,
    word (c.job.stage * 2 ^ 44 + c.job.pos * 2 ^ 32 + coordinate k)]

/-- The action entry of a context and cause (12 R381). -/
def State.actionEntry (s : State) (ctx cause : Nat) : Nat :=
  (s.dword (s.sched.actbase.toNat + 512 * ctx + 8 * cause)).toNat

/-- Whether an action entry sets no reserved bit; with one it acts as PARK (12 R381). -/
def actionOk (a : Nat) : Bool := fld a 56 6 == 0 && fld a 44 4 == 0 && fld a 0 32 == 0

/-- RETRY of a stop: counted under REPLAY, 0 otherwise (12 R381, 16 Table 176). -/
def State.retryOf (s : State) (c : Core) (cause : Cause) (walk : Nat) : Nat :=
  let a := s.actionEntry c.job.ctx cause.code
  if !actionOk a || fld a 62 2 != 1 then 0
  else if c.stop.cause = cause ∧ c.stop.walk = walk then c.stop.retry + 1
  else 1

/-- What a stop keeps of a payment: a word's toll is spent (06 R190); a reservation that was granted stays granted. -/
def Mat.keptPaid (m : Mat) : Option Nat := if m.paid = some 0 then some 0 else none

/-- The task of core k stops with its cut in place: loads and copies that have not retired are undone (for the scalar engine
the position is then that of the oldest load), the stop is recorded,
the fault registers and k.CAUSE are written, the toll reservation returns and is owed (12 R379, R383, 04 R101, 07 R233,
08 R258, 11 R330, 06 R191). -/
def State.recordStop (s : State) (k : Nat) (e : Engine) (pos : Nat × Word) (t : Trap) : State :=
  let c := (s.core k).cutCopies
  let late := !c.sc.loads.isEmpty
  let c := { c with sc := c.sc.undo }
  let pos := if e = .s ∧ late then c.at_ .s else pos
  let retry := s.retryOf c t.cause pos.1
  let status := statusWord t.code retry e.tag t.cause.code 0
  let f := match t.fault with
    | some x => { c.sc.f with faddr := x.1, finfo := x.2 }
    | none => c.sc.f
  let f := match t.flash with
    | some x => { f with fladdr := x }
    | none => f
  let s := ((s.withdrawTolls k).returnTolls (clusterOf k) c.mat.resv).leaveGates k
  s.setCore k { c with
    run := .parked
    sc := { c.sc with f := { f with cause := status }, pend := none, barrier := none }
    mat := { c.mat with resv := 0, owed := c.mat.owed + c.mat.resv, asked := none, paid := c.mat.keptPaid }
    stop := { header := cutHeader k c pos status t, cause := t.cause, walk := pos.1, retry := retry, code := t.code } }

/-- The words of the walk that are read again after a resumption, the text cache being empty (02 R30). -/
def Core.staleText (c : Core) : Core :=
  let old := fun (n : Option Nest) => n.map fun x => { x with stale := true }
  { c with
    text := []
    hand := { c.hand with trail := c.hand.trail.map fun p => match p.2 with | .word _ a => (p.1, .again a) | _ => p }
    vec := { c.vec with nest := old c.vec.nest }
    mat := { c.mat with nest := old c.mat.nest }
    cpy := { c.cpy with nest := old c.cpy.nest } }

/-- The task of core k goes on from its cut: caches start empty (12 R381, R384, 02 R30, 04 R110). -/
def State.resume (s : State) (k : Nat) : State :=
  let c := (s.core k).staleText
  s.setCore k { c with run := .running, lastIssue := s.stamp, sc := { c.sc with dcache := [] } }

/-- The action of R381 for the stop recorded in core c, of entry e when it has one: `go` resumes the task, `kill` ends its
instance. -/
def State.actOn (s : State) (c : Core) (e : Option Nat) (go kill : State → State) : State :=
  let a := s.actionEntry c.job.ctx c.stop.cause.code
  let s := match e with
    | some e => s.recordAction e c.job.recmode c.sc.f.cause
    | none => s
  if !actionOk a then s
  else if fld a 62 2 = 0 then kill s
  else if fld a 62 2 = 1 then if c.stop.retry ≤ fld a 48 8 then go s else kill s
  else if fld a 62 2 = 2 then s
  else if s.registered (fld a 32 12) c.job.ctx then
    s.post { serai := fld a 32 12, source := 4, payload := c.stop.header }
  else s

/-- The action of R381 for the stop recorded on core k. -/
def State.act (s : State) (k : Nat) : State :=
  let c := s.core k
  s.actOn c ((s.instOf k).map (·.1)) (fun t => t.resume k) fun t => match s.instOf k with
    | some (e, i) => t.killInst e i c.stop.cause
    | none => t.clearCore k

/-! ## Remote functions end (10 R317-R321) -/

/-- The number of a call's target: a bank unit, a traversal core, a core. -/
def Call.place (c : Call) : Nat := if c.kind = 0 then c.target else if c.kind = 1 then 2048 + c.target else 4096 + c.target

/-- A reply is stored in its target's reply cache and sent (10 R320, R321). -/
def State.sendReply (s : State) (id : Nat) (st : SlotState) (cause : Nat) (sat : Bool) (items : List Word) : State :=
  match s.remote.calls.find? fun p => p.1 == id with
  | none => s
  | some (_, c) =>
    let r : Reply := {
      caller := c.caller, slot := c.slot, inst := c.inst, id := c.id, stamp := c.stamp, st := st, cause := cause,
      sat := sat, cached := false, items := items, count := items.length, sent := s.stamp, target := c.place }
    { s with remote := { s.remote with
        calls := s.remote.calls.drop id
        replies := s.remote.replies.put s.remote.next r
        next := s.remote.next + 1
        cache := s.remote.cache.map fun x =>
          if x.target == c.place && x.ctx == c.ctx && x.id == c.id then
            { x with reply := some (st, cause, sat, items, items.length) } else x } }

/-- The runner with key k ends its function; a trap of its core that waited for the end takes its action (10 R317). -/
def State.endRunner (s : State) (k : Nat) (st : SlotState) (cause : Nat) (items : List Word) : State :=
  match (s.core k).runner with
  | none => s
  | some r =>
    let s := (s.sendReply r.call st cause false items).setCore k {}
    if 512 ≤ k ∧ k < 1024 ∧ (s.core (k - 512)).deferred ∧ !(s.core (k - 512)).gated then
      (s.setCore (k - 512) { (s.core (k - 512)) with deferred := false }).act (k - 512)
    else s

/-! ## Taking a trap -/

/-- One ASSAY, HALLMARK or UNCORR counted on the die of its consumer (14 R418, R420). -/
def State.countTrap (s : State) (k : Nat) (c : Cause) : State :=
  let d := dieOf (k % 512)
  if c = .assay then
    let x := s.counters d
    s.setCounters d { x with assays := x.assays + 1, recent := s.stamp :: x.recent }
  else s.countBad d c

/-- Taking a trap: the task of core k stops with its cut at pos, its status word, k.CAUSE and fault registers are written,
and the action table decides (12 R379-R383). A remote function ends with FAULT instead (10 R317); while a call runs on
the core the action waits for its end. -/
def State.takeTrap (s : State) (k : Nat) (e : Engine) (pos : Nat × Word) (t : Trap) : State :=
  let s := s.countTrap k t.cause
  if (s.core k).runner.isSome then s.endRunner k .fault t.cause.code []
  else
    let s' := s.recordStop k e pos t
    if (s.core (runnerKey k)).runner.isSome then s'.setCore k { (s'.core k) with deferred := true }
    else s'.act k

/-- The return from a trap: the parked task of core k goes on from its cut (12 R384); after SCHEDMISS the
stamped word goes on without its stamp condition (06 R187). -/
def State.returnTrap (s : State) (k : Nat) : State :=
  let t := s.resume k
  let c := t.core k
  let late := c.stop.cause == .schedmiss && fld (c.stop.header.getD 0 0).toNat 14 2 == 2
  t.setCore k { c with mat := { c.mat with release := c.mat.release || late } }

/-! ## Issuing a word -/

/-- What a scalar word leaves: its latency and items, and where the walk goes when not to the next word. -/
structure Drop where
  lat : Nat := 1
  items : List Word := []
  target : Option Word := none
  stop : Bool := false
deriving DecidableEq, Repr

/-- Whether a word of engine e cannot trap yet: a load or a copy word before it has not retired, which may trap first (04 R97,
R101, 07 R233). -/
def State.earlierFirst (s : State) (e : Engine) : Bool :=
  e == .s && !s.here.sc.loads.isEmpty || e == .x && !s.here.cpy.runs.all (·.passed)

/-- Where an engine stands when the task stops behind its retired word: the copy engine at its first word in flight
(07 R233). -/
def Core.cutAt (c : Core) (e : Engine) : Nat × Word :=
  match e, c.cpy.runs with
  | .x, r :: _ => (r.walk, r.addr)
  | _, _ => c.at_ e

/-- How the body of engine e's word at `pos` on the current core ends the step; with `hold` a trap waits. -/
def finish (e : Engine) (s : State) (r : EStateM.Result Stop State PUnit) (hold : Bool := s.earlierFirst e)
    (pos : Nat × Word := s.here.at_ e) : Host.Outcome State Fault Refusal :=
  match r with
  | .ok _ t => .next { t with stalled := false }
  | .error .wait _ => .next { s with stalled := true }
  | .error .waitWith t => .next { t with stalled := false }
  | .error (.trap x) t =>
    if hold then .next { s with stalled := true }
    else .next { ({ s with fresh := t.fresh }.takeTrap s.cur e pos x) with stalled := false }
  | .error (.trapTile n) _ =>
    let s := s.setHere { s.here with tiles := s.here.tiles.giveUp n }
    .next { (s.takeTrap s.cur e pos { cause := .uncorr }) with stalled := false }
  | .error (.trapAfter x) t =>
    if hold then .next { s with stalled := true }
    else .next { (t.takeTrap s.cur e pos x) with stalled := false }
  | .error (.trapNext x) t => .next { (t.takeTrap s.cur e (t.here.cutAt e) x) with stalled := false }
  | .error (.gate loc) _ =>
    .next (if s.atGate s.cur loc then { s with stalled := true } else { (s.waitGate s.cur loc) with stalled := false })
  | .error (.fault f) _ => .fault f

/-- Whether the clocks of the core below a call runner are gated (13 R401). -/
def State.gatedBelow (s : State) : Bool := decide (512 ≤ s.cur) && decide (s.cur < 1024) && (s.core (s.cur - 512)).gated

/-- Whether core c's task runs and may issue: not gated, not stopped behind a running call (12 R379, 13 R401, 10 R317). -/
def taskReady (c : Core) : M PUnit := do
  if c.run != .running then throw (.fault .noTask)
  needs (!c.gated && !c.deferred && !(← get).gatedBelow)

/-- The word at which a landing is accepted (04 R134). -/
def isClasp : Instr → Bool
  | .clasp _ => true
  | _ => false

/-- The words that a remote function may hold (10 Table 116). -/
def remoteSubset : Instr → Bool
  | .add .. | .sub .. | .mul .. | .mulh .. | .mulhn .. | .div .. | .divn .. | .rem .. | .remn .. | .and .. | .or ..
  | .xor .. | .andn .. | .shl .. | .shr .. | .sar .. | .rol .. | .ror .. | .min .. | .max .. | .minn .. | .maxn ..
  | .ceq .. | .cne .. | .clt .. | .cltn .. | .cle .. | .clen .. | .clz .. | .ctz .. | .popc .. | .brev .. | .sext8 ..
  | .sext16 .. | .sext32 .. | .sel .. | .addi .. | .andi .. | .ori .. | .xori .. | .shli .. | .shri .. | .sari ..
  | .roli .. | .lit .. | .lits .. | .dup .. | .nop | .stamp | .clasp .. => true
  | .ld _ _ _ _ q _ => !q
  | .st _ _ _ _ l _ => !l
  | .axch _ _ _ o s | .acas _ _ _ _ o s | .aadd _ _ _ o s | .aand _ _ _ o s | .aor _ _ _ o s | .axor _ _ _ o s
  | .amin _ _ _ o s | .amax _ _ _ o s | .aminn _ _ _ o s | .amaxn _ _ _ o s => o == 0 && s == 0
  | .pbr .. | .br .. | .rret .. => true
  | _ => false

/-- The words whose whole effect lies on the strand, in the target registers and in loads: they may issue while the data of
an earlier load is awaited, since a stop can undo them (04 R97, R99). -/
def undoable : Instr → Bool
  | .add .. | .sub .. | .mul .. | .mulh .. | .mulhn .. | .div .. | .divn .. | .rem .. | .remn .. | .and .. | .or ..
  | .xor .. | .andn .. | .shl .. | .shr .. | .sar .. | .rol .. | .ror .. | .min .. | .max .. | .minn .. | .maxn ..
  | .ceq .. | .cne .. | .clt .. | .cltn .. | .cle .. | .clen .. | .clz .. | .ctz .. | .popc .. | .brev .. | .sext8 ..
  | .sext16 .. | .sext32 .. | .sel .. | .addi .. | .andi .. | .ori .. | .xori .. | .shli .. | .shri .. | .sari ..
  | .roli .. | .lit .. | .lits .. | .dup .. | .nop | .stamp | .clasp .. | .pbr .. | .getk .. | .lhash
  | .ld .. | .ldk .. | .tlookFind .. | .tlookClaim .. | .tlookFree .. => true
  | _ => false

/-- Whether the scalar engine may issue word i: its task's, between calls, with the data of every load due at this beat
arrived (04 R97). -/
def scalarMay (i : Instr) : M PUnit := do
  let s ← get
  let c := s.here
  taskReady c
  needs (c.runner.isSome || (s.core (runnerKey s.cur)).runner.isNone)
  needs (!c.sc.ctr.stop && c.sc.pend.isNone && (c.runner.isSome || c.slipOk))
  needs (c.sc.arrivedBy c.sc.beat && (undoable i || c.sc.loads.isEmpty))

/-- What every scalar word meets before its own statement: the engine may issue, the landing check of R134, the checks of
R58; in a remote function the subset and the page of R318. -/
def scalarReady (i : Instr) : M PUnit := do
  scalarMay i
  let c ← here
  match c.runner with
  | none => pure ()
  | some r => trapIf (!(decide (r.page ≤ c.sc.ctr.addr.toNat) && decide (c.sc.ctr.addr.toNat < r.page + r.size))) .protect
  trapIf (c.sc.landing && !isClasp i) .claspmiss
  trapIf (i.illOperand || (c.runner.isSome && !remoteSubset i)) .illword
  trapIf i.resOperand .resbits

/-- The scalar engine retires its word: the items fly, the beat advances, the counter goes on (04 R95, R99, 02 R31). -/
def Core.scalarDone (c : Core) (now : Nat) (d : Drop) : Core :=
  let sc := if d.stop then c.sc.landRest else (c.sc.drop d.lat d.items).tick
  let ctr : Counter :=
    if d.stop then { sc.ctr with stop := true }
    else { walk := sc.ctr.walk + 1, addr := (match d.target with | some a => a | none => sc.ctr.addr + 4), stop := false }
  { c with sc := { sc with ctr := ctr }, lastIssue := now }

/-- A scalar word whose effects stay on the strand (04 R95, R99). -/
def strandWord (i : Instr) (body : M Drop) (s : State) : Host.Outcome State Fault Refusal :=
  finish .s s ((do
    scalarReady i
    let d ← body
    let now := (← get).stamp
    onHere fun c => c.scalarDone now d).run s)

/-- A scalar word with an effect that leaves the engine: the checker core compares it, and a mismatch raises ASSAY before
the word (02 R44, 14 R419, log 20). -/
def leavingWord (i : Instr) (body : M Drop) (s : State) : Host.Outcome State Fault Refusal :=
  finish .s s ((do
    scalarReady i
    let s0 ← get
    let d ← body
    if s0.here.checkerBad then
      set (s0.setHere { s0.here with checkerBad := false })
      throw (Stop.trapAfter { cause := .assay })
    let now := (← get).stamp
    onHere fun c => c.scalarDone now d).run s)

/-! ## Words of the other engines -/

/-- The predicates and the rotation base that step i of a vector nest stands under (05 R155). -/
def Core.nestStep (c : Core) (n : Nest) (i : Nat) : Core :=
  { c with vec := { c.vec with
    rrb := (n.rrb + i) % 16
    preds := (List.range 7).map fun j =>
      if j < n.stages then if j ≤ i ∧ i - j < n.trips then BitVec.allOnes 256 else 0 else c.vec.preds.getD j 0 } }

/-- Engine e's word has retired: the counter goes on, or the nest does (02 R31, R45, 05 R155). -/
def Core.engineDone (c : Core) (e : Engine) (now : Nat) : Core :=
  let c := { c with lastIssue := now }
  let k := c.ctr e
  match c.nest e with
  | none => c.goTo e (k.walk + 1) (k.addr + 4)
  | some n =>
    if n.pos + 1 < n.body.length then c.setNest e (some { n with pos := n.pos + 1 })
    else if n.iter + 1 < n.steps then
      let c := c.setNest e (some { n with pos := 0, iter := n.iter + 1 })
      if e = .v then c.nestStep n (n.iter + 1) else c
    else
      let c := if e = .v then { c with vec := { c.vec with rrb := (n.rrb + n.steps) % 16 } } else c
      (c.setNest e none).goTo e (k.walk + 1 + n.body.length) (k.addr + word (4 * (1 + n.body.length)))

/-- What every vector, matrix or copy word meets before its own statement (02 R33, R58). -/
def engineReady (e : Engine) (i : Instr) : M PUnit := do
  let c ← here
  taskReady c
  if c.runner.isSome then trap .illword
  needs (!(c.ctr e).stop && (c.ctr e).next.isNone && c.stands (c.at_ e).1)
  trapIf i.illOperand .illword
  trapIf i.resOperand .resbits

/-- A word of engine e that retires when it issues. -/
def engineWord (e : Engine) (i : Instr) (body : M PUnit) (s : State) : Host.Outcome State Fault Refusal :=
  finish e s ((do
    engineReady e i
    body
    let now := (← get).stamp
    onHere fun c => c.engineDone e now).run s)

/-- A return word: its value waits for the scalar engine, which passes it and lands it (02 R40). -/
def returnWord (e : Engine) (i : Instr) (body : M Word) (s : State) : Host.Outcome State Fault Refusal :=
  engineWord e i (do
    needs (← here).hand.ret.isNone
    let v ← body
    onHere fun c => { c with hand := { c.hand with ret := some v } }) s

end Sys2Proof.Machine
end

