-- ==== Sys2Proof/Machine/FlashMem.lean ====
section
/-! DEFINITION. Flash: where a region's pages lie, reading them, and the index layouts (11 R327-R337). -/

namespace Sys2Proof.Machine

/-- Bytes of a flash page (11 R327). -/
def pageBytes : Nat := 16384

/-- The channels of a region in ascending order (11 R329). -/
def Region.channels (r : Region) : List Nat :=
  ((List.range 8).filter fun c => bit r.ctrl c).flatMap fun c => (List.range 16).map (16 * c + ·)

/-- The key of page p of a region: its channel and channel page (11 R329). -/
def Region.pageKey (r : Region) (p : Nat) : Nat :=
  let n := r.channels.length
  r.channels.getD (p % n) 0 * 14000000 + (r.base + p / n)

/-- A page of flash. -/
def State.page (s : State) (k : Nat) : FlashPage := Sparse.get {} s.flash.pages k
def State.setPage (s : State) (k : Nat) (v : FlashPage) : State :=
  { s with flash := { s.flash with pages := s.flash.pages.put k v } }

/-- What reading a page finds (11 R327, R330): a page whose eight reads fail is uncorrectable, a bad hallmark is
reported. -/
def FlashPage.fault (p : FlashPage) : Option Cause :=
  if 8 ≤ p.failing then some .flashunc else if p.badMark then some .hallmark else none

/-- n bytes of a region from an offset within one page. -/
def State.flashBytes (s : State) (r : Region) (off n : Nat) : List Byte :=
  let p := s.page (r.pageKey (off / pageBytes))
  (List.range n).map fun i => Sparse.get (0 : Byte) p.bytes (off % pageBytes + i)

/-- A little-endian number of a region. -/
def State.flashNat (s : State) (r : Region) (off n : Nat) : Nat := leNat (s.flashBytes r off n)

/-- The fields of an index header (11 Table 123). -/
structure IndexHead where
  graph : Bool
  e : Nat
  l2 : Bool
  degree : Nat
  reclog : Nat
  dim : Nat
  n : Nat
  entry : Nat
  nodepg : Nat
  centpg : Nat
  listpg : Nat
deriving DecidableEq, Repr

/-- The header of an INDEX region (11 R335). -/
def State.indexHead (s : State) (r : Region) : IndexHead :=
  let d := fun i => s.flashNat r (8 * i) 8
  { graph := fld (d 0) 56 8 = 0, e := fld (d 0) 48 8 + 1, l2 := fld (d 0) 40 8 = 1, degree := fld (d 0) 32 8,
    reclog := fld (d 0) 16 4, dim := fld (d 0) 0 16, n := fld (d 1) 32 32, entry := fld (d 1) 0 32, nodepg := d 2,
    centpg := d 3, listpg := d 4 }

/-- Pages that k records of an area take (11 R336). -/
def IndexHead.areaPages (h : IndexHead) (k : Nat) : Nat := (k * 2 ^ h.reclog + pageBytes - 1) / pageBytes

/-- Whether an index header passes its checks (11 R335). -/
def State.headOk (s : State) (r : Region) : Bool :=
  let d := fun i => s.flashNat r (8 * i) 8
  let h := s.indexHead r
  let bytes := h.dim * h.e + if h.graph then 4 * h.degree else 4
  decide (1 ≤ r.fill) && decide (fld (d 0) 56 8 ≤ 1) && decide (fld (d 0) 48 8 ≤ 1) && decide (fld (d 0) 40 8 ≤ 1)
    && decide (fld (d 0) 20 12 = 0) && decide (6 ≤ h.reclog) && decide (h.reclog ≤ 14)
    && decide (1 ≤ h.dim) && decide (h.dim ≤ 4096) && decide (1 ≤ h.n) && decide (bytes ≤ 2 ^ h.reclog)
    && ((List.range 11).all fun i => decide (d (5 + i) = 0))
    && decide (h.nodepg + h.areaPages h.n ≤ r.fill)
    && (if h.graph then
          decide (1 ≤ h.degree) && decide (h.degree ≤ 64) && decide (h.entry < h.n) && decide (h.centpg = 0)
            && decide (h.listpg = 0)
        else
          decide (h.degree = 0) && decide (1 ≤ h.entry) && decide (h.entry ≤ 65535)
            && decide (h.centpg + h.areaPages h.entry ≤ r.fill)
            && decide (h.listpg + (16 * h.entry + pageBytes - 1) / pageBytes ≤ r.fill))

/-- The die of a region: where the lowest controller in its CTRL attaches (11 R334). -/
def Region.die (r : Region) : Nat := if r.channels.headD 0 < 64 then 0 else 1

end Sys2Proof.Machine
end

