-- ==== Sys2Proof/Machine/Regs.lean ====
section
/-! DEFINITION. The device register window (01 R18): what each register reads as, and what a write to each does. Offsets
count from 0x200_0000_0000. A write that sets a reserved bit is ignored whole (00 R6). -/

namespace Sys2Proof.Machine

/-! ## Toll buckets (06 R188, 10 R310) -/

/-- CAP written: a level above it is lowered (06 R188). -/
def Bucket.setCap (b : Bucket) (v : Nat) : Bucket := { b with cap := v, level := min b.level v }
def Stack.setCap (b : Stack) (v : Nat) : Stack := { b with cap := v, level := min b.level v }

/-- A write to crew bucket c at offset o (06 Table 66). -/
def State.writeBucket (s : State) (c o : Nat) (v : Nat) : State :=
  let b := s.bucket c
  if o = 0 then if v < 2 ^ 32 then s.setBucket c (b.setCap v) else s
  else if o = 8 then if v < 2 ^ 16 then s.setBucket c { b with rate := v } else s
  else s

/-- A write to stack bucket k at offset o (10 Table 107). -/
def State.writeStack (s : State) (k o : Nat) (v : Nat) : State :=
  let b := s.stack k
  if o = 0 then if v < 2 ^ 32 then s.setStack k (b.setCap v) else s
  else if o = 8 then if v < 2 ^ 16 then s.setStack k { b with rate := v } else s
  else if o = 0x18 then if 4 ≤ v ∧ v ≤ 32 ∧ v % 4 = 0 then s.setStack k { b with permit := v } else s
  else s

/-! ## Contexts and invalidations (08 R250, R261, R267) -/

/-- A write of a context's translation register; clearing VALID erases its key (08 R250, 14 R421). -/
def State.writeCtx (s : State) (n v : Nat) : State :=
  if fld v 44 19 ≠ 0 ∨ fld v 0 14 ≠ 0 then s
  else
    let c := s.ctx n
    let ok := bit v 63
    s.setCtx n { c with valid := ok, root := BitVec.ofNat 30 (fld v 14 30),
                        key := if ok then c.key else 0, keyok := ok && c.keyok }

/-- An invalidation starts with the next sequence number (08 R261). -/
def State.startInval (s : State) (i : Inval) : State :=
  let i := { i with seq := s.pages.inviss + 1 }
  { s with pages := { s.pages with inviss := s.pages.inviss + 1, invals := s.pages.invals ++ [i] } }.revoke i

/-- INVCMD written: the range is taken as INVADDR and INVLEN stand; with 16 outstanding the write is held on the host link
(08 R261). -/
def State.writeInvcmd (s : State) (v : Nat) : State :=
  let i : Inval := {
    seq := 0, ctx := if bit v 15 then none else some (fld v 0 6)
    range := if bit v 14 then none else some (s.pages.invaddr, s.pages.invaddr + s.pages.invlen.toNat * 2 ^ 19) }
  if fld v 16 48 ≠ 0 ∨ fld v 6 8 ≠ 0 then s
  else if s.pages.inviss - s.pages.invdone = 16 then
    { s with pages := { s.pages with heldInv := s.pages.heldInv ++ [i] } }
  else s.startInval i

/-- Room in the free ring (08 R267). -/
def Pages.freeRoom (p : Pages) : Bool := decide (p.freeprod - p.freecons.toNat < 2 ^ p.freelog.toNat)

/-- A frame number pushed into the free ring, its RINGQ cleared (08 R267). -/
def State.pushFree (s : State) (f : Nat) : State :=
  let p := s.pages
  let s := s.writeWord (p.freebase.toNat + 8 * (p.freeprod % 2 ^ p.freelog.toNat)) (word f)
  let e := (s.dword (frameAt s f)).toNat
  let s := s.writeWord (frameAt s f) (ftPack (ftCount e) (ftPins e) (ftFreeq e) false (ftPlain e) (ftOwner e) e)
  { s with pages := { s.pages with freeprod := p.freeprod + 1 } }

/-- Frame f is freed: plaintext is zeroed, then it is pushed or waits with RINGQ (08 R267). -/
def State.freeFrame (s : State) (f : Nat) : State :=
  let e := (s.dword (frameAt s f)).toNat
  let s := if ftPlain e then
      { s with
        mem := s.mem.filter fun p => !(decide (f * 2 ^ 19 ≤ p.1) && decide (p.1 < (f + 1) * 2 ^ 19))
        grains := s.grains.filter fun p => !(decide (f * 2 ^ 11 ≤ p.1) && decide (p.1 < (f + 1) * 2 ^ 11)) }
    else s
  let plain := false
  let room := s.pages.freeRoom && s.pages.ringq.isEmpty
  let s := s.writeWord (frameAt s f)
    (ftPack (ftCount e) (ftPins e) false (!room) plain (if ftPlain e then 0 else ftOwner e) e)
  if room then s.pushFree f else { s with pages := { s.pages with ringq := s.pages.ringq ++ [f] } }

/-- A stream pin of frame f drops; the last one of a frame queued for freeing frees it (08 R268). -/
def State.unpinFrame (s : State) (f : Nat) : State :=
  let e := (s.dword (frameAt s f)).toNat
  let n := ftPins e - 1
  if n = 0 ∧ ftFreeq e then
    (s.writeWord (frameAt s f) (ftPack (ftCount e) 0 false (ftRingq e) (ftPlain e) (ftOwner e) e)).freeFrame f
  else s.writeWord (frameAt s f) (ftPack (ftCount e) n (ftFreeq e) (ftRingq e) (ftPlain e) (ftOwner e) e)

/-- The pins that a stream holds drop: its frame's and its table entry's (11 R352, R354). -/
def State.dropPins (s : State) (e : Nat) : State :=
  match (s.score e).stream with
  | none => s
  | some x =>
    let s := match x.frame with | some f => s.unpinFrame f | none => s
    let s := match x.held, s.translate (s.score e).wb.ctx (x.table.toNat + 16 * x.entry + 8) .write with
      | some _, .ok pa =>
        let w := (s.dword pa).toNat
        s.writeWord pa (word (w - (if fld w 24 8 = 0 then 0 else 2 ^ 24)))
      | _, _ => s
    s.setScore e { (s.score e) with stream := some {
      x with held := none, frame := none, copied := [], claim := none, got := [], put := 0 } }

/-- The frames that wait with RINGQ are pushed as far as room reaches, in the order of freeing (08 R267). -/
def State.drainFree (s : State) : Nat → State
  | 0 => s
  | fuel + 1 =>
    match s.pages.ringq with
    | [] => s
    | f :: fs =>
      if s.pages.freeRoom then State.drainFree ({ s with pages := { s.pages with ringq := fs } }.pushFree f) fuel else s

/-- FREECONS written (08 R267). -/
def State.writeFreecons (s : State) (v : Word) : State :=
  let s := { s with pages := { s.pages with freecons := v } }
  s.drainFree s.pages.ringq.length

/-! ## Flash regions (11 R328) -/

/-- The pages of a region on a channel, which start at BASE (11 R328, R329). -/
def Region.pagesOn (r : Region) (c : Nat) : Nat :=
  (r.pages + r.channels.length - 1 - r.channels.idxOf c) / r.channels.length

/-- Whether two regions share a page (11 R328). -/
def Region.overlaps (a b : Region) : Bool :=
  (a.channels.filter b.channels.contains).any fun c =>
    decide (max a.base b.base < min (a.base + a.pagesOn c) (b.base + b.pagesOn c))

/-- Whether a write that sets VALID is refused (11 R328). -/
def State.regionRefused (s : State) (n : Nat) (r : Region) : Bool :=
  decide (r.ctrl = 0) ||
  decide (14000000 < r.base + (r.pages + r.channels.length - 1) / r.channels.length) ||
  s.flash.regions.any fun p => p.1 != n && p.2.valid && r.overlaps p.2

/-- A write of a region's first register (11 R328). -/
def State.writeRegion (s : State) (n v : Nat) : State :=
  if fld v 61 2 > 1 ∨ bit v 58 ∨ fld v 0 44 ≠ 0 then s
  else
    let old := s.region n
    let r := { old with w := bit v 60, r := bit v 59, ctx := fld v 52 6, ctrl := fld v 44 8 }
    let kind := bit v 61
    let r :=
      if kind && !old.index then
        if s.headOk r then { r with index := true, version := 1, merged := 0, logpos := 0, log := [], cur := {} } else r
      else if !kind && old.index then { r with index := false, log := [], cur := {}, merging := none }
      else r
    s.setRegion n { r with valid := bit v 63 && !s.regionRefused n r }

/-- A write of FILL: 0 empties the region (11 R328). -/
def State.writeFill (s : State) (n v : Nat) : State := if v = 0 then s.setRegion n { (s.region n) with fill := 0 } else s

/-- A write to region n at offset o (11 Table 119). -/
def State.writeRegionReg (s : State) (n o v : Nat) : State :=
  let r := s.region n
  if o = 0 then s.writeRegion n v
  else if o = 8 then if v < 2 ^ 24 then s.setRegion n { r with base := v } else s
  else if o = 0x10 then if v < 2 ^ 34 then s.setRegion n { r with pages := v } else s
  else if o = 0x18 then s.writeFill n v
  else if o = 0x38 then if v < 2 ^ 33 then s.setRegion n { r with hold := bit v 32, logcap := fld v 0 32 } else s
  else s

/-! ## Scheduler registers (12 R389, R390) -/

/-- The core as which a task of an instance stands: in the checkpoint, or on its core (12 R385). -/
def State.taskCore (s : State) (i : Inst) (k : Nat) : Core :=
  match i.saved with
  | some (cores, _) => Sparse.get {} cores k
  | none => s.core k

/-- DIEFENCE taken by every task of an instance, without a cut: FORWARD posts a header first, every action kills
(12 R389). -/
def State.fenceInst (s : State) (e : Nat) (i : Inst) : State :=
  if (s.score e).wb.reissueOk then s.reissueInst e i
  else
    let s := i.tasks.foldl
      (fun t r =>
        if r.ended then t
        else
          let c := t.taskCore i r.core
          let a := t.actionEntry c.job.ctx Cause.diefence.code
          let status := statusWord 0 0 0 Cause.diefence.code 0
          let t := t.recordAction e c.job.recmode status
          if fld a 62 2 = 3 ∧ actionOk a ∧ t.registered (fld a 32 12) c.job.ctx then
            t.post { serai := fld a 32 12, source := 4,
                     payload := (cutHeader r.core c (0, 0) status { cause := .diefence }).set 4 0 }
          else t) s
    s.killInst e i .diefence

/-- A waybill without a cluster to run on ends KILLED with cause DIEFENCE (12 R389). -/
def State.endFenced (s : State) (e : Nat) : State :=
  let c := s.score e
  if c.st ≠ .free ∧ c.st ≠ .ended ∧ c.wb.fencedOut s.sched.fenced then (s.dropPins e).killWaybill e .diefence else s

/-- Die d is fenced (12 R389, 01 R19). -/
def State.fenceDie (s : State) (d : Nat) : State :=
  if bit s.sched.fenced.toNat d then s
  else
    let fenced := s.sched.fenced ||| BitVec.ofNat 3 (2 ^ d)
    let s := { s with
      sched := { s.sched with fenced := fenced, electing := s.sched.electing || decide (s.sched.master = d) }
      records := { s.records with released := s.records.released || decide (s.records.setting = 2) } }
    let s := s.liveScores.foldl
      (fun t p => (t.score p.1).insts.foldl
        (fun u i => if i.clusters.any fun c => dieOfCluster c == d then u.fenceInst p.1 i else u) t) s
    s.liveScores.foldl (fun t p => t.endFenced p.1) s

/-- A write of FENCE (12 Table 141). -/
def State.writeFence (s : State) (v : Nat) : State :=
  if v < 8 then (List.range 3).foldl (fun t d => if bit v d then (t.fenceDie d).adopt else t) s else s

/-- A write of KILLWB (12 Table 141). -/
def State.writeKillwb (s : State) (v : Word) : State :=
  match s.named v with
  | some e => (s.dropPins e).killWaybill e .none
  | none => s

/-- A write of HPOST: the host's message is posted, or discarded and counted (12 R366, R390, 14 R422). -/
def State.writeHpost (s : State) (v : Nat) : State :=
  let len := fld v 24 4
  let n := fld v 0 12
  if fld v 28 36 ≠ 0 ∨ fld v 12 12 ≠ 0 ∨ len = 0 ∨ len = 15 then s
  else if s.trust.tdisp = .error ∨ !(s.serai n).hostOk ∨ (s.serai n).ctx.isNone then s.dropPost
  else
    s.post { serai := n, source := 1,
             payload := (List.range len).map fun i => word (leNat (getBytes s.host (s.sched.hmsg.toNat + 8 * i) 8)) }

/-- A write to scheduler register o (12 Table 141). -/
def State.writeSched (s : State) (o : Nat) (v : Word) : State :=
  let n := v.toNat
  if o = 0x008 then s.writeFence n
  else if o = 0x018 then
    if n < 2 ^ 44 ∧ n % 0x8000 = 0 then { s with sched := { s.sched with actbase := BitVec.ofNat 44 n } } else s
  else if o = 0x020 then
    if n < 2 ^ 44 ∧ n % 0x10000 = 0 then { s with sched := { s.sched with ckbase := BitVec.ofNat 44 n } } else s
  else if o = 0x028 then { s with sched := { s.sched with ckunits := v } }
  else if o = 0x030 then if n < 2 ^ 32 then { s with sched := { s.sched with drainT := BitVec.ofNat 32 n } } else s
  else if o = 0x038 then { s with sched := { s.sched with wdlimit := v } }
  else if o = 0x048 then s.writeKillwb v
  else if o = 0x080 then if n % 8 = 0 then { s with sched := { s.sched with hmsg := v } } else s
  else if o = 0x088 then s.writeHpost n
  else s

/-! ## Coolant registers (13 R393, R397, R401) -/

/-- CAP of a zone (13 Table 142). -/
def zoneCap (z : Nat) : Nat := if z < 32 then 160 else 200

/-- REARM of a DEAD zone: the sequence restarts at step 4, which closes the valve (13 R401). Read-only bits do not matter
(00 R6). -/
def State.writeRearm (s : State) (z v : Nat) : State :=
  if fld v 42 22 = 0 ∧ fld v 8 8 = 0 ∧ bit v 41 ∧ (s.zone z).state = 10 then
    s.setZone z { (s.zone z) with state := 4, valve := 0, seq0 := s.stamp - 1600, fails := 0, wetSince := none }
  else s

/-- FLOOR written; above CAP it is ignored (13 Table 143). Read-only bits do not matter (00 R6). -/
def State.writeFloor (s : State) (z v : Nat) : State :=
  if fld v 48 15 = 0 ∧ fld v 36 4 = 0 ∧ fld v 0 12 ≤ zoneCap z then s.setZone z { (s.zone z) with floor := fld v 0 12 } else s

/-- TTRIP, TWARN and BUDGET written (13 Table 144). -/
def State.writeLimits (s : State) (v : Nat) : State :=
  if fld v 48 16 ≠ 0 ∨ fld v 12 4 ≠ 0 then s
  else { s with cool := { s.cool with ttrip := BitVec.ofNat 16 (fld v 32 16), twarn := BitVec.ofNat 16 (fld v 16 16),
                                      budget := fld v 0 12 } }

/-! ## Records and trust (14 R404, R421, R427) -/

/-- SETTING written: 1 and 2 start a session (14 R404). -/
def State.writeSetting (s : State) (v : Nat) : State :=
  if v > 2 then s
  else
    let r := { s.records with setting := v }
    if v = 0 then { s with records := r }
    else
      { s with
        records := { r with session := r.session + 1, used := [], taken := [], released := false }
        cores := s.cores.map fun p => (p.1, { p.2 with starts := 0 }) }

/-- KEYCTX written: the key registers load into a context (14 Table 159). -/
def State.writeKeyctx (s : State) (v : Nat) : State :=
  if v < 64 then
    let k := s.trust.keys
    let key : BitVec 256 := BitVec.ofNat 256 ((k.getD 0 0).toNat + (k.getD 1 0).toNat * 2 ^ 64 + (k.getD 2 0).toNat * 2 ^ 128
      + (k.getD 3 0).toNat * 2 ^ 192)
    { (s.setCtx v { (s.ctx v) with key := key, keyok := true }) with trust := { s.trust with keys := [0, 0, 0, 0] } }
  else s

/-- HXGO written: a host transfer joins the queue (14 R427). -/
def State.writeHxgo (s : State) (v : Nat) : State :=
  if v < 2 ^ 18 then
    let m : HostMove := {
      host := s.trust.hxhost, dev := s.trust.hxdev, len := s.trust.hxlen, ctx := fld v 12 6, serai := fld v 0 12 }
    { s with trust := { s.trust with moves := s.trust.moves ++ [m] } }
  else s

/-- A context security register written (14 Table 158); KEYOK, read-only, does not matter (00 R6). -/
def State.writeSecurity (s : State) (n v : Nat) : State :=
  if fld v 32 29 ≠ 0 then s
  else s.setCtx n { (s.ctx n) with hostio := bit v 63, lockreq := bit v 62, salt := BitVec.ofNat 32 (fld v 0 32) }

/-- A peer entry written (14 Table 161). -/
def State.writePeer (s : State) (p v : Nat) : State :=
  if fld v 0 25 ≠ 0 ∨ fld v 50 5 ≠ 0 then s
  else
    let q : Peer := { valid := bit v 63, pkg := fld v 55 8, remote := fld v 25 25 }
    { s with trust := { s.trust with peers := s.trust.peers.put p q } }

/-! ## The window -/

/-- A write of 8 bytes to the register at offset o (01 R18). A value that is no multiple of what the register states, and
HXLEN 0, is ignored whole, which the spec leaves open (log 47). -/
def State.writeReg (s : State) (o : Nat) (v : Word) : State :=
  let n := v.toNat
  let b := o / 0x1000
  if b = 0x10 then if o % 0x1000 < 0x240 then s.writeBucket (o % 0x1000 / 0x40) (o % 0x40) n else s
  else if b = 0x20 then
    let r := o % 0x1000
    if r < 0x400 then if r % 16 = 0 then s.writeCtx (r / 16) n else if r % 16 = 8 then s.writeSecurity (r / 16) n else s
    else if r = 0x400 then
      if n < 2 ^ 44 ∧ n % 0x1000000 = 0 then { s with pages := { s.pages with ftbase := BitVec.ofNat 44 n } } else s
    else if r = 0x408 then
      if n < 2 ^ 44 ∧ n % 8 = 0 then { s with pages := { s.pages with freebase := BitVec.ofNat 44 n } } else s
    else if r = 0x410 then if n ≤ 21 then { s with pages := { s.pages with freelog := BitVec.ofNat 5 n } } else s
    else if r = 0x420 then s.writeFreecons v
    else if r = 0x440 then
      if n < 2 ^ 52 then { s with pages := { s.pages with invaddr := n / 2 ^ 19 * 2 ^ 19 } } else s
    else if r = 0x448 then if n < 2 ^ 34 then { s with pages := { s.pages with invlen := BitVec.ofNat 34 n } } else s
    else if r = 0x450 then s.writeInvcmd n
    else s
  else if b = 0x30 then if o % 0x1000 < 0x400 then s.writeStack (o % 0x1000 / 0x40) (o % 0x40) n else s
  else if b = 0x33 then
    let c := o % 0x1000 / 16
    if 64 ≤ c then s
    else if o % 16 = 0 then
      if n < 2 ^ 52 ∧ n % 8 = 0 then s.setCtx c { (s.ctx c) with rftBase := BitVec.ofNat 49 (n / 8) } else s
    else if o % 16 = 8 then if n ≤ 256 then s.setCtx c { (s.ctx c) with rftCount := n } else s
    else s
  else if 0x40 ≤ b ∧ b < 0x44 then s.writeRegionReg ((o - 0x40000) / 0x40) (o % 0x40) n
  else if b = 0x50 then s.writeSched (o % 0x1000) v
  else if b = 0x60 then
    let r := o % 0x1000
    if r < 0x480 then
      if r % 0x20 = 0 then s.writeRearm (r / 0x20) n else if r % 0x20 = 0x10 then s.writeFloor (r / 0x20) n else s
    else if r = 0x800 then s.writeLimits n
    else s
  else if b = 0x70 then
    if o % 0x1000 = 0 then s.writeSetting n
    else if o % 0x1000 = 8 then
      if n < 2 ^ 44 ∧ n % 0x1000 = 0 then { s with records := { s.records with ringbase := BitVec.ofNat 44 n } } else s
    else s
  else if b = 0x71 then
    if o % 0x1000 = 0x80 then if n < 2 ^ 16 then { s with trust := { s.trust with assaylim := n } } else s else s
  else if b = 0x72 then
    let r := o % 0x1000
    if r < 0x20 then if r % 8 = 0 then { s with trust := { s.trust with keys := s.trust.keys.set (r / 8) v } } else s
    else if r = 0x20 then s.writeKeyctx n
    else if 0x200 ≤ r ∧ r < 0x400 ∧ r % 8 = 0 then s.setCtx ((r - 0x200) / 8) { (s.ctx ((r - 0x200) / 8)) with rxhigh := v }
    else if r = 0x400 then { s with trust := { s.trust with hxhost := v } }
    else if r = 0x408 then if n < 2 ^ 52 ∧ n % 256 = 0 then { s with trust := { s.trust with hxdev := n } } else s
    else if r = 0x410 then
      if n < 2 ^ 32 ∧ n % 256 = 0 ∧ n ≠ 0 then { s with trust := { s.trust with hxlen := n } } else s
    else if r = 0x418 then s.writeHxgo n
    else s
  else if o = 0x77000 then if n < 2 ^ 44 then { s with trust := { s.trust with explo := BitVec.ofNat 44 n } } else s
  else if o = 0x77008 then if n < 2 ^ 44 then { s with trust := { s.trust with exphi := BitVec.ofNat 44 n } } else s
  else if o = 0x77010 then if n < 2 ^ 8 then { s with trust := { s.trust with self := BitVec.ofNat 8 n } } else s
  else if 0x78 ≤ b ∧ b < 0x80 then if o % 8 = 0 then s.writePeer ((o - 0x78000) / 8) n else s
  else s

/-- The greatest temperature of a zone (13 Table 145). -/
def Zone.tmax (z : Zone) : BitVec 16 :=
  [z.t1, z.t2, z.t3].foldl (fun m t => if m.toInt < t.toInt then t else m) z.t0

/-- The step that STATE reads (13 Table 150): steps 2 and 3 both begin 8 ticks after step 1 (log 49). -/
def Zone.step (z : Zone) (now : Nat) : Nat :=
  if z.state = 3 then if now < z.seq0 + 8 then 1 else if now = z.seq0 + 8 then 2 else 3 else z.state

/-- The state word, and doubleword 0x10, of zone z (13 Table 143). -/
def Zone.word0 (z : Zone) (now : Nat) : Word := word (z.dry.toNat * 2 ^ 40 + z.step now * 2 ^ 32 + z.flow.toNat * 2 ^ 16 + z.valve)
def Zone.word2 (z : Zone) : Word :=
  word (z.held.toNat * 2 ^ 63 + z.prio * 2 ^ 40 + z.maxf * 2 ^ 24 + z.minf * 2 ^ 12 + z.floor)

/-- What the register at offset o reads as (01 R18); write-only registers and offsets without a register read zero. -/
def State.readReg (s : State) (o : Nat) : Word :=
  let b := o / 0x1000
  let r := o % 0x1000
  if b = 0x10 then
    if r < 0x240 then
      let k := s.bucket (r / 0x40)
      if r % 0x40 = 0 then word k.cap else if r % 0x40 = 8 then word k.rate
      else if r % 0x40 = 0x10 then BitVec.ofInt 64 k.level else 0
    else 0
  else if b = 0x20 then
    if r < 0x400 then
      let c := s.ctx (r / 16)
      if r % 16 = 0 then word (c.valid.toNat * 2 ^ 63 + c.root.toNat * 2 ^ 14)
      else if r % 16 = 8 then
        word (c.hostio.toNat * 2 ^ 63 + c.lockreq.toNat * 2 ^ 62 + c.keyok.toNat * 2 ^ 61 + c.salt.toNat)
      else 0
    else if r = 0x400 then s.pages.ftbase.setWidth 64
    else if r = 0x408 then s.pages.freebase.setWidth 64
    else if r = 0x410 then s.pages.freelog.setWidth 64
    else if r = 0x418 then word s.pages.freeprod
    else if r = 0x420 then s.pages.freecons
    else if r = 0x440 then word s.pages.invaddr
    else if r = 0x448 then s.pages.invlen.setWidth 64
    else if r = 0x458 then word s.pages.inviss
    else if r = 0x460 then word s.pages.invdone
    else 0
  else if b = 0x30 then
    if r < 0x400 then
      let k := s.stack (r / 0x40)
      if r % 0x40 = 0 then word k.cap else if r % 0x40 = 8 then word k.rate
      else if r % 0x40 = 0x10 then BitVec.ofInt 64 k.level
      else if r % 0x40 = 0x18 then word k.permit else 0
    else 0
  else if b = 0x31 ∨ b = 0x32 then
    let c := s.chan ((o - 0x31000) / 0x20)
    if 0x1000 ≤ o - 0x31000 then 0
    else if o % 0x20 = 0 then
      word (c.entry * 2 ^ 38 + c.group * 2 ^ 35 + c.cause * 2 ^ 29 +
        match c.st with | .empty => 0 | .loaded => 1 | .armed => 2 | .running => 3 | .fault => 4)
    else if o % 0x20 = 8 then word c.slip
    else if o % 0x20 = 0x10 then word (c.passes % 2 ^ 32 * 2 ^ 32 + min c.forced 0xFFFFFFFF)
    else 0
  else if b = 0x33 then
    if 64 ≤ r / 16 then 0
    else if r % 16 = 0 then word ((s.ctx (r / 16)).rftBase.toNat * 8)
    else if r % 16 = 8 then word (s.ctx (r / 16)).rftCount
    else 0
  else if 0x40 ≤ b ∧ b < 0x44 then
    let g := s.region ((o - 0x40000) / 0x40)
    let q := o % 0x40
    if q = 0 then
      word (g.valid.toNat * 2 ^ 63 + g.index.toNat * 2 ^ 61 + g.w.toNat * 2 ^ 60 + g.r.toNat * 2 ^ 59 + g.ctx * 2 ^ 52
        + g.ctrl * 2 ^ 44)
    else if q = 8 then word g.base
    else if q = 0x10 then word g.pages
    else if q = 0x18 then word g.fill
    else if q = 0x20 then word g.version
    else if q = 0x28 then word g.merged
    else if q = 0x30 then word g.logpos
    else if q = 0x38 then word (g.hold.toNat * 2 ^ 32 + g.logcap)
    else 0
  else if b = 0x50 then
    if r = 0x000 then word s.sched.master
    else if r = 0x010 then s.sched.fenced.setWidth 64
    else if r = 0x018 then s.sched.actbase.setWidth 64
    else if r = 0x020 then s.sched.ckbase.setWidth 64
    else if r = 0x028 then s.sched.ckunits
    else if r = 0x030 then s.sched.drainT.setWidth 64
    else if r = 0x038 then s.sched.wdlimit
    else if r = 0x040 then word s.sched.dropped
    else if r = 0x050 ∨ r = 0x058 ∨ r = 0x060 then word (s.inUse ((r - 0x50) / 8))
    else if r = 0x080 then s.sched.hmsg
    else 0
  else if b = 0x60 then
    if r < 0x480 then
      let z := s.zone (r / 0x20)
      if r % 0x20 = 0 then z.word0 s.stamp
      else if r % 0x20 = 8 then word (z.t3.toNat * 2 ^ 48 + z.t2.toNat * 2 ^ 32 + z.t1.toNat * 2 ^ 16 + z.t0.toNat)
      else if r % 0x20 = 0x10 then z.word2
      else if r % 0x20 = 0x18 then z.holder
      else 0
    else if r = 0x800 then word (s.cool.ttrip.toNat * 2 ^ 32 + s.cool.twarn.toNat * 2 ^ 16 + s.cool.budget)
    else if r = 0x808 then word (s.cool.inlett.toNat * 2 ^ 16 + s.cool.pkgflow)
    else if r = 0x810 then word (s.cool.pdrop.toNat * 4 + s.cool.lowin.toNat * 2 + s.cool.limit.toNat)
    else if r = 0x818 ∨ r = 0x820 ∨ r = 0x828 then
      let d := (r - 0x818) / 8
      word ((s.cool.outp.getD d 0).toNat * 2 ^ 16 + (s.cool.inp.getD d 0).toNat)
    else 0
  else if b = 0x70 then
    if r = 0 then word s.records.setting
    else if r = 8 then s.records.ringbase.setWidth 64
    else if r = 0x10 then word s.records.session
    else if r = 0x18 then word s.records.waiting.length
    else 0
  else if b = 0x71 then
    if r < 0x60 then
      let k := s.counters (r / 0x20)
      if r % 0x20 = 0 then word k.hmerr else if r % 0x20 = 8 then word k.ucerr
      else if r % 0x20 = 0x10 then word k.assays else if r % 0x20 = 0x18 then word k.corrected else 0
    else if r = 0x80 then word s.trust.assaylim
    else if r = 0x88 then word s.trust.poisoned
    else 0
  else if b = 0x72 then
    if 0x200 ≤ r ∧ r < 0x400 ∧ r % 8 = 0 then (s.ctx ((r - 0x200) / 8)).rxhigh
    else if r = 0x400 then s.trust.hxhost
    else if r = 0x408 then word s.trust.hxdev
    else if r = 0x410 then word s.trust.hxlen
    else 0
  else if o = 0x77000 then s.trust.explo.setWidth 64
  else if o = 0x77008 then s.trust.exphi.setWidth 64
  else if o = 0x77010 then s.trust.self.setWidth 64
  else if 0x78 ≤ b ∧ b < 0x80 then
    if o % 8 = 0 then
      let p : Peer := Sparse.get {} s.trust.peers ((o - 0x78000) / 8)
      word (p.valid.toNat * 2 ^ 63 + p.pkg * 2 ^ 55 + p.remote * 2 ^ 25)
    else 0
  else 0

end Sys2Proof.Machine
end

