-- ==== Sys2Proof/Machine/Access.lean ====
section
/-! DEFINITION. How a word reaches memory: translation through the TLBs, the edges that hold an access back, logging and
gating, the effect at the home, the scalar data cache and the store hash (04 R110-R113, 08 R251-R260, 09 R270-R286,
14 R406-R413). -/

namespace Sys2Proof.Machine

/-! ## Translation (08) -/

/-- The address that k.FADDR gets: an access's first address, and for a copy unit the page or the grain that failed
(08 R258). -/
def faultAddr (f : XFault) (e : Engine) (va : Word) : Word :=
  if e = .x then
    let size := if f.reason = 9 ∨ f.reason = 10 then 256 else 2 ^ 19
    word (va.toNat / size * size)
  else va

/-- A translation or alignment fault of engine e at address va (08 R258). -/
def xfail {α : Type} (f : XFault) (n : Need) (e : Engine) (va : Word) : M α :=
  throw (.trap { cause := f.cause, fault := some (faultAddr f e va, f.info n e) })

/-- Whether a TLB entry covers an address of a context (08 R255). -/
def TlbEntry.covers (t : TlbEntry) (ctx va : Nat) : Bool :=
  t.ctx == ctx && decide (t.va ≤ va) && decide (va < t.va + t.size)

/-- A leaf's check as a word of engine e meets it (08 R254). -/
def leafOrTrap (t : TlbEntry) (ctx : Nat) (va : Word) (n : Need) (e : Engine) : M Nat := do
  match leafCheck (← get) t ctx va.toNat n with
  | .ok pa => return pa
  | .error f => xfail f n e (if e = .x then word (va.toNat / t.size * t.size) else va)

/-- The physical address of a virtual address for the task of the current core: core TLB, crew TLB, walk (08 R255). A
traversal core has no crew TLB. -/
def resolve (va : Word) (n : Need) (e : Engine) : M Nat := do
  let s ← get
  let c := s.here
  let ctx := c.job.ctx
  let cl := clusterOf (s.cur % 512)
  match c.tlb.find? (·.covers ctx va.toNat) with
  | some t => leafOrTrap t ctx va n e
  | none =>
    match if s.cur < 1024 then (s.crew cl).tlb.find? (·.covers ctx va.toNat) else none with
    | some t =>
      onHere fun c => { c with tlb := (t :: c.tlb).take 64 }
      leafOrTrap t ctx va n e
    | none =>
      match walk s ctx va.toNat with
      | .error f => xfail f n e va
      | .ok l =>
        let t := fillEntry s ctx va.toNat l
        onHere fun c => { c with tlb := (t :: c.tlb).take 64 }
        modify fun s => if s.cur < 1024 then s.setCrew cl { (s.crew cl) with tlb := (t :: (s.crew cl).tlb).take 4096 } else s
        leafOrTrap t ctx va n e

/-- A crew scratchpad address has bit 63 set (07 R208). -/
def isPad (va : Word) : Bool := bit va.toNat 63

/-- The location an address names for an access of a worker (07 R208, 08 R251) or of a remote function, whose accesses are
local (10 R318, 11 R348). -/
def locate (va : Word) (n : Need) (e : Engine) : M Nat := do
  let s ← get
  if s.here.runner.isSome then
    if 1024 ≤ s.cur then
      if 0x20000 ≤ va.toNat ∧ va.toNat < 0x40000 then return travLoc (s.cur - 1024) va.toNat else trap .protect
    else if isPad va ∧ fld va.toNat 26 37 = 0 then return padLoc (clusterOf (s.cur % 512)) (fld va.toNat 0 26)
    else trap .protect
  else if isPad va then
    if fld va.toNat 26 37 ≠ 0 then xfail ⟨.protect, 0, 10⟩ n e va
    else return padLoc (clusterOf s.cur) (fld va.toNat 0 26)
  else resolve va n e

/-- The alignment check (08 R257 item 1). -/
def aligned (va : Word) (size : Nat) (n : Need) (e : Engine) : M PUnit :=
  if va.toNat % size = 0 then pure () else xfail ⟨.align, 0, 9⟩ n e va

/-! ## Under whose name (14) -/

/-- Under whose name an access is logged: the task's, or for a remote function its caller's (14 R406). -/
def State.whoOf (s : State) (k : Nat) : LogWho :=
  let c := s.core k
  match c.runner with
  | some r => (match s.remote.calls.find? fun p => p.1 == r.call with | some p => p.2.who | none => ⟨0, 0, 0⟩)
  | none => ⟨c.job.recmode, coordinate k, c.job.tseq⟩

/-! ## Edges (09) -/

/-- Whether two ranges of bytes meet. -/
def meetRanges (a n b m : Nat) : Bool := decide (a < b + m) && decide (b < a + n)

/-- Whether two sets of kinds meet. -/
def Kinds.meets (a b : Kinds) : Bool :=
  a.r && b.r || a.w && b.w || a.cr && b.cr || a.cw && b.cw || a.mr && b.mr || a.mw && b.mw

/-- Whether an edge between two accesses of a worker on a core is in force at a scope (09 R276): an access whose home is not
known may have any. -/
def Acc.reach (core scope : Nat) (q a : Acc) : Bool :=
  match q.home, a.home with
  | some x, some y => inReach scope core x y
  | _, _ => true

/-- Whether both homes lie in the package or both outside it (09 R275). -/
def Acc.sameSide (q a : Acc) : Bool :=
  match q.home, a.home with
  | some x, some y => x.outside == y.outside
  | _, _ => true

/-- Whether a fence orders access q before access a of a worker on a core (09 R283, R276). -/
def FenceRec.orders (f : FenceRec) (core : Nat) (q a : Acc) : Bool :=
  decide (q.walk < f.walk) && decide (f.walk < a.walk) && f.pred.meets q.kinds && f.succ.meets a.kinds
    && f.mask.getLsbD q.cls && f.mask.getLsbD a.cls && Acc.reach core f.scope q a

/-- Whether access q, which comes first in the walk, must perform before access a: class order, common bytes, a release, an
acquire, a fence (09 R273, R275, R277, R283). -/
def Acc.holds (core : Nat) (fs : List FenceRec) (q a : Acc) : Bool :=
  q.cls == a.cls && q.sameSide a
    || q.eng == .s && a.eng == .s && meetRanges q.loc q.len a.loc a.len
    || a.rel.any (fun sc => q.eng == a.eng && Acc.reach core sc q a)
    || q.acq && a.eng == .s && Acc.reach core 3 q a
    || fs.any fun f => f.orders core q a

/-- Whether access q comes after access a in the walk (02 R31, 07 R232). -/
def Acc.later (q a : Acc) : Bool :=
  if q.eng ≠ a.eng then decide (a.walk < q.walk)
  else if q.eng = .x then q.run != 0 && a.run != 0 && decide (a.run < q.run)
  else q.eng == .s && decide (a.walk < q.walk)

/-- Accesses of core k's worker still to be made (09 R275): of the words ahead, of the copy words in flight, of loads. Words
of the vector and matrix engine reach only their crew's home (09 Table 84). -/
def Core.wordsAhead (c : Core) (k : Nat) : List Acc :=
  (c.req.ahead.filter fun a => decide (c.front a.eng ≤ a.walk)).map fun a =>
    { walk := a.walk, eng := a.eng, cls := a.cls, kinds := a.kinds
      home := if a.eng = .x then none else some (.crew (clusterOf (k % 512))) }
def Core.copiesAhead (c : Core) : List Acc :=
  c.cpy.runs.flatMap fun r =>
    let a : Acc := { walk := r.walk, eng := .x, cls := r.cls, kinds := { cr := true, cw := true }, run := r.id }
    if r.passed then r.channels.map fun n => { a with home := some (.channel n) } else [a]
def PendLoad.acc (l : PendLoad) (home : Home) : Acc :=
  let a : Acc := { walk := l.walk, cls := l.cls, kinds := { r := true }, home := some home, loc := l.loc }
  match l.kind with
  | .mem r _ _ q => { a with len := r.size, acq := q }
  | .advance _ _ p _ => { a with kinds := { w := true }, len := 64, rel := if p then some 1 else none }
  | _ => a
def State.loadsAhead (s : State) (k : Nat) : List Acc := (s.core k).sc.loads.map fun l => l.acc (s.home l.loc)

/-- Whether an access still to be made comes before access a and must perform first. -/
def State.aheadHolds (s : State) (k : Nat) (a : Acc) : Bool :=
  let c := s.core k
  let hold := fun (q : Acc) => q.holds k c.req.fences a
  ((c.wordsAhead k).any fun q => q.eng != a.eng && decide (q.walk < a.walk) && hold q)
    || (c.copiesAhead.any fun q => (if a.eng = .x then a.run == 0 || decide (q.run < a.run) else decide (q.walk < a.walk)) && hold q)
    || (s.loadsAhead k).any fun q => decide (q.walk < a.walk) && hold q

/-- The walk index below which a participant's accesses come before barrier n of a kind: none when it owes none of them
(12 R378). -/
def Core.barWalk (c : Core) (t : TaskRec) (kind n : Nat) : Option Nat :=
  match c.req.fences.find? fun f => f.bar == some (kind, n) with
  | some f => some f.walk
  | none => if c.sc.barrier == some kind && t.bars kind == n then some c.sc.ctr.walk else none

/-- The other participants of barrier n of a kind of core k's task that still owe accesses made before it, with the walk index
of the barrier there (09 Table 86, 12 R378). -/
def State.barDebtors (s : State) (k kind n : Nat) : List (Nat × Nat) :=
  match s.instOf k with
  | none => []
  | some (_, i) =>
    let me := i.tasks.find? fun (t : TaskRec) => t.core == k
    i.tasks.filterMap fun (t : TaskRec) =>
      if t.core == k || !me.any (·.joins t kind) then none
      else ((s.core t.core).barWalk t kind n).bind fun w => if (s.core t.core).owes w then some (t.core, w) else none

/-- Every access of core k's worker that is still to perform (09 R279). -/
def State.pending (s : State) (k : Nat) : List Acc :=
  let c := s.core k
  c.wordsAhead k ++ c.copiesAhead ++ s.loadsAhead k ++
    (c.req.path.filter fun p => match p.act with | .seals .. => false | _ => true).map (·.acc)

/-- Whether a barrier that core k's task has passed holds access a behind an access of another participant (09 Table 86). -/
def State.barHolds (s : State) (k : Nat) (a : Acc) : Bool :=
  (s.core k).req.fences.any fun f => match f.bar with
    | none => false
    | some (kind, n) => decide (f.walk < a.walk) && (s.barDebtors k kind n).any fun d =>
        (s.pending d.1).any fun q => decide (q.walk < d.2) && Acc.reach k f.scope q a

/-- Whether anything holds access a of core k behind what stands in `path` before it (09 R279). -/
def State.heldBehind (s : State) (k : Nat) (path : List PathItem) (a : Acc) : Bool :=
  path.any (fun p => !p.acc.later a && p.acc.holds k (s.core k).req.fences a) || s.aheadHolds k a || s.barHolds k a

/-- Whether anything holds access a on core k (09 R279). -/
def State.held (s : State) (k : Nat) (a : Acc) : Bool := s.heldBehind k (s.core k).req.path a

/-- An access of an engine's word waits until nothing holds it; an agent that is no worker has no other accesses. -/
def accessGo (a : Acc) : M PUnit := do
  let s ← get
  needs (s.here.runner.isSome || !s.held s.cur a)

/-- The access of a scalar word at the counter. -/
def scalarAcc (cls loc len : Nat) (kinds : Kinds) (rel : Option Nat := none) : M Acc := do
  let s ← get
  return { walk := s.here.sc.ctr.walk, cls := cls, kinds := kinds, home := some (s.home loc), loc := loc, len := len, rel := rel }

/-- An access of the scalar word at the counter waits until nothing holds it. -/
def mayGo (cls loc len : Nat) (kinds : Kinds) (rel : Option Nat := none) : M PUnit := do
  accessGo (← scalarAcc cls loc len kinds rel)

/-- An access of the vector or matrix word at a walk index. -/
def engineAcc (e : Engine) (walk cls loc len : Nat) (kinds : Kinds) (rel : Option Nat := none) : M Acc := do
  return { walk := walk, eng := e, cls := cls, kinds := kinds, home := some ((← get).home loc), loc := loc, len := len, rel := rel }

/-- An access of the vector or matrix engine waits until nothing holds it. -/
def engineMayGo (e : Engine) (walk cls loc len : Nat) (kinds : Kinds) : M PUnit := do
  accessGo (← engineAcc e walk cls loc len kinds)

/-- An item joins a request path before those that come after it in the walk. -/
def insertItem (p : PathItem) : List PathItem → List PathItem
  | [] => [p]
  | q :: l => if q.acc.later p.acc then p :: q :: l else q :: insertItem p l

/-- The virtual page, with its size, through which the core translated an address (08 R261). -/
def Core.pageOf (c : Core) (va : Word) : Nat × Nat :=
  match c.tlb.find? (·.covers c.job.ctx va.toNat) with
  | some t => (t.va, t.size)
  | none => (0, 0)

/-- An access of the current core's worker waits in the request path for its turn (09 R279). -/
def enqueue (a : Acc) (act : HeldAct) : M PUnit := do
  let s : State ← get
  let p : PathItem := { acc := a, who := s.whoOf s.cur, act := act }
  onHere fun c => { c with req := { c.req with path := insertItem p c.req.path } }

/-- Every scalar access at a lower walk index has performed (08 R264, 09 R270). -/
def pathEmpty : M PUnit := do
  let c ← here
  needs (c.sc.loads.isEmpty && c.req.path.all fun p => p.acc.eng != .s || match p.act with | .seals .. => true | _ => false)

/-! ## Logging and gating (14) -/

/-- Room for a logged access of the current task, or LOGFULL; a remote function waits for room (14 R408). -/
def logRoomOr (loc len : Nat) : M PUnit := do
  let s ← get
  if s.logRoom (s.whoOf s.cur) loc len then pure ()
  else if s.here.runner.isSome then await
  else trap .logfull

/-- An access that waits in the request path reserves its room (14 R408, 09 R279). -/
def enqueueLogged (a : Acc) (act : HeldAct) : M PUnit := do
  logRoomOr a.loc (max 1 a.len)
  enqueue a act

/-- A range of bytes cut at grain ends (09 R272). -/
def grainParts (va n : Nat) : List (Nat × Nat) :=
  if n = 0 then []
  else (List.range ((va + n - 1) / 256 - va / 256 + 1)).map fun i =>
    let lo := max va (256 * (va / 256 + i))
    let hi := min (va + n) (256 * (va / 256 + i + 1))
    (lo, hi - lo)

/-- Bytes that an engine's word writes at their home when their turn comes, one access for each grain (09 R272, R279). -/
def writeLater (a : Acc) (bytes : List Byte) : M PUnit :=
  (grainParts a.loc bytes.length).forM fun p =>
    enqueueLogged { a with loc := p.1, len := p.2 } (.store ((bytes.drop (p.1 - a.loc)).take p.2) none)

/-- The access passes its home: logged, or gated in replay (14 R406, R410). -/
def orderHome (loc len : Nat) : M PUnit := do
  logRoomOr loc len
  let s ← get
  match s.ordered (s.whoOf s.cur) loc len with
  | some t => set (if s.atGate s.cur loc then t.passGate s.cur loc else t)
  | none => throw (.gate loc)

/-- An ordinary access passes its home and is charged to its stack (10 R310). -/
def passHome (loc len : Nat) : M PUnit := do
  orderHome loc len
  modify fun s => s.chargeDram loc len

/-! ## At the home -/

/-- What goes out to a peer or the host is put on record. -/
def send (x : Sent) : M PUnit := modify fun s => { s with sent := s.sent ++ [x] }

/-- Bytes read from another package, with their grain's mismatch (14 R432). -/
def readPeer (loc len : Nat) : M (List Byte × BitVec 32) := do
  let f ← freshNat
  trapIf (Config.peerRefuses f) .uncorr
  let t := (← get).peerTarget loc
  send (.peer t.1 t.2 (.read len))
  return ((List.range len).map (Config.peerByte f), Config.peerMark f)

/-- Bytes written to another package; a grain written whole takes the mismatch with it (14 R432). -/
def writePeer (loc : Nat) (bs : List Byte) (mark : BitVec 32) : M PUnit := do
  let f ← freshNat
  trapIf (Config.peerRefuses f) .uncorr
  let t := (← get).peerTarget loc
  send (.peer t.1 t.2 (.write bs mark))

/-- Bytes read at their home: hallmarks are verified; the host or a peer may refuse (14 R418, R423, R432). -/
def readAt (loc len : Nat) : M (List Byte) := do
  let s ← get
  match place loc with
  | .reg => return (List.range len).map fun i =>
      (leBytes 8 (s.readReg ((loc + i - Config.regBase) / 8 * 8)).toNat).getD ((loc + i) % 8) 0
  | .host =>
    let f ← freshNat
    trapIf (Config.hostFails f) .uncorr
    return getBytes s.host (loc - Config.hostBase) len
  | .peer =>
    let r ← readPeer loc len
    trapIf (r.2 != 0) .hallmark
    return r.1
  | _ =>
    match s.verify loc len with
    | some c => trap c
    | none => return s.bytes loc len

/-- What a unit outside the workers reads at a location: from memory, at the charge of an ordinary access, or from the unit that
answers for the window (01 R18, 10 R311). -/
def State.unitRead (s : State) (pa n : Nat) : Except XFault (List Byte) × State :=
  match (readAt pa n).run (s.chargeDram pa n) with
  | .ok bs t => (.ok bs, t)
  | .error (.trap x) t => (.error ⟨x.cause, 4, 0⟩, t)
  | .error _ t => (.error ⟨.uncorr, 4, 0⟩, t)

/-- A doubleword of a context's memory as such a unit reads it: translated and verified. -/
def State.devRead (s : State) (ctx va : Nat) : Except XFault Word × State :=
  match s.translate ctx va .read with
  | .error f => (.error f, s)
  | .ok pa => let r := s.unitRead pa 8; (r.1.map fun bs => word (leNat bs), r.2)

/-- A register written with bytes that may cover a part of it (log 27). -/
def State.storeReg (s : State) (loc : Nat) (bs : List Byte) : State :=
  let o := (loc - Config.regBase) / 8 * 8
  let old := leBytes 8 (s.readReg o).toNat
  s.writeReg o (word (leNat (old.take (loc % 8) ++ bs ++ old.drop (loc % 8 + bs.length))))

/-- The registers that a range of bytes covers, written in address order. -/
def State.storeRegs (s : State) (loc : Nat) (bs : List Byte) : State :=
  if bs.isEmpty then s
  else
    (List.range ((loc + bs.length - 1) / 8 - loc / 8 + 1)).foldl
      (fun t i =>
        let lo := max loc (8 * (loc / 8 + i))
        let hi := min (loc + bs.length) (8 * (loc / 8 + i + 1))
        t.storeReg lo ((bs.drop (lo - loc)).take (hi - lo))) s

/-- Bytes written at their home. -/
def writeAt (loc : Nat) (bs : List Byte) : M PUnit := do
  match place loc with
  | .reg => modify fun s => s.storeRegs loc bs
  | .host => modify fun s => { s with host := putBytes s.host (loc - Config.hostBase) bs }
  | .peer => writePeer loc bs 0
  | _ => modify fun s => s.write loc bs

/-- Bytes written at their home by a word that has not retired: a write that meets a bad or poisoned grain in part lands,
and its cause is raised at the word (14 R417). -/
def writeChecked (loc : Nat) (bs : List Byte) : M PUnit := do
  let bad := (← get).partBad loc bs.length
  writeAt loc bs
  match bad with
  | some c => throw (.trapAfter { cause := c })
  | none => pure ()

/-! ## The scalar data cache (04 R110-R113) -/

/-- Every ordinary line leaves the cache (04 R112). -/
def emptyOrdinary : M PUnit := onHere fun c => { c with sc := { c.sc with dcache := c.sc.dcache.filter (·.constant) } }

/-- A line that covers an address, for a lookup of either kind (04 R111). -/
def Scalar.line (c : Scalar) (va : Nat) (constant : Bool) : Option Line :=
  c.dcache.find? fun l => l.num == va / 64 && (constant || !l.constant)

/-- A stored range updates the line that holds it (04 R111). -/
def Line.update (l : Line) (va : Nat) (bs : List Byte) : Line :=
  if l.num = va / 64 then
    { l with bytes := l.bytes.take (va % 64) ++ bs ++ l.bytes.drop (va % 64 + bs.length) }
  else l

/-- Whether a place's bytes may stand in the data cache (04 R110). -/
def cacheable (loc : Nat) : Bool :=
  match place loc with
  | .dram => true | .kv => true | .host => true
  | .pad => false | .reg => false | .peer => false | .trav => false | .reserved => false

/-- A load of len bytes, aligned, whose access `a` waits for its turn, through the cache (04 R111, R112): a hit reads the
line; a miss reads the grain at its home and fills the line; scratchpad and register addresses are never cached (R110). -/
def loadBytes (r : Ref) (constant acquire : Bool) (a : Nat → Nat → M Acc) : M (List Byte) := do
  let va := r.va.toNat
  if acquire then emptyOrdinary
  let loc ← locate r.va .read .s
  let c ← here
  let plain := isPad r.va || c.runner.isSome || !cacheable loc
  match if plain then none else c.sc.line va constant with
  | some l => return (l.bytes.drop (va % 64)).take r.size
  | none =>
    if plain then
      accessGo (← a loc r.size)
      if place loc != .reg && place loc != .peer then passHome loc r.size
      readAt loc r.size
    else
      let g := loc / 256 * 256
      accessGo (← a g 256)
      passHome g 256
      let bs ← readAt g 256
      let l : Line := { num := va / 64, constant := constant, bytes := (bs.drop (loc % 256 / 64 * 64)).take 64 }
      onHere fun c => { c with sc := { c.sc with dcache := (l :: c.sc.dcache.filter (·.num != va / 64)).take 1024 } }
      return (l.bytes.drop (va % 64)).take r.size

/-! ## Text (02 R30) -/

/-- The grain of text that holds a location, through the text cache of 128 KiB; a fill verifies the grain and is charged
(02 R30, 01 Table 7, 10 R311). -/
def textGrain (loc : Nat) : M (List Byte) := do
  let g := loc / 256
  match (← here).text.find? fun p => p.1 == g with
  | some p => return p.2
  | none =>
    match (← get).verify loc 4 with
    | some c => trap c
    | none =>
      modify fun s => s.chargeDram (256 * g) 256
      let bs := (← get).bytes (256 * g) 256
      onHere fun c => { c with text := ((g, bs) :: c.text).take 512 }
      return bs

/-- Text at an address: execute permission, and the word's bytes, from the text cache or, where they lie in the host or
register window, from the unit that has them (02 R30, 01 R18). -/
def fetchText (va : Word) : M (BitVec 32) := do
  if isPad va then xfail ⟨.protect, 0, 10⟩ .exec .s va
  else
    let pa ← resolve va .exec .s
    match place pa with
    | .dram => return wordOfBytes (((← textGrain pa).drop (pa % 256)).take 4)
    | .kv => return wordOfBytes (((← textGrain pa).drop (pa % 256)).take 4)
    | _ => return wordOfBytes (← readAt pa 4)

/-! ## The store hash (14 R413) -/

/-- One fold of the store hash. -/
def foldHash (h : Word) (k : Nat) (a v : Word) : Word := h.rotateLeft 9 ^^^ a ^^^ (v * 0x100000001B3) ^^^ word k

/-- The hash takes a fold. -/
def hash (k : Nat) (a v : Word) : M PUnit := onHere fun c => { c with sc := { c.sc with hash := foldHash c.sc.hash k a v } }

end Sys2Proof.Machine
end

