-- ==== Sys2Proof/Machine/Aes.lean ====
section
/-! DEFINITION. AES-256-GCM with an empty additional data and a 96-bit nonce, as X.HDEC decrypts (14 R425); the cipher
itself is the public standard that R425 names (log 15). -/

namespace Sys2Proof.Machine

/-- A block as its sixteen bytes in order. -/
abbrev Block := List Byte

/-- Two lists of bytes, combined bit by bit. -/
def xorBytes (a b : List Byte) : List Byte := (a.zip b).map fun p => p.1 ^^^ p.2

/-- A field element of AES times x. -/
def aesTwice (b : Byte) : Byte := (b <<< 1) ^^^ (if b.msb then 0x1B else 0)

/-- The substitution table of the standard, sixteen bytes a row, the first byte of a row the highest. -/
def aesRows : List Nat := [
  0x637C777BF26B6FC53001672BFED7AB76,
  0xCA82C97DFA5947F0ADD4A2AF9CA472C0,
  0xB7FD9326363FF7CC34A5E5F171D83115,
  0x04C723C31896059A071280E2EB27B275,
  0x09832C1A1B6E5AA0523BD6B329E32F84,
  0x53D100ED20FCB15B6ACBBE394A4C58CF,
  0xD0EFAAFB434D338545F9027F503C9FA8,
  0x51A3408F929D38F5BCB6DA2110FFF3D2,
  0xCD0C13EC5F974417C4A77E3D645D1973,
  0x60814FDC222A908846EEB814DE5E0BDB,
  0xE0323A0A4906245CC2D3AC629195E479,
  0xE7C8376D8DD54EA96C56F4EA657AAE08,
  0xBA78252E1CA6B4C6E8DD741F4BBD8B8A,
  0x703EB5664803F60E613557B986C11D9E,
  0xE1F8981169D98E949B1E87E9CE5528DF,
  0x8CA1890DBFE6426841992D0FB054BB16]

/-- The substitution of one byte. -/
def aesSub (a : Byte) : Byte := BitVec.ofNat 8 (aesRows.getD (a.toNat / 16) 0 >>> (8 * (15 - a.toNat % 16)))

/-- The four-byte words of the key schedule, from the eight of the key. -/
def aesSchedule (key : List Byte) : List (List Byte) :=
  let start := (List.range 8).map fun i => (key.drop (4 * i)).take 4
  ((List.range 52).foldl (fun (p : List (List Byte) × Byte) k =>
    let i := k + 8
    let prev := p.1.getD (i - 1) []
    let t :=
      if i % 8 = 0 then xorBytes ((prev.rotateLeft 1).map aesSub) [p.2, 0, 0, 0]
      else if i % 8 = 4 then prev.map aesSub
      else prev
    (p.1 ++ [xorBytes (p.1.getD (i - 8) []) t], if i % 8 = 0 then aesTwice p.2 else p.2)) (start, 1)).1

/-- One column mixed. -/
def aesColumn (c : List Byte) : List Byte :=
  (List.range 4).map fun r =>
    aesTwice (c.getD r 0) ^^^ (aesTwice (c.getD ((r + 1) % 4) 0) ^^^ c.getD ((r + 1) % 4) 0) ^^^ c.getD ((r + 2) % 4) 0
      ^^^ c.getD ((r + 3) % 4) 0

/-- The key of a round. -/
def aesKey (ws : List (List Byte)) (round : Nat) : Block := ((ws.drop (4 * round)).take 4).flatten

/-- A round: substitution, row shifts, and but for the last one the columns mixed, then the key. -/
def aesRound (ws : List (List Byte)) (st : Block) (round : Nat) : Block :=
  let shifted := (List.range 16).map fun i => aesSub (st.getD ((i % 4) + 4 * ((i / 4 + i % 4) % 4)) 0)
  let mixed :=
    if round = 14 then shifted
    else ((List.range 4).map fun c => aesColumn ((shifted.drop (4 * c)).take 4)).flatten
  xorBytes mixed (aesKey ws round)

/-- One block under AES-256. -/
def aesBlock (ws : List (List Byte)) (x : Block) : Block :=
  (List.range 14).foldl (fun st i => aesRound ws st (i + 1)) (xorBytes x (aesKey ws 0))

/-! ## Galois/counter mode -/

/-- The number that big-endian bytes spell, and n big-endian bytes of a number. -/
def beNat (bs : List Byte) : Nat := bs.foldl (fun acc b => 256 * acc + b.toNat) 0
def beBytes (n x : Nat) : List Byte := (leBytes n x).reverse

/-- A product in the field of GHASH, the first bit of a block being its most significant. -/
def gcmMul (x y : BitVec 128) : BitVec 128 :=
  ((List.range 128).foldl (fun (p : BitVec 128 × BitVec 128) i =>
    (if x.getLsbD (127 - i) then p.1 ^^^ p.2 else p.1,
     if p.2.getLsbD 0 then (p.2 >>> 1) ^^^ (0xE1 <<< 120) else p.2 >>> 1)) (0, y)).1

/-- Block k of bytes, filled with zero bytes. -/
def gcmPart (bs : List Byte) (k : Nat) : Block :=
  let p := (bs.drop (16 * k)).take 16
  p ++ List.replicate (16 - p.length) 0

/-- The counter block k of a nonce. -/
def gcmCounter (nonce : List Byte) (k : Nat) : Block := nonce ++ beBytes 4 k

/-- The tag of a ciphertext. -/
def gcmTag (ws : List (List Byte)) (nonce ct : List Byte) : Block :=
  let h : BitVec 128 := BitVec.ofNat 128 (beNat (aesBlock ws (List.replicate 16 0)))
  let step := fun (acc : BitVec 128) (b : Block) => gcmMul (acc ^^^ BitVec.ofNat 128 (beNat b)) h
  let body := ((List.range ((ct.length + 15) / 16)).map (gcmPart ct)).foldl step 0
  let all := step body (beBytes 16 (8 * ct.length))
  xorBytes (beBytes 16 all.toNat) (aesBlock ws (gcmCounter nonce 1))

/-- The plaintext of a ciphertext. -/
def gcmText (ws : List (List Byte)) (nonce ct : List Byte) : List Byte :=
  ((List.range ((ct.length + 15) / 16)).map fun k =>
    xorBytes ((ct.drop (16 * k)).take 16) (aesBlock ws (gcmCounter nonce (k + 2)))).flatten

/-- A message decrypted: none when its tag does not verify (14 R425). -/
def gcmOpen (key : BitVec 256) (nonce ct tag : List Byte) : Option (List Byte) :=
  let ws := aesSchedule (leBytes 32 key.toNat)
  if gcmTag ws nonce ct = tag then some (gcmText ws nonce ct) else none

end Sys2Proof.Machine
end

