-- ==== Sys2Proof/Machine/LoadStore.lean ====
section
/-! DEFINITION. Loads, stores, atomics, fences, RINV and the tag words (04 R113, R123-R126; 07 R214-R216;
09 R282-R290). -/

namespace Sys2Proof.Machine

/-! ## Shared parts -/

/-- Base plus a signed offset in elements (04 R123, R125). -/
def offsetAddr (base : Word) (off : Int) (size : Nat) : Word := base + BitVec.ofInt 64 (off * size)

/-- What a load drops (04 R123). -/
def extend (signed : Bool) (size x : Nat) : Word := if signed then BitVec.ofInt 64 (sext (8 * size) x) else word x

/-- The checker core compares a value that leaves: a mismatch raises ASSAY before the word (02 R44, 14 R419). -/
def checkLeaving (s0 : State) : M PUnit := do
  if s0.here.checkerBad then
    set (s0.setHere { s0.here with checkerBad := false })
    throw (Stop.trapAfter { cause := .assay })

/-- The scalar engine retires its word now. -/
def retire (d : Drop) : M PUnit := do
  let now := (← get).stamp
  onHere fun c => c.scalarDone now d

/-- Whether a word that waits so drops an item, which lands at issue beat + 4 (04 R97, R123, 07 R215). -/
def LoadKind.drops : LoadKind → Bool
  | .advance .. => false
  | _ => true

/-- A word has issued and has not retired: what it waits for is to come, and the engine goes on (04 R97). -/
def awaitData (s0 : State) (cls loc : Nat) (kind : LoadKind) : M PUnit := do
  checkLeaving s0
  onHere fun c =>
    let x := c.sc
    let back : ScalarBack := {
      ctr := x.ctr, strand := x.strand, flight := x.flight, beat := x.beat, targets := x.targets, landing := x.landing }
    let l : PendLoad := { walk := x.ctr.walk, due := x.beat + 4, cls := cls, loc := loc, kind := kind, back := back }
    let f : InFlight := { due := x.beat + 4, items := [], src := some x.ctr.walk }
    { c with sc := { x with loads := x.loads ++ [l], flight := if kind.drops then x.flight ++ [f] else x.flight } }
  retire {}

/-- A load issues: its checks are made and its data is awaited (04 R123, R124, R126); the checker core compares its access
(14 R419). -/
def issueLoad (i : Instr) (a : BitVec 5) (cls : BitVec 4) (sz : BitVec 2) (signed constant acquire : Bool) (o : BitVec 11)
    (s : State) : Host.Outcome State Fault Refusal :=
  finish .s s ((do
    scalarReady i
    let s0 ← get
    let x ← item a
    let size := 2 ^ sz.toNat
    let va := offsetAddr x o.toInt size
    aligned va size .read .s
    let loc ← locate va .read .s
    awaitData s0 cls.toNat loc (.mem ⟨va, size, cls.toNat⟩ signed constant acquire)).run s)

/-- A store reaches its place: a remote function or a peer at once, all else through the request path (04 R125, 09 R279,
10 R318). -/
def storeTo (cls : Nat) (rel : Bool) (va : Word) (loc : Nat) (bs : List Byte) : M PUnit := do
  if (← here).runner.isSome then
    passHome loc bs.length
    writeChecked loc bs
  else
    let a ← scalarAcc cls loc bs.length { w := true } (if rel then some 3 else none)
    let a := { a with page := (← here).pageOf va }
    if place loc = .peer then
      accessGo a
      writeAt loc bs
    else enqueueLogged a (.store bs none)

/-- The value an atomic writes (09 Table 88). -/
def atomWrite (op : AtomOp) (m b c : Word) : Option Word :=
  match op with
  | .xch => some b
  | .cas => if m = b then some c else none
  | .add => some (m + b)
  | .and => some (m &&& b)
  | .or => some (m ||| b)
  | .xor => some (m ^^^ b)
  | .min => some (if m.toInt ≤ b.toInt then m else b)
  | .max => some (if m.toInt ≤ b.toInt then b else m)
  | .minn => some (if m.toNat ≤ b.toNat then m else b)
  | .maxn => some (if m.toNat ≤ b.toNat then b else m)

/-- Which atomics PCIe carries (09 R286). -/
def atomPcie : AtomOp → Bool
  | .xch | .cas | .add => true
  | _ => false

/-- The old value of an atomic, from its home (09 R286, 14 R432). -/
def atomRead (op : AtomOp) (loc : Nat) (b c : Word) : M Word := do
  if place loc = .peer then
    let f ← freshNat
    trapIf (Config.peerRefuses f) .uncorr
    let t := (← get).peerTarget loc
    send (.peer t.1 t.2 (.atomic op b c))
    trapIf (Config.peerMark f != 0) .hallmark
    return Config.peerWord f
  else return word (leNat (← readAt loc 8))

/-- An atomic performs at its home: read, compute, write, as one step; the line of its address leaves the cache; the store
hash takes its folds (09 R285-R287, 04 R111, R112, 14 R413). -/
def atomPerform (op : AtomOp) (r : Ref) (b c : Word) (acq : Bool) (rel : Option Nat) : M Word := do
  let loc ← locate r.va .both .s
  trapIf (place loc == Place.host && !atomPcie op) .operand
  mayGo r.cls loc 8 { r := true, w := true } rel
  passHome loc 8
  let m ← atomRead op loc b c
  let v := atomWrite op m b c
  match v with
  | some x => if place loc = .peer then pure () else writeAt loc (leBytes 8 x.toNat)
  | none => pure ()
  onHere fun k => { k with sc := { k.sc with dcache := k.sc.dcache.filter (·.num != r.va.toNat / 64) } }
  if acq then emptyOrdinary
  hash 2 r.va m
  match v with
  | some x => hash 3 r.va x
  | none => pure ()
  return m

/-- An atomic word: in a convoy window it waits for its turn, otherwise it performs (09 R285, R290). -/
def atomicWord (i : Instr) (op : AtomOp) (a b : BitVec 5) (c : Option (BitVec 5)) (k : BitVec 4) (o : BitVec 2)
    (sc : BitVec 3) (s : State) : Host.Outcome State Fault Refusal :=
  finish .s s ((do
    scalarReady i
    let s0 ← get
    let x ← item a
    let y ← item b
    let z ← match c with | some c => item c | none => pure 0
    aligned x 8 .both .s
    let r : Ref := ⟨x, 8, k.toNat⟩
    let acq := o.getLsbD 0 && sc != 0
    let rel := if o.getLsbD 1 then some sc.toNat else none
    let h := s0.here
    if h.sc.convOn && h.runner.isNone then
      let loc ← locate x .both .s
      trapIf (place loc == Place.host && !atomPcie op) .operand
      let p : ConvoyAtom := {
        window := h.sc.win, num := h.sc.convn, op := op, ref := r, b := y, c := z, acq := acq, rel := rel }
      onHere fun c => { c with sc := { c.sc with pend := some p } }
    else
      let m ← atomPerform op r y z acq rel
      checkLeaving s0
      retire { items := [m] }).run s)

/-- The kinds a fence field names (09 R282). -/
def kindsOf (p : BitVec 6) : Kinds :=
  { r := p.getLsbD 5, w := p.getLsbD 4, cr := p.getLsbD 3, cw := p.getLsbD 2, mr := p.getLsbD 1, mw := p.getLsbD 0 }

/-- The kinds of the other engines among them. -/
def Kinds.engines (k : Kinds) : Kinds := { k with r := false, w := false }

/-- Whether a fence's scalar engine waits for an access (09 R283): of another engine, named by pred and the mask, and
within the reach; one whose home is not known may be. -/
def fenceWaits (core : Nat) (pred : Kinds) (sc : Nat) (mask : BitVec 16) (q : Acc) : Bool :=
  q.eng != .s && q.kinds.meets pred.engines && mask.getLsbD q.cls &&
    match q.home with
    | some h => reaches sc core h
    | none => sc != 0

/-- A fence over the classes of a mask (09 R283): the scalar engine waits for the covered accesses of the other engines;
the fence stays in the request path while an access it covers is to come. -/
def fenceBody (p q : BitVec 6) (sc : BitVec 3) (mask : BitVec 16) : M Drop := do
  let s ← get
  let c := s.here
  let w := c.sc.ctr.walk
  let due := c.wordsAhead s.cur ++ c.copiesAhead ++ c.req.path.map (·.acc)
  needs (!due.any fun a => decide (a.walk < w) && fenceWaits s.cur (kindsOf p) sc.toNat mask a)
  let f : FenceRec := { walk := w, pred := kindsOf p, succ := kindsOf q, scope := sc.toNat, mask := mask }
  onHere fun c => ({ c with req := { c.req with fences := c.req.fences ++ [f] } } : Core).trimFences
  if (kindsOf q).r && sc != 0 then emptyOrdinary
  return {}

/-! ## Loads and stores -/

/-- LD (04 R123). -/
def execLd (a : BitVec 5) (c : BitVec 4) (sz : BitVec 2) (g q : Bool) (o : BitVec 11) (s : State) :
    Host.Outcome State Fault Refusal := issueLoad (.ld a c sz g q o) a c sz g false q o s

/-- LDK (04 R124). -/
def execLdk (a : BitVec 5) (c : BitVec 4) (sz : BitVec 2) (g : Bool) (o : BitVec 11) (s : State) :
    Host.Outcome State Fault Refusal := issueLoad (.ldk a c sz g o) a c sz g true false o s

/-- ST (04 R125). -/
def execSt (a v : BitVec 5) (c : BitVec 4) (sz : BitVec 2) (l : Bool) (o : BitVec 7) (s : State) :
    Host.Outcome State Fault Refusal :=
  leavingWord (.st a v c sz l o) (do
    let x ← item a
    let y ← item v
    let size := 2 ^ sz.toNat
    let va := offsetAddr x o.toInt size
    aligned va size .write .s
    let loc ← locate va .write .s
    let bs := leBytes size y.toNat
    storeTo c.toNat l va loc bs
    if !isPad va then
      onHere fun k => { k with sc := { k.sc with dcache := k.sc.dcache.map (·.update va.toNat bs) } }
    hash 1 va (word (leNat bs))
    return {}) s

/-! ## Atomics -/

/-- AXCH (09 R285). -/
def execAxch (a b : BitVec 5) (k : BitVec 4) (o : BitVec 2) (sc : BitVec 3) (s : State) :
    Host.Outcome State Fault Refusal := atomicWord (.axch a b k o sc) .xch a b none k o sc s
/-- ACAS (09 R285). -/
def execAcas (a b c : BitVec 5) (k : BitVec 4) (o : BitVec 2) (sc : BitVec 3) (s : State) :
    Host.Outcome State Fault Refusal := atomicWord (.acas a b c k o sc) .cas a b (some c) k o sc s
/-- AADD (09 R285). -/
def execAadd (a b : BitVec 5) (k : BitVec 4) (o : BitVec 2) (sc : BitVec 3) (s : State) :
    Host.Outcome State Fault Refusal := atomicWord (.aadd a b k o sc) .add a b none k o sc s
/-- AAND (09 R285). -/
def execAand (a b : BitVec 5) (k : BitVec 4) (o : BitVec 2) (sc : BitVec 3) (s : State) :
    Host.Outcome State Fault Refusal := atomicWord (.aand a b k o sc) .and a b none k o sc s
/-- AOR (09 R285). -/
def execAor (a b : BitVec 5) (k : BitVec 4) (o : BitVec 2) (sc : BitVec 3) (s : State) :
    Host.Outcome State Fault Refusal := atomicWord (.aor a b k o sc) .or a b none k o sc s
/-- AXOR (09 R285). -/
def execAxor (a b : BitVec 5) (k : BitVec 4) (o : BitVec 2) (sc : BitVec 3) (s : State) :
    Host.Outcome State Fault Refusal := atomicWord (.axor a b k o sc) .xor a b none k o sc s
/-- AMIN (09 R285). -/
def execAmin (a b : BitVec 5) (k : BitVec 4) (o : BitVec 2) (sc : BitVec 3) (s : State) :
    Host.Outcome State Fault Refusal := atomicWord (.amin a b k o sc) .min a b none k o sc s
/-- AMAX (09 R285). -/
def execAmax (a b : BitVec 5) (k : BitVec 4) (o : BitVec 2) (sc : BitVec 3) (s : State) :
    Host.Outcome State Fault Refusal := atomicWord (.amax a b k o sc) .max a b none k o sc s
/-- AMINN (09 R285). -/
def execAminn (a b : BitVec 5) (k : BitVec 4) (o : BitVec 2) (sc : BitVec 3) (s : State) :
    Host.Outcome State Fault Refusal := atomicWord (.aminn a b k o sc) .minn a b none k o sc s
/-- AMAXN (09 R285). -/
def execAmaxn (a b : BitVec 5) (k : BitVec 4) (o : BitVec 2) (sc : BitVec 3) (s : State) :
    Host.Outcome State Fault Refusal := atomicWord (.amaxn a b k o sc) .maxn a b none k o sc s

/-! ## Fences and lines -/

/-- FENCE (09 R282, R283). -/
def execFence (p q : BitVec 6) (sc : BitVec 3) (m : BitVec 5) (s : State) : Host.Outcome State Fault Refusal :=
  strandWord (.fence p q sc m) (do
    let x ← item m
    trapIf (x == 0 || x.toNat ≥ 2 ^ 16) .operand
    fenceBody p q sc (x.setWidth 16)) s

/-- FENCEA (09 R282, R283). -/
def execFencea (p q : BitVec 6) (sc : BitVec 3) (s : State) : Host.Outcome State Fault Refusal :=
  strandWord (.fencea p q sc) (fenceBody p q sc (BitVec.allOnes 16)) s

/-- RINV (04 R113). -/
def execRinv (a b : BitVec 5) (k : Bool) (s : State) : Host.Outcome State Fault Refusal :=
  strandWord (.rinv a b k) (do
    let x ← item a
    let y ← item b
    let covered := fun (l : Line) => (k || !l.constant) && meetRanges (64 * l.num) 64 x.toNat y.toNat
    if y != 0 then
      onHere fun c => { c with sc := { c.sc with dcache := c.sc.dcache.filter fun l => !covered l } }
    return {}) s

/-! ## The tag table (07 R213-R216) -/

/-- The tag of a key (07 R213); a key with bits above 51 raises OPERAND (R214). -/
def tagOf (key : Word) : M (BitVec 36) :=
  if key.toNat < 2 ^ 52 then pure (key.extractLsb' 16 36) else trap .operand

/-- The slot whose valid entry holds a tag, and the lowest entry not valid (07 R215). -/
def Crew.slotOf (c : Crew) (t : BitVec 36) : Option Nat := (c.tags.find? fun p => p.2 == t).map (·.1)
def Crew.freeSlot (c : Crew) : Option Nat := firstFrom (fun k => c.tags.all fun p => p.1 != k) 1024 0

/-- The crew of the current core, and the same changed. -/
def hereCrew : M Crew := do let s ← get; return s.crew (clusterOf s.cur)
def setHereCrew (c : Crew) : M PUnit := modify fun s => s.setCrew (clusterOf s.cur) c

/-- A TLOOK issues: its answer is awaited as a load's data (07 R215). -/
def issueLook (i : Instr) (c : BitVec 4) (kind : M LoadKind) (s : State) : Host.Outcome State Fault Refusal :=
  finish .s s ((do
    scalarReady i
    let s0 ← get
    let k ← kind
    awaitData s0 c.toNat (padLoc (clusterOf s0.cur) 0) k).run s)

/-- TLOOK FIND (07 R215). -/
def execTlookFind (a : BitVec 5) (c : BitVec 4) (s : State) : Host.Outcome State Fault Refusal :=
  issueLook (.tlookFind a c) c (do return .tagFind (← tagOf (← item a))) s

/-- TLOOK CLAIM (07 R215). -/
def execTlookClaim (a : BitVec 5) (c : BitVec 4) (s : State) : Host.Outcome State Fault Refusal :=
  issueLook (.tlookClaim a c) c (do return .tagClaim (← tagOf (← item a))) s

/-- TLOOK FREE (07 R215). -/
def execTlookFree (c : BitVec 4) (s : State) : Host.Outcome State Fault Refusal :=
  issueLook (.tlookFree c) c (pure .tagFree) s

/-- What a TLOOK answers at the crew home (07 R215); all ones when there is none. -/
def lookUp (k : LoadKind) : M Word := do
  let w ← hereCrew
  let found := fun (n : Option Nat) => match n with | some k => word k | none => BitVec.allOnes 64
  match k with
  | .tagFind t => return found (w.slotOf t)
  | .tagFree => return found w.freeSlot
  | .tagClaim t =>
    match w.slotOf t, w.freeSlot with
    | some k, _ => return word k
    | none, some k =>
      setHereCrew { w with tags := w.tags.put k t }
      return word (0x10000 + k)
    | none, none => return BitVec.allOnes 64
  | .mem .. => return 0
  | .advance .. => return 0

/-- TSETK and TDROP: a write of the tag table that waits in the request path (07 R216, 09 R279). -/
def tagWrite (c : BitVec 4) (act : HeldAct) : M Drop := do
  let a ← scalarAcc c.toNat (padLoc (clusterOf (← get).cur) 0) 0 { w := true }
  enqueueLogged a act
  return {}

/-- TSETK (07 R216). -/
def execTsetk (a b : BitVec 5) (c : BitVec 4) (s : State) : Host.Outcome State Fault Refusal :=
  leavingWord (.tsetk a b c) (do
    let k ← item a
    let key ← item b
    trapIf (decide (1023 < k.toNat)) .operand
    let t ← tagOf key
    tagWrite c (.tagSet k.toNat t)) s

/-- TDROP (07 R216). -/
def execTdrop (a : BitVec 5) (c : BitVec 4) (s : State) : Host.Outcome State Fault Refusal :=
  leavingWord (.tdrop a c) (do
    let k ← item a
    trapIf (decide (1023 < k.toNat)) .operand
    tagWrite c (.tagDrop k.toNat)) s

end Sys2Proof.Machine
end

