-- ==== Sys2Proof/Machine/Control.lean ====
section
/-! DEFINITION. Control flow (04 R127-R134), seals (07 R225-R227), data queues (07 R217-R224), hand-offs (07 R228, 06 R185)
and the k-registers (04 R102-R109). -/

namespace Sys2Proof.Machine

/-! ## Control flow -/

/-- A target register; an unset one raises OPERAND (04 R127). -/
def targetReg (t : BitVec 2) : M Word := do
  match (← here).sc.targets.getD t.toNat none with
  | some a => return a
  | none => trap .operand

/-- A route word's outcome goes into the route queue; with the queue full the word waits (02 R34, R35). A remote function
has no engines behind it. -/
def routeTo (a : Word) : M Drop := do
  let c ← here
  if c.runner.isNone then
    needs (decide (c.hand.route.length < 64))
    let r : RouteOut := { walk := c.sc.ctr.walk, target := a }
    onHere fun c => { c with hand := { c.hand with route := c.hand.route ++ [r] } }
  return { target := some a }

/-- The next word must be a CLASP (04 R134). -/
def landingNext : M PUnit := onHere fun c => { c with sc := { c.sc with landing := true } }

/-- PBR (04 R128); in a remote function the target stays within its page (10 R318). -/
def execPbr (t : BitVec 2) (o : BitVec 22) (s : State) : Host.Outcome State Fault Refusal :=
  strandWord (.pbr t o) (do
    let c ← here
    let a := c.sc.ctr.addr + BitVec.ofInt 64 (4 * o.toInt)
    match c.runner with
    | some r => trapIf (decide (a.toNat < r.page) || decide (r.page + r.size ≤ a.toNat)) .protect
    | none => pure ()
    onHere fun c => { c with sc := { c.sc with targets := c.sc.targets.set t.toNat (some a) } }
    return {}) s

/-- Whether a condition of R129 holds. -/
def condHolds (c : BitVec 3) (x : Word) : Bool :=
  match c.toNat with
  | 0 => true
  | 1 => x == 0
  | 2 => x != 0
  | 3 => x.msb
  | _ => !x.msb

/-- BR (04 R129). -/
def execBr (t : BitVec 2) (i : BitVec 5) (c : BitVec 3) (s : State) : Host.Outcome State Fault Refusal :=
  leavingWord (.br t i c) (do
    let a ← targetReg t
    let x ← if c == 0 then pure 0 else item i
    let next := (← here).sc.ctr.addr + 4
    routeTo (if condHolds c x then a else next)) s

/-- CALL (04 R131). -/
def execCall (t : BitVec 2) (s : State) : Host.Outcome State Fault Refusal :=
  leavingWord (.call t) (do
    let a ← targetReg t
    let c ← here
    trapIf (decide (32 ≤ c.sc.calls.length)) .operand
    let d ← routeTo a
    onHere fun c => { c with sc := { c.sc with calls := (c.sc.ctr.addr + 4) :: c.sc.calls } }
    landingNext
    return d) s

/-- RETS (04 R132). -/
def execRets (s : State) : Host.Outcome State Fault Refusal :=
  leavingWord .rets (do
    match (← here).sc.calls with
    | [] => trap .retmiss
    | a :: rest =>
      let d ← routeTo a
      onHere fun c => { c with sc := { c.sc with calls := rest } }
      return d) s

/-- JTB (04 R133). -/
def execJtb (t : BitVec 2) (i : BitVec 5) (b : BitVec 10) (s : State) : Host.Outcome State Fault Refusal :=
  leavingWord (.jtb t i b) (do
    let a ← targetReg t
    let x ← item i
    trapIf (decide (b.toNat ≤ x.toNat)) .jtbound
    let e ← fetchText (a + word (4 * x.toNat))
    trapIf (e.toNat / 2 ^ 22 != 0) .operand
    let d ← routeTo (a + BitVec.ofInt 64 (4 * sext 22 e.toNat))
    landingNext
    return d) s

/-- CLASP (04 R134). -/
def execClasp (l : BitVec 16) (s : State) : Host.Outcome State Fault Refusal :=
  strandWord (.clasp l) (do
    onHere fun c => { c with sc := { c.sc with landing := false } }
    return {}) s

/-! ## Seals -/

/-- The engine a peer field names (02 R29, R49). -/
def engineOf (p : BitVec 2) : Engine :=
  match p.toNat with
  | 0 => .s | 1 => .v | 2 => .m | _ => .x

/-- The FIFO from one engine to another (07 R225). -/
def sealKey (g t : Engine) : Nat := g.tag * 4 + t.tag
def Core.sealCount (c : Core) (g t : Engine) : Nat := Sparse.get 0 c.seals (sealKey g t)
def Core.setSeals (c : Core) (g t : Engine) (n : Nat) : Core := { c with seals := Sparse.putD 0 c.seals (sealKey g t) n }

/-- Seals that earlier GIVE words of engine e are still due to push to a peer (07 R227). -/
def Core.sealsDue (c : Core) (e t : Engine) : Nat :=
  (c.req.path.map fun p => match p.act with | .seals q n => if p.acc.eng = e ∧ q = t then n else 0 | _ => 0).sum

/-- A GIVE of engine e (07 R226, R227): its seals follow the accesses of e that still wait in the request path (09 R278). -/
def giveSeals (e t : Engine) (n : Nat) : M PUnit := do
  let c ← here
  needs (decide (c.sealCount e t + c.sealsDue e t + n ≤ 15))
  if c.req.path.all fun p => p.acc.eng != e then onHere fun c => c.setSeals e t (c.sealCount e t + n)
  else enqueue { walk := (c.at_ e).1, eng := e } (.seals t n)

/-- n seals for engine e are popped, or the word waits (07 R226). -/
def takeSeals (e g : Engine) (n : Nat) : M PUnit := do
  let c ← here
  needs (decide (n ≤ c.sealCount g e))
  onHere fun c => c.setSeals g e (c.sealCount g e - n)

/-- GIVE (07 R226). -/
def execGive (p : BitVec 2) (n : BitVec 4) (s : State) : Host.Outcome State Fault Refusal :=
  leavingWord (.give p n) (do
    giveSeals .s (engineOf p) n.toNat
    return {}) s

/-- TAKE (07 R226); the checker core compares its seal count (14 R419). -/
def execTake (p : BitVec 2) (n : BitVec 4) (s : State) : Host.Outcome State Fault Refusal :=
  leavingWord (.take p n) (do
    takeSeals .s (engineOf p) n.toNat
    return {}) s

/-! ## Data queues -/

/-- Slot count, slot bytes and base of a geometry (07 Table 72). -/
def geomSlots (g : Word) : Nat := fld g.toNat 36 12 + 1
def geomBytes (g : Word) : Nat := 256 * 2 ^ fld g.toNat 32 4
def geomBase (g : Word) : Nat := fld g.toNat 0 26

/-- The value checks of QSET (07 R219). -/
def geomOk (ctl g : Word) : Bool :=
  let n := g.toNat
  let c := fld ctl.toNat 0 26
  isPad ctl && decide (fld ctl.toNat 26 37 = 0) && decide (ctl.toNat % 64 = 0)
    && decide (fld n 48 15 = 0) && decide (fld n 26 6 = 0) && decide (fld n 32 4 ≤ 8)
    && decide (geomBase g % 256 = 0) && decide (geomBase g + geomSlots g * geomBytes g ≤ 2 ^ 26)
    && !meetRanges c 64 (geomBase g) (geomSlots g * geomBytes g)

/-- A handle as an engine holds it; an unset one raises QFAULT (07 R218). -/
def heldHandle (hs : List (Option Handle)) (h : Nat) : M Handle :=
  match hs.getD h none with
  | some q => pure q
  | none => trap .qfault

/-- The side of handle h set by QSET gen (07 R220). -/
def Core.side (c : Core) (h gen : Nat) (prod : Bool) : Option Side :=
  (c.sides.find? fun p => p.1 == h && p.2.gen == gen && p.2.prod == prod).map (·.2)

/-- That side becomes x. -/
def Core.setSide (c : Core) (h : Nat) (x : Side) : Core :=
  { c with sides := (h, x) :: c.sides.filter fun p => !(p.1 == h && p.2.gen == x.gen && p.2.prod == x.prod) }

/-- Claims of the worker on a side that it has not advanced (07 R218). -/
def Core.claims (c : Core) (h gen : Nat) (prod : Bool) : Nat :=
  match c.side h gen prod with | some x => x.claims | none => 0

/-- Whether every engine but e has stopped or stands above walk index w (07 R222); for the scalar engine's own word, which
the others pass as soon as it has issued (02 R33), they need only stand at it (log 46). -/
def Core.abovePlace (c : Core) (e : Engine) (w : Nat) : Bool :=
  [Engine.s, .v, .m, .x].all fun o =>
    o == e || (c.ctr o).stop || decide ((if e = .s then w else w + 1) ≤ (if o = .s then c.sc.ctr.walk else c.front o))

/-- Engine e may claim or advance on a side at walk index w: the side's owner acts, or every engine but e has passed w and
the side gets its owner; for another owner's engine QFAULT is raised (07 R222). -/
def ownSide (e : Engine) (h gen : Nat) (prod : Bool) (w : Nat) : M PUnit := do
  let c ← here
  match c.side h gen prod with
  | some x => trapIf (x.owner != e) .qfault
  | none =>
    needs (c.abovePlace e w)
    onHere fun c => c.setSide h { gen := gen, prod := prod, owner := e, claims := 0 }

/-- Producer and consumer count of a control block at its home; counts that cannot be raise QFAULT (07 R224). -/
def readCounts (q : Handle) : M (Nat × Nat) := do
  let loc := padLoc (clusterOf (← get).cur) q.ctl
  let bs ← readAt loc 16
  let p := leNat (bs.take 8)
  let c := leNat (bs.drop 8)
  trapIf (decide (p < c) || decide (geomSlots q.geom < p - c)) .qfault
  return (p, c)

/-- A stream holds the producer side of its queue on D2: a worker's producer claim or advance there raises QFAULT (11
R351). -/
def streamClear (q : Handle) (prod : Bool) : M PUnit := do
  let s : State ← get
  let held := prod && clusterOf s.cur == 8 && s.liveScores.any fun p => match p.2.stream with
    | some x => x.q.ctl == q.ctl
    | none => false
  trapIf held .qfault

/-- A count of a control block takes a value. -/
def writeCount (q : Handle) (prod : Bool) (v : Nat) : M PUnit :=
  modify fun s => s.write (padLoc (clusterOf s.cur) (q.ctl + if prod then 0 else 8)) (leBytes 8 v)

/-- QSET (07 R219). -/
def execQset (a b : BitVec 5) (h : BitVec 4) (s : State) : Host.Outcome State Fault Refusal :=
  leavingWord (.qset a b h) (do
    let ctl ← item a
    let g ← item b
    trapIf (!geomOk ctl g) .operand
    let c ← here
    needs (decide (c.hand.pv.length < 32) && decide (c.hand.px.length < 32))
    let off := fld ctl.toNat 0 26
    let loc := padLoc (clusterOf (← get).cur) off
    let geom : Word := (g.setWidth 63).setWidth 64
    if g.msb then
      mayGo 0 loc 64 { w := true }
      passHome loc 64
      writeChecked loc (leBytes 16 0 ++ leBytes 8 geom.toNat ++ leBytes 40 0)
    else
      mayGo 0 loc 64 { r := true }
      passHome loc 64
      let old := leNat (← readAt (loc + 16) 8)
      trapIf (decide (old = 0) || decide (old ≠ geom.toNat)) .qfault
    let w := c.sc.ctr.walk
    let q : Handle := { gen := w, ctl := off, geom := geom }
    let x : ParamWrite := { walk := w, param := .handle h.toNat q }
    onHere fun c => { c with
      handles := c.handles.set h.toNat (some q)
      hand := { c.hand with pv := c.hand.pv ++ [x], px := c.hand.px ++ [x] } }
    return {}) s

/-- An advance by n of a side that engine e may act on, beside k claims (07 R220, R221, R223). -/
def advanceFree (q : Handle) (h : Nat) (prod : Bool) (n : Nat) : M PUnit := do
  streamClear q prod
  let (p, c) ← readCounts q
  let k := (← here).claims h q.gen prod
  if prod then
    trapIf (decide (geomSlots q.geom < n + (p + k - c))) .qfault
    writeCount q true (p + n)
  else
    trapIf (decide (p - c < n + k)) .qfault
    writeCount q false (c + n)

/-- QADV (07 R223). A producer advance is a release at crew scope (R221); it retires when it has been applied. The handle
is checked before n, an order that the spec leaves open (log 48). -/
def execQadv (a : BitVec 5) (sd : Bool) (h : BitVec 4) (s : State) : Host.Outcome State Fault Refusal :=
  finish .s s ((do
    scalarReady (.qadv a sd h)
    let s0 ← get
    let x ← item a
    let q ← heldHandle s0.here.handles h.toNat
    trapIf (decide (4096 < x.toNat)) .operand
    if x = 0 then
      checkLeaving s0
      retire {}
    else
      ownSide .s h.toNat q.gen sd s0.here.sc.ctr.walk
      awaitData s0 0 (padLoc (clusterOf s0.cur) q.ctl) (.advance h.toNat q sd x.toNat)).run s)

/-- The counts as a queue word of the scalar engine reads them (09 Table 84). -/
def scalarCounts (q : Handle) : M (Nat × Nat) := do
  let loc := padLoc (clusterOf (← get).cur) q.ctl
  mayGo 0 loc 64 { r := true }
  passHome loc 1
  readCounts q

/-- QWAIT (07 R223). -/
def execQwait (a : BitVec 5) (sd : Bool) (h : BitVec 4) (s : State) : Host.Outcome State Fault Refusal :=
  leavingWord (.qwait a sd h) (do
    let x ← item a
    let core ← here
    let q ← heldHandle core.handles h.toNat
    trapIf (decide (geomSlots q.geom < x.toNat)) .qfault
    if x != 0 then
      let (p, c) ← scalarCounts q
      let k := core.claims h.toNat q.gen sd
      needs (if sd then decide (p + k + x.toNat ≤ c + geomSlots q.geom) else decide (c + k + x.toNat ≤ p))
    return {}) s

/-- QINFO (07 R223). -/
def execQinfo (sd : Bool) (h : BitVec 4) (s : State) : Host.Outcome State Fault Refusal :=
  leavingWord (.qinfo sd h) (do
    let core ← here
    let q ← heldHandle core.handles h.toNat
    let (p, c) ← scalarCounts q
    let n := if sd then p else c
    return { items := [word (n % 2 ^ 32 * 2 ^ 32 + (p - c) * 2 ^ 16 + (geomSlots q.geom - (p - c)))] }) s

/-! ## Data returns -/

/-- LOAD_RETURN: the data of the picked load of those whose data is awaited arrives, is verified, and flies (04 R97, R126); a TLOOK is
answered, a queue advance applied (07 R223). A claim, an advance, and what a load raises, wait for the loads before it. -/
def execLoadReturn (s : State) : Host.Outcome State Fault Refusal :=
  finish .s s ((do
    let c ← here
    taskReady c
    match c.sc.loads[s.pick]? with
    | none => await
    | some l =>
      match l.kind with
      | .mem r signed constant acquire =>
        let bs ← loadBytes r constant acquire fun loc len => do
          return { l.acc ((← get).home loc) with loc := loc, len := len }
        onHere fun c => { c with sc := c.sc.arrive l.walk (extend signed r.size (leNat bs)) }
      | .advance h q prod k =>
        needs (s.pick == 0)
        accessGo (l.acc ((← get).home l.loc))
        passHome l.loc 1
        advanceFree q h prod k
        onHere fun c => { c with sc := c.sc.arrive l.walk 0 }
      | k =>
        needs (s.pick == 0 || match k with | .tagClaim _ => false | _ => true)
        accessGo (l.acc ((← get).home l.loc))
        passHome l.loc 1
        let v ← lookUp k
        onHere fun c => { c with sc := c.sc.arrive l.walk v }).run s) (s.pick != 0)

/-! ## Hand-offs -/

/-- A parameter write joins the queue of its engine, or the word waits (02 R37). -/
def handOff (e : Engine) (p : Param) : M PUnit := do
  let c ← here
  needs (decide ((c.params e).length < 32))
  onHere fun c => c.setParams e (c.params e ++ [{ walk := c.sc.ctr.walk, param := p }])

/-- PRMW (07 R228). -/
def execPrmw (a : BitVec 5) (f : BitVec 6) (i : BitVec 8) (s : State) : Host.Outcome State Fault Refusal :=
  leavingWord (.prmw a f i) (do
    let x ← item a
    let b := f.toNat
    if b < 8 then handOff .v (.loopWord b i.toNat x)
    else if b < 16 then handOff .m (.loopWord (b - 8) i.toNat x)
    else if b < 24 then handOff .x (.loopWord (b - 16) i.toNat x)
    else if b < 40 then handOff .x (.descWord (b - 24) i.toNat x)
    else handOff .v (.portWord i.toNat x)
    return {}) s

/-- FMTQ (06 R185). -/
def execFmtq (a : BitVec 5) (s : State) : Host.Outcome State Fault Refusal :=
  leavingWord (.fmtq a) (do
    let x ← item a
    let c ← here
    needs (decide (c.hand.fmtq.length < 64))
    onHere fun c => { c with hand := { c.hand with fmtq := c.hand.fmtq ++ [⟨c.sc.ctr.walk, x⟩] } }
    return {}) s

/-- STMPQ (06 R185). -/
def execStmpq (a : BitVec 5) (s : State) : Host.Outcome State Fault Refusal :=
  leavingWord (.stmpq a) (do
    let x ← item a
    let c ← here
    needs (decide (c.hand.stampq.length < 64))
    onHere fun c => { c with hand := { c.hand with stampq := c.hand.stampq ++ [⟨c.sc.ctr.walk, x⟩] } }
    return {}) s

/-! ## k-registers -/

/-- The zone above a core (13 R392). -/
def zoneOf (core : Nat) : Nat := clusterOf core * 4 + core % 32 / 8

/-- The value of a k-register as it stands now (04 R103, R104). -/
def State.kValue (s : State) (k : Nat) : Word :=
  let c := s.here
  let r := c.sc.k
  let f := c.sc.f
  match k with
  | 0x000 => word (coordinate s.cur)
  | 0x001 => c.job.spanWord
  | 0x002 => c.job.stageWord
  | 0x003 => word c.job.ctx
  | 0x004 => word c.sc.beat
  | 0x005 => word c.sc.calls.length
  | 0x010 => word r.slipw
  | 0x011 => r.srseed
  | 0x020 => word r.clkpin.toNat
  | 0x100 => word r.vlen
  | 0x101 => r.vtype.setWidth 64
  | 0x102 => r.vguard.setWidth 64
  | 0x103 => r.rrb.setWidth 64
  | 0x200 => word r.assayn
  | 0x201 => word ((s.bucket (clusterOf s.cur)).cap % 2 ^ 32)
  | 0x202 => word ((s.bucket (clusterOf s.cur)).rate % 2 ^ 16)
  | 0x400 => f.faddr
  | 0x401 => f.finfo.setWidth 64
  | 0x500 => word r.convoy.toNat
  | 0x501 => word (c.sc.win % 2 ^ 32 * 2 ^ 32 + min c.sc.convn 0xFFFFFFFF)
  | 0x600 => word r.rctl.toNat
  | 0x601 => word ((List.range 64).map fun n => if (Sparse.get {} c.slots n).st = .free then 0 else 2 ^ n).sum
  | 0x700 => f.fladdr
  | 0x800 => f.cause
  | 0x801 => s.sched.drainT.setWidth 64
  | 0x802 => f.msg
  | 0x803 => f.range
  | 0x804 => c.job.handle
  | 0x900 => word (zoneOf s.cur)
  | 0x901 => let z := s.zone (zoneOf s.cur); word (z.flow.toNat * 2 ^ 16 + z.tmax.toNat)
  | 0xA00 => word c.job.recmode
  | 0xA01 => c.sc.hash
  | 0xA02 => word c.job.tseq
  | _ => if 0x808 ≤ k ∧ k ≤ 0x80F then f.cut.getD (k - 0x808) 0 else 0

/-- GETK (04 R104). -/
def execGetk (k : BitVec 12) (s : State) : Host.Outcome State Fault Refusal :=
  strandWord (.getk k) (do return { items := [(← get).kValue k.toNat] }) s

/-- Whether a value meets the limits stated with a k-register (04 R105; 02 R36, 05 R143, 06 R186, R200, 09 R288, 10 R314). -/
def kLimits (k : Nat) (v : Word) : Bool :=
  let n := v.toNat
  match k with
  | 0x010 => decide (32 ≤ n) && decide (n ≤ 16384)
  | 0x011 => true
  | 0x020 => decide (n ≤ 1)
  | 0x100 => decide (1 ≤ n) && decide (n ≤ 256)
  | 0x101 =>
    decide (n < 2 ^ 11) && decide (fld n 8 3 < 6) && decide (fld n 6 2 < 3) && decide (fld n 4 2 < 3) && !bit n 3
      && decide (fld n 0 3 < 7)
  | 0x102 => decide (n < 8)
  | 0x103 => decide (n < 16)
  | 0x200 => decide (n < 2 ^ 16) && (decide (n = 0) || decide (16 ≤ n))
  | 0x500 => decide (n ≤ 1)
  | 0x600 => decide (n ≤ 1)
  | _ => false

/-- What SETK leaves in the scalar engine's own registers (04 R105). -/
def KRegs.set (r : KRegs) (k : Nat) (v : Word) : KRegs :=
  match k with
  | 0x010 => { r with slipw := v.toNat }
  | 0x011 => { r with srseed := v }
  | 0x020 => { r with clkpin := v != 0 }
  | 0x100 => { r with vlen := v.toNat }
  | 0x101 => { r with vtype := v.setWidth 11 }
  | 0x102 => { r with vguard := v.setWidth 3 }
  | 0x103 => { r with rrb := v.setWidth 4 }
  | 0x200 => { r with assayn := v.toNat }
  | 0x500 => { r with convoy := v != 0 }
  | 0x600 => { r with rctl := v != 0 }
  | _ => r

/-- SETK (04 R105). Writing 1 to k.CLKPIN waits until the core clock stands at 1.6 GHz (06 R186). -/
def execSetk (a : BitVec 5) (k : BitVec 12) (s : State) : Host.Outcome State Fault Refusal :=
  leavingWord (.setk a k) (do
    let v ← item a
    let n := k.toNat
    trapIf (!kLimits n v) .operand
    if n = 0x020 ∧ v = 1 then needs (!(← here).slow)
    if (0x100 ≤ n ∧ n ≤ 0x103) ∨ n = 0x011 then handOff .v (.kreg n v)
    if n = 0x200 ∨ n = 0x020 ∨ n = 0x011 then handOff .m (.kreg n v)
    onHere fun c => { c with sc := { c.sc with k := c.sc.k.set n v } }
    return {}) s

/-- STAMP (04 R109). -/
def execStamp (s : State) : Host.Outcome State Fault Refusal :=
  strandWord .stamp (do return { items := [word (← get).stamp] }) s

/-- LHASH (14 R414). -/
def execLhash (s : State) : Host.Outcome State Fault Refusal :=
  strandWord .lhash (do return { items := [(← here).sc.hash] }) s

end Sys2Proof.Machine
end

