-- ==== Sys2Proof/Machine/Fetch.lean ====
section
/-! DEFINITION. The walk (02 R31-R38, R40): fetching, what the scalar engine does at a word of another engine, how the
engines behind follow, and which instruction a turn of an engine executes. -/

namespace Sys2Proof.Machine

/-- What a turn comes to: an instruction to execute in a state, or a state. -/
inductive Due where
  | run (i : Instr) (s : State)
  | done (s : State)
deriving DecidableEq, Repr

/-- Nothing can be done now. -/
def State.stall (s : State) : Due := .done { s with stalled := true }

/-- The turn was used. -/
def State.moved (s : State) : Due := .done { s with stalled := false }

/-- The instruction of a text word; a word that R58 refuses is the step REFUSED_WORD. -/
def instrOf (w : BitVec 32) : Instr :=
  match decode w with
  | .instr i => i
  | .illword => .refusedWord w
  | .resbits => .refusedWord w

/-- The engine a text word bears (02 R29). -/
def engineOfWord (w : BitVec 32) : Engine := engineOf (w.extractLsb' 30 2)

/-- The fields of a text word below its opcode, and its opcode with its tag. -/
def fieldOf (w : BitVec 32) (lo n : Nat) : Nat := fld w.toNat lo n
def opOf (w : BitVec 32) : Nat := fieldOf w 24 8

/-- The return words, by their opcodes: V.TOS, V.STAT and M.STAT (02 R40, 05 R173, R174, 06 R206). The scalar engine waits at
one whatever its other fields are: what refuses it traps on its own engine (02 R58). -/
def isReturn (w : BitVec 32) : Bool := opOf w == 0x66 || opOf w == 0x68 || opOf w == 0x89

/-- The nest words, by their opcodes (02 R45, 05 R154, 06 R198, 07 R246). -/
def isNest (w : BitVec 32) : Bool := opOf w == 0x64 || opOf w == 0x8B || opOf w == 0xCD

/-- The product words, by their opcodes (06 R192). -/
def isProduct (w : BitVec 32) : Bool := opOf w == 0x81 || opOf w == 0x82 || opOf w == 0x83

/-- Descriptor n's positions. -/
def descItems (n : Nat) : List Nat := [n, n + 1]

/-- The strand positions the scalar engine captures for a matrix word (02 R38, 06 R196): those of its descriptor operands in
order, and s0 for M.MMAS; none for a word with a reserved kind (02 R58). Other fields do not matter. -/
def captureOf (w : BitVec 32) : List Nat :=
  if isProduct w then
    let k := fieldOf w 22 2
    let j := fieldOf w 15 2
    if k = 3 ∨ j = 3 then []
    else
      (if k = 1 then descItems (fieldOf w 17 5) else []) ++ (if j = 1 then descItems (fieldOf w 10 5) else [])
        ++ (if opOf w = 0x82 then [0] else [])
  else if (opOf w = 0x85 ∨ opOf w = 0x86) ∧ fieldOf w 17 2 = 1 then descItems (fieldOf w 12 5)
  else []

/-- Whether a vector operand code names a port (02 R50). -/
def isPort (x : BitVec 6) : Bool := decide (48 ≤ x.toNat) && decide (x.toNat ≤ 51)

/-- The kinds of the rows that a vector word pops and pushes (09 Table 84). -/
def portKinds (d : BitVec 6) (rs : List (BitVec 6)) : Option (Nat × Kinds) :=
  if rs.any isPort || isPort d then some (0, { mr := rs.any isPort, mw := isPort d }) else none

/-- Destination and sources of a vector word that names rows. -/
def vecRows : Instr → Option (BitVec 6 × List (BitVec 6))
  | .vAdd d a b _ _ | .vSub d a b _ _ | .vMul d a b _ _ | .vMin d a b _ _ | .vMax d a b _ _ | .vAnd d a b _ _
  | .vOr d a b _ _ | .vXor d a b _ _ | .vShl d a b _ _ | .vShr d a b _ _ | .vSar d a b _ _ | .vRol d a b _ _
  | .vSel d a b _ _ | .vPerm d a b _ _ | .vLrot d a b _ _ | .vBcast d a b _ _ => some (d, [a, b])
  | .vPack d a b f _ | .vUnpk d a b f _ => some (d, if f = 5 then [a] else [a, b])
  | .vFma d a b c | .vFms d a b c => some (d, [a, b, c])
  | .vAbs d a _ _ | .vNeg d a _ _ | .vMov d a _ _ | .vCvt d a _ _ _ _ | .vSfn d a _ _ _ | .vRed d a _ _ _
  | .vScan d a _ _ _ | .vTopk d a _ _ _ => some (d, [a])
  | .vCmp _ _ a b _ _ => some (0, [a, b])
  | .vTos a _ _ => some (0, [a])
  | _ => none

/-- Whether a word names port n: a row of it, its binding, or a matrix operand (05 R151, R152, 06 R181). -/
def namesPort (i : Instr) (n : Nat) : Bool :=
  match i with
  | .vPortRead p _ | .vPortWrite p _ | .vPortUnbind p => p.toNat == n
  | .mMma k a j b _ _ _ _ | .mMmas k a j b _ _ _ _ | .mMmv k a j b _ _ _ _ =>
    k == 2 && a.toNat == n || j == 2 && b.toNat == n
  | _ => match vecRows i with
    | some (d, rs) => (d :: rs).any fun x => isPort x && x.toNat == 48 + n
    | none => false

/-- Class and kinds of the memory accesses that a word of an engine behind makes (09 Table 84). -/
def accessOf (i : Instr) : Option (Nat × Kinds) :=
  match i with
  | .mMma k _ j _ _ _ _ _ | .mMmas k _ j _ _ _ _ _ | .mMmv k _ j _ _ _ _ _ =>
    if k = 0 ∧ j = 0 then none else some (0, { mr := true })
  | .mLoadDesc _ _ _ c => some (c.toNat, { mr := true })
  | .mDrainDesc _ _ c _ => some (c.toNat, { mw := true })
  | .xCopy _ _ _ _ c _ | .xGath _ _ _ _ c | .xScat _ _ _ _ c | .xSadd _ _ _ _ c _ | .xTrans _ _ _ _ c
  | .xPad _ _ _ _ c | .xFread _ _ _ _ c _ | .xHin _ _ _ _ c _ | .xHout _ _ _ _ c _ | .xHdec _ _ _ _ c _
  | .xMeta _ _ _ _ c | .xCheck _ _ _ c | .xFill _ _ c _ | .xEvict _ _ c _ | .xFapp _ _ _ c _ | .xKv _ _ _ c _
  | .xBankt _ _ _ c _ | .xBankp _ _ _ c _ | .xBankgo _ c | .xIred _ _ _ c _ _ => some (c.toNat, { cr := true, cw := true })
  | .xQadv .. => some (0, { cw := true })
  | _ => match vecRows i with
    | some (d, rs) => portKinds d rs
    | none => none

/-! ## The scalar engine at a word of another engine -/

/-- A word joins the walk that the engines behind see, and its accesses those to come; a place passed before a resumption
gets the word as it is read now (02 R30). -/
def Core.noteWord (c : Core) (w : BitVec 32) : Core :=
  let j := c.sc.ctr.walk
  let p : Nat × Trail := (j, .word w c.sc.ctr.addr)
  let known := c.hand.trail.any fun q => q.1 == j
  let trail := if known then c.hand.trail.map fun q => if q.1 = j then p else q else c.hand.trail ++ [p]
  let due := decide (c.front (engineOfWord w) ≤ j) && !c.req.ahead.any fun a => a.walk == j
  let a : List Ahead := match accessOf (instrOf w) with
    | some (cls, ks) => if due then [{ walk := j, eng := engineOfWord w, cls := cls, kinds := ks }] else []
    | none => []
  { c with hand := { c.hand with trail := trail }, req := { c.req with ahead := c.req.ahead ++ a } }

/-- The scalar counter goes on past a word of another engine (02 R32). -/
def Core.passOne (c : Core) : Core :=
  { c with sc := { c.sc with ctr := { c.sc.ctr with walk := c.sc.ctr.walk + 1, addr := c.sc.ctr.addr + 4 } } }

/-- Whether a capture for the matrix word at walk index w is still to be made: the matrix engine has not executed it, and it
is not in the descriptor queue (02 R38). -/
def Core.wantsCapture (c : Core) (w : Nat) : Bool :=
  decide (c.front .m ≤ w) && !c.hand.descq.any fun x => x.walk == w

/-- The scalar engine at a word w of another engine: a return word is waited for and its value lands (02 R40); a matrix word
that names descriptors is captured for (R38); any other word is passed over. -/
def State.passWord (s : State) (w : BitVec 32) : Due :=
  let c := s.here.noteWord w
  let caps := captureOf w
  if isReturn w then
    match c.hand.ret with
    | none => if c = s.here then s.stall else (s.setHere c).moved
    | some v =>
      if !c.sc.loads.isEmpty then s.stall
      else
        let c := { c with hand := { c.hand with ret := none }, sc := (c.sc.drop 1 [v]).tick, lastIssue := s.stamp }
        (s.setHere c.passOne).moved
  else if caps.isEmpty || !c.wantsCapture c.sc.ctr.walk then (s.setHere c.passOne).moved
  else if 32 ≤ c.hand.descq.length then s.stall
  else
    let x : Capture := { walk := c.sc.ctr.walk, items := caps.map fun n => c.sc.strand[n]? }
    (s.setHere { c with hand := { c.hand with descq := c.hand.descq ++ [x] } }.passOne).moved

/-- Whether the text at the counter lies in the page of a remote function (10 R318). -/
def Core.inPage (c : Core) : Bool :=
  match c.runner with
  | some r => decide (r.page ≤ c.sc.ctr.addr.toNat) && decide (c.sc.ctr.addr.toNat < r.page + r.size)
  | none => true

/-- Whether a remote function has run beyond its limit (10 R319). -/
def Core.overrun (c : Core) (now : Nat) : Bool := c.runner.any fun r => decide (r.started + 32768 < now)

/-- A trap raised by the fetch of the scalar engine's word, once every load before it has retired (02 R30, 04 R101). -/
def State.fetchTrap (s : State) (x : Trap) : Due :=
  if s.here.sc.loads.isEmpty then (s.takeTrap s.cur .s (s.here.at_ .s) x).moved else .run .loadReturn { s with pick := 0 }

/-- What a turn of the scalar engine of the current core comes to: its word, or the load that it waits for. -/
def State.scalarDue (s : State) : Due :=
  let c := s.here
  if c.run ≠ .running then s.stall
  else if c.sc.pend.isSome then .run .convoyApply s
  else if c.gated || c.deferred || c.sc.ctr.stop then s.stall
  else if c.runner.isNone && (!c.slipOk || (s.core (runnerKey s.cur)).runner.isSome) then s.stall
  else if !c.sc.arrivedBy c.sc.beat then .run .loadReturn { s with pick := 0 }
  else if !c.inPage then s.fetchTrap { cause := .protect }
  else if c.overrun s.stamp then (match c.runner with | some r => .run (.callWatchdog r.call) s | none => s.stall)
  else
    match (fetchText c.sc.ctr.addr).run s with
    | .ok w t =>
      if engineOfWord w = .s ∨ c.runner.isSome then
        if c.sc.loads.isEmpty || undoable (instrOf w) then .run (instrOf w) t else .run .loadReturn { s with pick := 0 }
      else if c.sc.landing then t.fetchTrap { cause := .claspmiss }
      else t.passWord w
    | .error (.trap x) t => ({ s with fresh := t.fresh }).fetchTrap x
    | .error _ _ => s.stall

/-! ## The engines behind -/

/-- Whether an engine has taken a route outcome, and the same marked (02 R34). -/
def RouteOut.taken (r : RouteOut) : Engine → Bool
  | .s => true | .v => r.v | .m => r.m | .x => r.x
def RouteOut.take (r : RouteOut) : Engine → RouteOut
  | .s => r | .v => { r with v := true } | .m => { r with m := true } | .x => { r with x := true }

/-- Engine e takes the outcome at walk index w; an outcome that all three have taken leaves the queue. -/
def Core.takeRoute (c : Core) (e : Engine) (w : Nat) : Core :=
  let rs := c.hand.route.map fun r => if r.walk = w then r.take e else r
  { c with hand := { c.hand with route := rs.filter fun r => !(r.v && r.m && r.x) } }

/-- Whether a place of the walk concerns engine e (02 R32); one that is to be read again may. -/
def Trail.concerns (t : Trail) (e : Engine) : Bool :=
  match t with
  | .word w _ => engineOfWord w == e
  | .again _ => true
  | .texit => true

/-- The words of a nest's body, behind its word at an address (02 R45). -/
def nestText (a : Word) (n : Nat) : M (List (BitVec 32)) :=
  (List.range n).mapM fun i => fetchText (a + word (4 * (i + 1)))

/-- A body word that R45 refuses: another tag, a nest, a return word, a matrix word with the stamped flag. -/
def badBody (e : Engine) (w : BitVec 32) : Bool :=
  engineOfWord w != e || isReturn w || isNest w || isProduct w && fieldOf w 3 1 == 1

/-- The body of a nest that a stop interrupted is read again (02 R30, R45). -/
def State.rereadNest (s : State) (e : Engine) (n : Nest) : Due :=
  let c := s.here
  let k := c.ctr e
  match (nestText k.addr n.body.length).run s with
  | .ok body t =>
    if body.any (badBody e) then (t.takeTrap s.cur e (k.walk, k.addr) { cause := .illword }).moved
    else (t.setHere (t.here.setNest e (some { n with body := body, stale := false }))).moved
  | .error (.trap x) t => ({ s with fresh := t.fresh }.takeTrap s.cur e (c.at_ e) x).moved
  | .error _ _ => s.stall

/-- A word of the walk passed before a resumption is read again by the engine that reaches it (02 R30). -/
def State.rereadWord (s : State) (e : Engine) (w : Nat) (a : Word) : Due :=
  match (fetchText a).run s with
  | .ok x t =>
    let c := t.here
    (t.setHere { c with hand := { c.hand with trail := c.hand.trail.map fun p => if p.1 = w then (w, .word x a) else p } }).moved
  | .error (.trap x) t => ({ s with fresh := t.fresh }.takeTrap s.cur e (w, a) x).moved
  | .error _ _ => s.stall

/-- What a turn of engine e of the current core comes to (02 R31-R34). -/
def State.engineDue (s : State) (e : Engine) : Due :=
  let c := s.here
  let k := c.ctr e
  if c.run ≠ .running then s.stall
  else
    match k.next, c.nest e with
    | some p, _ => if p.1 ≤ c.sc.ctr.walk then (s.setHere (c.catchOne e)).moved else s.stall
    | none, some n =>
      if n.stale then (if c.gated || c.deferred then s.stall else s.rereadNest e n)
      else (match n.body[n.pos]? with | some w => .run (instrOf w) s | none => s.stall)
    | none, none =>
      let far := fun (w : Nat) => k.addr + word (4 * (w - k.walk))
      if k.stop || c.gated || c.deferred then s.stall
      else
        let t := c.hand.trail.find? fun p => decide (k.walk ≤ p.1) && p.2.concerns e
        let top := match t with | some p => p.1 | none => c.sc.ctr.walk
        match c.hand.route.find? fun r => decide (k.walk ≤ r.walk) && decide (r.walk ≤ top) && !r.taken e with
        | some r => (s.setHere ((c.takeRoute e r.walk).moveTo e (r.walk + 1) r.target)).moved
        | none =>
          match t with
          | some (w, .texit) =>
            (s.setHere ((c.moveTo e w (far w)).setCtr e { walk := w, addr := far w, stop := true })).moved
          | some (w, .word x _) =>
            let s := s.setHere (c.moveTo e w (far w))
            if k.walk < w then s.moved else .run (instrOf x) s
          | some (w, .again a) =>
            let s := s.setHere (c.moveTo e w (far w))
            if k.walk < w then s.moved else s.rereadWord e w a
          | none =>
            if k.walk < c.sc.ctr.walk then (s.setHere (c.moveTo e c.sc.ctr.walk (far c.sc.ctr.walk))).moved
            else if c.sc.landing then s.stall
            else
              match (fetchText k.addr).run s with
              | .ok w t => if engineOfWord w = e then .run (instrOf w) t else s.stall
              | .error _ _ => s.stall

/-- Whether a word of the scalar engine is a CLASP by its opcode, whatever its other fields are (04 R134). -/
def claspWord (w : BitVec 32) : Bool := opOf w == 0x23

/-- REFUSED_WORD: the engine whose word R58 refuses raises its cause at it (02 R58, 04 R134). -/
def execRefusedWord (w : BitVec 32) (s : State) : Host.Outcome State Fault Refusal :=
  let e := engineOfWord w
  finish e s ((do
    let c ← here
    if e == Engine.s || c.runner.isSome then scalarMay (.refusedWord w)
    else
      taskReady c
      needs (!(c.ctr e).stop && (c.ctr e).next.isNone && c.stands (c.at_ e).1)
    trapIf (e == Engine.s && c.sc.landing && !claspWord w) .claspmiss
    match decode w with
    | .illword => trap .illword
    | .resbits => if c.runner.isSome && (e != Engine.s) then trap .illword else trap .resbits
    | .instr _ => await).run s)

end Sys2Proof.Machine
end

