-- ==== Sys2Proof/Machine/Coolant.lean ====
section
/-! DEFINITION. Coolant (13): reservations, the coolant words, valves, sensor events, the dry-channel sequence, the inlet
limits. -/

namespace Sys2Proof.Machine

/-! ## Reservations (R395-R398) -/

/-- The flow a zone reserves (R395). -/
def Zone.reserved (z : Zone) : Nat := if z.held then max z.minf z.floor else z.floor

/-- The sum of reserved flows over the 36 zones, as f changes each zone. -/
def State.reservedSum (s : State) (f : Nat → Zone → Zone) : Nat :=
  ((List.range 36).map fun z => (f z (s.zone z)).reserved).sum

/-- The zones of a mask. -/
def zonesOf (mask : Nat) : List Nat := (List.range 36).filter fun z => bit mask z

/-- What a request for a reservation comes to (R398): status, refused zones, and the state after it. -/
def State.reserve (s : State) (mask maxf minf : Nat) (h : Word) (prio : Nat) : Nat × Nat × State :=
  let zs := zonesOf mask
  let bits := fun (p : Zone → Bool) => ((zs.filter fun z => p (s.zone z)).map fun z => 2 ^ z).sum
  let busy := bits fun z => z.held && z.holder != h
  let dry := bits fun z => decide (1 ≤ z.state) && decide (z.state ≤ 10)
  let take := fun (n : Nat) (z : Zone) =>
    if bit mask n then { z with held := true, holder := h, prio := prio, maxf := maxf, minf := minf } else z
  if busy ≠ 0 then (1, busy, s)
  else if dry ≠ 0 then (3, dry, s)
  else if s.cool.budget < s.reservedSum take then (2, 0, s)
  else (0, 0, zs.foldl (fun t z => t.setZone z (take z (t.zone z))) s)

/-- BUDGET minus the sum of reserved flows, or 0 (13 Table 148). -/
def State.room (s : State) : Nat := s.cool.budget - s.reservedSum fun _ z => z

/-- A zone mask of a coolant word (R398). -/
def zoneMask (a : BitVec 5) : M Nat := do
  let x ← item a
  trapIf (x == 0 || decide (2 ^ 36 ≤ x.toNat)) .operand
  return x.toNat

/-- PRIO of the waybill that a handle names. -/
def State.prioOf (s : State) (h : Word) : Nat := match s.named h with | some e => (s.score e).wb.prio | none => 0

/-- CRSV (R398). -/
def execCrsv (a b : BitVec 5) (s : State) : Host.Outcome State Fault Refusal :=
  leavingWord (.crsv a b) (do
    let mask ← zoneMask a
    let y := (← item b).toNat
    let minf := fld y 0 12
    let maxf := fld y 12 12
    trapIf (decide (2 ^ 24 ≤ y) || decide (maxf < minf) || (zonesOf mask).any fun z => decide (zoneCap z < maxf)) .operand
    let s ← get
    let h := s.here.job.handle
    let (status, refused, t) := s.reserve mask maxf minf h (s.prioOf h)
    set t
    return { items := [word (t.room * 2 ^ 46 + refused * 2 ^ 4 + status)] }) s

/-- CREL (R398). -/
def execCrel (a : BitVec 5) (s : State) : Host.Outcome State Fault Refusal :=
  leavingWord (.crel a) (do
    let mask ← zoneMask a
    let s ← get
    let h := s.here.job.handle
    let free := fun (z : Zone) =>
      if z.held && z.holder == h then { z with held := false, holder := 0, prio := 0, maxf := 0, minf := 0 } else z
    set ((zonesOf mask).foldl (fun (t : State) z => t.setZone z (free (t.zone z))) s)
    return {}) s

/-- CQRY (R398). -/
def execCqry (a : BitVec 5) (s : State) : Host.Outcome State Fault Refusal :=
  strandWord (.cqry a) (do
    let x ← item a
    trapIf (decide (35 < x.toNat)) .operand
    let z := (← get).zone x.toNat
    return { items := [z.holder, z.word2, z.word0 (← get).stamp] }) s

/-! ## Leaving HELD (R397, 12 Table 137) -/

/-- Every resident stream of a waybill is RUNNING or ENDED (12 R369). -/
def State.streamsReady (s : State) (w : Waybill) : Bool :=
  w.strm.all fun h => match s.named h with
    | none => true
    | some e => (s.score e).st == .running || (s.score e).st == .ended

/-- Entry e leaves HELD for READY. -/
def State.enterReady (s : State) (e : Nat) : State :=
  s.setScore e { (s.score e) with st := .ready, since := s.stamp }

/-- A HELD entry is granted its coolant if it fits (R397). -/
def State.tryGrant (s : State) (e : Nat) : State :=
  let c := s.score e
  let need := c.wb.cool.toNat
  if c.cooled then s
  else if need = 0 ∨ c.wb.kind = 1 then s.setScore e { c with cooled := true }
  else
    let r := s.reserve (fld need 0 36) (fld need 48 12) (fld need 36 12) (handleOf e c) c.wb.prio
    if r.1 = 0 then r.2.2.setScore e { c with cooled := true } else s

/-- A HELD entry is granted its coolant, and leaves HELD once its streams are ready too (R397, 12 Table 137). -/
def State.tryHeld (s : State) (e : Nat) : State :=
  let t := s.tryGrant e
  if (t.score e).cooled ∧ t.streamsReady (t.score e).wb then t.enterReady e else t

/-- COOL_GRANT: HELD waybills are tried in the selection order (R397). -/
def execCoolGrant (s : State) : Host.Outcome State Fault Refusal :=
  let l := selectionOrder s.stamp (s.liveScores.filter fun p => p.2.st == .held)
  let t := l.foldl (fun (t : State) p => t.tryHeld p.1) s
  .next { t with stalled := l.all fun p => (t.score p.1).st == .held && (t.score p.1).cooled == p.2.cooled }

/-! ## Valves (R399) -/

/-- Surplus dealt to zones in descending PRIO, then ascending zone, each up to its MAXF. -/
def dealSurplus : Nat → List (Nat × Zone) → List (Nat × Nat)
  | _, [] => []
  | n, (z, x) :: l =>
    let give := min n (x.maxf - x.reserved)
    (z, give) :: dealSurplus (n - give) l

/-- Zones in descending PRIO, then ascending number. -/
def insertPrio (a : Nat × Zone) : List (Nat × Zone) → List (Nat × Zone)
  | [] => [a]
  | b :: l => if b.2.prio < a.2.prio ∨ (b.2.prio = a.2.prio ∧ a.1 < b.1) then a :: b :: l else b :: insertPrio a l

/-- The target flow of each zone (R399, R403). -/
def State.targets (s : State) : List Nat :=
  let all := (List.range 36).map fun z => (z, s.zone z)
  let hot := all.filter fun p => p.2.held && decide (s.cool.twarn.toInt - 160 ≤ p.2.tmax.toInt)
  let surplus := if s.cool.limit then 0 else s.room
  let dealt := dealSurplus surplus (hot.foldr insertPrio [])
  all.map fun p => p.2.reserved + ((dealt.find? fun q => q.1 == p.1).map (·.2)).getD 0

/-- A zone's valve after the controller has set it: to the position that meets the target, in a trip too, in the ramp by 16
towards it, in the other steps of the dry sequence as they set it (R399, R401). HOT lasts until the target is met. -/
def Zone.valveSet (z : Zone) (target pos : Nat) : Zone :=
  let z := { z with target := target }
  if z.state = 0 ∨ z.state = 11 then
    { z with valve := pos, state := if z.flow.toNat < target ∧ (pos = 255 ∨ z.state = 11) then 11 else 0 }
  else if z.tripped then { z with valve := pos }
  else if z.state = 8 then
    if pos ≤ z.valve + 16 then { z with valve := pos, state := 9 } else { z with valve := z.valve + 16 }
  else z

/-- VALVE_UPDATE (R399). -/
def execValveUpdate (s : State) : Host.Outcome State Fault Refusal :=
  if s.cool.valved.any fun t => decide (s.stamp < t + 800) then .next { s with stalled := true }
  else
    let ts := s.targets
    let t := (List.range 36).foldl
      (fun (t : State) z =>
        let target := ts.getD z 0
        t.setZone z ((t.zone z).valveSet target (Config.valvePos z target s.fresh).toNat)) s
    .next { t with stalled := false, fresh := s.fresh + 1, cool := { t.cool with valved := some s.stamp } }

/-! ## Stopping a zone's tasks (R400) -/

/-- The cores under a zone (R392). -/
def zoneCores (z : Nat) : List Nat := (List.range 8).map fun i => 8 * z + i

/-- Every running task of the zone takes a stop that the action table governs (R400). -/
def State.stopZone (s : State) (z : Nat) (why : Cause) : State :=
  (zoneCores z).foldl
    (fun (t : State) k =>
      let c := t.core k
      if c.run = .running then t.takeTrap k .s (c.at_ .s) { cause := why } else t) s

/-- Every running task of the zone is parked, its action kept for later, and the clocks are gated (R400, R401). -/
def State.parkZone (s : State) (z : Nat) (why : Cause) : State :=
  (zoneCores z).foldl
    (fun (t : State) k =>
      let c := t.core k
      let t := if c.run = .running then
          let t := t.recordStop k .s (c.at_ .s) { cause := why }
          t.setCore k { (t.core k) with deferred := true }
        else t
      t.setCore k { (t.core k) with gated := true }) s

/-- The tasks of a zone that stand in the checkpoint area: entry, instance, core key and core (12 R385). -/
def State.savedIn (s : State) (z : Nat) : List (Nat × Inst × Nat × Core) :=
  s.liveScores.flatMap fun p => p.2.insts.flatMap fun i => match i.saved with
    | some (cores, _) => (cores.filter fun q => (zoneCores z).contains q.1).map fun q => (p.1, i, q.1, q.2)
    | none => []

/-- A checkpointed task becomes c. -/
def State.setSaved (s : State) (e inst k : Nat) (c : Core) : State :=
  s.setScore e ((s.score e).setInst inst fun i =>
    { i with saved := i.saved.map fun v => (v.1.map fun q => if q.1 = k then (k, c) else q, v.2) })

/-- The action kept for a checkpointed task is taken (R400, R401): a resumption takes place when its instance is resident
again (12 R385). -/
def State.actSaved (s : State) (e : Nat) (i : Inst) (k : Nat) (c : Core) : State :=
  let c := { c with deferred := false }
  (s.setSaved e i.id k c).actOn c (some e) (fun t => t.setSaved e i.id k { c with run := .running }) fun t =>
    t.killInst e i c.stop.cause

/-- The clocks are ungated and the actions kept are taken, those of checkpointed tasks too (R400, R401). -/
def State.releaseZone (s : State) (z : Nat) : State :=
  let s := (zoneCores z).foldl
    (fun (t : State) k =>
      let c := t.core k
      let t := t.setCore k { c with gated := false }
      if c.deferred ∧ (t.core (runnerKey k)).runner.isNone then (t.setCore k { (t.core k) with deferred := false }).act k
      else t) s
  (s.savedIn z).foldl
    (fun (t : State) p =>
      if p.2.2.2.deferred ∧ ((t.score p.1).insts.any fun i => i.id == p.2.1.id) then t.actSaved p.1 p.2.1 p.2.2.1 p.2.2.2 else t) s

/-- An instance on a dead zone ends as KILL, or is issued again from its start (R401). -/
def State.killDead (s : State) (e : Nat) (i : Inst) : State :=
  if (s.score e).wb.reissueOk then s.reissueInst e i else s.killInst e i .drychan

/-- The parked tasks of a dead zone end as KILL, checkpointed ones too; instances that may run twice issue again (R401). -/
def State.killZone (s : State) (z : Nat) : State :=
  let s := (zoneCores z).foldl
    (fun (t : State) k =>
      if (t.core k).run ≠ .parked then t
      else
        match t.instOf k with
        | none => t.clearCore k
        | some (e, i) => t.killDead e i) s
  (s.savedIn z).foldl
    (fun (t : State) p =>
      if p.2.2.2.run = .parked ∧ ((t.score p.1).insts.any fun i => i.id == p.2.1.id) then t.killDead p.1 p.2.1 else t) s

/-! ## Sensors (R393, R400) -/

/-- A condition's start: kept while it holds (R400). -/
def since (holds : Bool) (start : Option Nat) (now : Nat) : Option Nat :=
  if holds then some (start.getD now) else none

/-- Whether a condition has held for n ticks. -/
def heldFor (start : Option Nat) (now n : Nat) : Bool := match start with | some t => decide (t + n ≤ now) | none => false

/-- A zone with its reading, and since when its conditions hold. -/
def Zone.read (z : Zone) (n : Nat) (r : ZoneReading) (warn : BitVec 16) (now : Nat) : Zone :=
  let z := { z with dry := r.dry, flow := r.flow, t0 := r.t0, t1 := r.t1, t2 := r.t2, t3 := r.t3 }
  let t := z.tmax.toInt
  let z := { z with
    hotSince := since (decide (warn.toInt ≤ t)) z.hotSince now
    coolSince := since (decide (t < warn.toInt - 80)) z.coolSince now
    lowSince := since (decide (z.valve = 255) && decide (10 * r.flow.toNat < 9 * z.target)) z.lowSince now
    okSince := since (decide (z.target ≤ r.flow.toNat)) z.okSince now
    wetSince := since (!r.dry && decide (18 * zoneCap n ≤ 100 * r.flow.toNat)) z.wetSince now }
  { z with
    tempArmed := z.tempArmed || heldFor z.coolSince now 8000
    tripArmed := z.tripArmed || heldFor z.coolSince now 8000
    flowArmed := z.flowArmed || heldFor z.okSince now 8000 }

/-- The events of one zone after its reading: dry, trip, temperature, flow (R400, R401). -/
def State.zoneEvents (s : State) (z : Nat) : State :=
  let x := s.zone z
  let now := s.stamp
  let s :=
    if x.dry ∧ (x.state = 0 ∨ x.state = 11 ∨ x.tripped) then
      (s.parkZone z .drychan).setZone z
        { x with state := 3, seq0 := now, fails := 0, wetSince := none, tripped := false }
    else if x.tripArmed ∧ s.cool.ttrip.toInt ≤ x.tmax.toInt ∧ (x.state = 0 ∨ x.state = 11) then
      (s.parkZone z .cooltemp).setZone z { x with state := 3, seq0 := now, tripped := true, tripArmed := false, tempArmed := false }
    else s
  let x := s.zone z
  let s := if x.tempArmed ∧ heldFor x.hotSince now 800 then
      (s.setZone z { x with tempArmed := false }).stopZone z .cooltemp
    else s
  let x := s.zone z
  if x.flowArmed ∧ heldFor x.lowSince now 8000 then (s.setZone z { x with flowArmed := false }).stopZone z .coolflow else s

/-- The package's reading (R393, R403). -/
def Cool.read (c : Cool) (p : PkgReading) (now : Nat) : Cool :=
  let above := decide (560 < p.inlet.toInt)
  let low := decide (p.flow.toNat < c.budget + 600)
  let drop := fun (i o : BitVec 16) => decide ((o.toNat : Int) + 120 < i.toNat)
  { c with
    inlett := p.inlet, pkgflow := p.flow.toNat, lowin := decide (p.inlet.toInt < 320)
    pdrop := drop p.inP0 p.outP0 || drop p.inP1 p.outP1 || drop p.inP2 p.outP2
    inp := [p.inP0, p.inP1, p.inP2], outp := [p.outP0, p.outP1, p.outP2]
    badSince := since above c.badSince now
    lowFlowSince := since low c.lowFlowSince now
    goodSince := since (!above && !low) c.goodSince now
    measured := some now }

/-- SENSOR_MEASURE (R393, R400, R401): a reading of the 36 zones and the package, at most every 800 ticks. -/
def execSensorMeasure (zones : List ZoneReading) (pkg : PkgReading) (s : State) : Host.Outcome State Fault Refusal :=
  if zones.length ≠ 36 ∨ (s.cool.measured.any fun t => decide (s.stamp < t + 800)) then .next { s with stalled := true }
  else
    let s := { s with cool := s.cool.read pkg s.stamp, stalled := false }
    .next ((List.range 36).foldl
      (fun (t : State) z =>
        match zones[z]? with
        | some r => (t.setZone z ((t.zone z).read z r t.cool.twarn t.stamp)).zoneEvents z
        | none => t) s)

/-- TRIP_UNGATE: a tripped zone has stayed cool for 80,000 ticks (R400). -/
def execTripUngate (zone : Nat) (s : State) : Host.Outcome State Fault Refusal :=
  let x := s.zone zone
  if x.tripped ∧ heldFor x.coolSince s.stamp 80000 then
    .next { ((s.setZone zone { x with tripped := false, state := 0 }).releaseZone zone) with stalled := false }
  else .next { s with stalled := true }

/-! ## The dry-channel sequence (13 Table 150) -/

/-- A step of the dry sequence: at its time, from its state, to the next. -/
def dryStep (zone fro after : Nat) (f : Zone → Zone) (s : State) : Host.Outcome State Fault Refusal :=
  let x := s.zone zone
  if x.state = fro ∧ !x.tripped ∧ x.seq0 + after ≤ s.stamp then .next { (s.setZone zone (f x)) with stalled := false }
  else .next { s with stalled := true }

/-- DRY_CLOSE_VALVE (R401, step 4). -/
def execDryCloseValve (zone : Nat) (s : State) : Host.Outcome State Fault Refusal :=
  dryStep zone 3 1600 (fun z => { z with state := 4, valve := 0 }) s

/-- DRY_PURGE (R401, step 5). -/
def execDryPurge (zone : Nat) (s : State) : Host.Outcome State Fault Refusal :=
  dryStep zone 4 9600 (fun z => { z with state := 5 }) s

/-- DRY_REFILL (R401, step 6). -/
def execDryRefill (zone : Nat) (s : State) : Host.Outcome State Fault Refusal :=
  dryStep zone 5 409600 (fun z => { z with state := 6, valve := 51 }) s

/-- DRY_VERIFY (R401, step 7): wet for 80,000 ticks gives the ramp; without it at t0 + 1,609,600 the pass starts again at
step 4, and the third failure is DEAD. -/
def execDryVerify (zone : Nat) (s : State) : Host.Outcome State Fault Refusal :=
  let x := s.zone zone
  if x.state = 6 then dryStep zone 6 1209600 (fun z => { z with state := 7, wetSince := none }) s
  else if x.state ≠ 7 ∨ x.tripped then .next { s with stalled := true }
  else if heldFor x.wetSince s.stamp 80000 ∧ x.seq0 + 1289600 ≤ s.stamp then
    .next { (s.setZone zone { x with state := 8 }) with stalled := false }
  else if s.stamp < x.seq0 + 1609600 then .next { s with stalled := true }
  else if x.fails + 1 = 3 then
    .next { ((s.setZone zone { x with state := 10, fails := 3 }).killZone zone) with stalled := false }
  else
    .next { (s.setZone zone { x with state := 4, valve := 0, fails := x.fails + 1, seq0 := s.stamp - 1600,
                                     wetSince := none }) with stalled := false }

/-- DRY_RELEASE (R401, step 9). -/
def execDryRelease (zone : Nat) (s : State) : Host.Outcome State Fault Refusal :=
  let x := s.zone zone
  if x.state = 9 ∧ !x.tripped then .next { ((s.setZone zone { x with state := 0 }).releaseZone zone) with stalled := false }
  else .next { s with stalled := true }

/-! ## Inlet limits (R403) -/

/-- LIMIT_ENTER (R403). -/
def execLimitEnter (s : State) : Host.Outcome State Fault Refusal :=
  if !s.cool.limit ∧ (heldFor s.cool.badSince s.stamp 800000 ∨ heldFor s.cool.lowFlowSince s.stamp 800000) then
    .next { s with stalled := false, cool := { s.cool with limit := true } }
  else .next { s with stalled := true }

/-- LIMIT_EXIT (R403). -/
def execLimitExit (s : State) : Host.Outcome State Fault Refusal :=
  if s.cool.limit ∧ heldFor s.cool.goodSince s.stamp 80000000 then
    .next { s with stalled := false, cool := { s.cool with limit := false } }
  else .next { s with stalled := true }

end Sys2Proof.Machine
end

