-- ==== Sys2Proof/Machine/Issue.lean ====
section
/-! DEFINITION. The master distributor: issuing instances, checkpoints, pre-emption, elections, handler launches, device
posts, the ends of tasks, and the watchdogs (12 R364-R391). -/

namespace Sys2Proof.Machine

/-- An event that changed the state, and one that had nothing to do. -/
def did (s : State) : Host.Outcome State Fault Refusal := .next { s with stalled := false }
def idle (s : State) : Host.Outcome State Fault Refusal := .next { s with stalled := true }

/-! ## Register writes over the host link -/

/-- Whether the host link answers for the device (14 R428): not without power, and not in recovery. -/
def State.linkUp (s : State) : Bool := s.trust.powered && !s.trust.recovery

/-- The registers that a locked interface protects: translation, context security, records (14 R422). -/
def lockedReg (o : Nat) : Bool := decide (0x20000 ≤ o) && decide (o < 0x21000) || decide (0x70000 ≤ o) && decide (o < 0x71000)

/-- A register write of system software over the host link, where the register exists: in CONFIG_LOCKED and RUN the
protected ones are refused with an Unsupported Request (14 R422). -/
def regEvent (ok : Bool) (o : Nat) (v : Word) (s : State) : Host.Outcome State Fault Refusal :=
  if !ok || !s.linkUp then idle s
  else if (s.trust.tdisp = .configLocked ∨ s.trust.tdisp = .run) ∧ lockedReg o then
    did { s with sent := s.sent ++ [.unsupported o] }
  else did (s.writeReg o v)

/-! ## Starting an instance (R371, R372) -/

/-- k.RECMODE of a task that starts now (14 R404). -/
def State.modeNow (s : State) (w : Waybill) : Nat := if w.record then s.records.setting else 0

/-- The cores of the crews in span order (01 R22): the lowest-numbered ones of each cluster. -/
def spanCores (shape : List (Nat × Nat)) (cs : List Nat) : List Nat :=
  (shape.zip cs).flatMap fun p => (List.range p.1.1).map fun i => 32 * p.2 + i

/-- The core of a task at its start (R372, 02 R31, 04 Table 46, 05 R138), its matrix engine as busy as it was (06 R179); in a handler launched by FORWARD k.CAUSE holds
the forwarded status with RESUME read as 0 (12 Table 133). -/
def startCore (old : Core) (w : Waybill) (j : Job) (msg range : Word) (cut : List Word) : Core :=
  let k : Counter := { addr := w.entry }
  let f : FRegs := { msg := msg, range := range, cut := cut, cause := cut.headD 0 &&& ~~~(3 : Word) }
  { old.emptied with
    run := .running, starts := old.starts + 1, job := j, lastIssue := j.start
    sc := { ctr := k, convOn := w.convoy, k := { convoy := w.convoy }, f := f }
    vec := { ctr := k }, mat := { ctr := k, busy := old.mat.busy }, cpy := { ctr := k } }

/-- One task of an instance starts at span position p on core k (R372). -/
def State.startTask (s : State) (e : Nat) (inst j n p k : Nat) : State :=
  let c := s.score e
  let w := c.wb
  let old := s.core k
  let r := w.range j
  let job : Job := {
    handle := handleOf e c, wbAddr := w.addr, handler := w.kind == 3, ctx := w.ctx, inst := inst, pos := p, count := n,
    stages := w.stages, recmode := s.modeNow w, tseq := old.starts % 2 ^ 20, start := s.stamp }
  s.setCore k (startCore old w job c.msg (word (r.1 * 2 ^ 32 + r.2)) c.cut)

/-- A crew becomes resident: its scratchpad reads as zero, its tag table is empty (07 R209). -/
def State.freshCrew (s : State) (inst c : Nat) : State :=
  let lo := padLoc c 0
  let hi := lo + Config.padSize
  let inPad := fun (a : Nat) => decide (lo ≤ a) && decide (a < hi)
  let mem := s.mem.filter fun p => !inPad p.1
  let grains := s.grains.filter fun p => !inPad (256 * p.1)
  let s : State := { s with mem := mem, grains := grains }
  s.setCrew c { (s.crew c) with resident := some inst, tags := [] }

/-- What the scheduler keeps of each task that starts. -/
def taskRecs (w : Waybill) (cores : List Nat) : List TaskRec :=
  (List.range cores.length).map fun p =>
    let k := cores.getD p 0
    { core := k, pos := p, stage := p / (cores.length / w.stages), cluster := clusterOf k }

/-- A new instance starts on its clusters. -/
def State.startInst (s : State) (e j : Nat) (cs : List Nat) : State :=
  let c := s.score e
  let cores := spanCores c.wb.shape cs
  let id := s.sched.nextInst
  let i : Inst := {
    id := id, j := j, issued := s.stamp, order := s.sched.nextOrder, clusters := cs, tasks := taskRecs c.wb cores }
  let s := { s with sched := { s.sched with nextInst := id + 1, nextOrder := s.sched.nextOrder + 1 } }
  let s := cs.foldl (fun t k => t.freshCrew id k) s
  let s := (List.range cores.length).foldl (fun t p => t.startTask e id j cores.length p (cores.getD p 0)) s
  let c := s.score e
  s.setScore e { c with
    st := .running, insts := c.insts ++ [i], again := c.again.erase j
    next := if c.again.contains j then c.next else c.next + 1 }

/-- A saved crew comes back (R385). -/
def State.restoreCrew (s : State) (inst : Nat) (v : CrewSave) : State :=
  let s := s.freshCrew inst v.cluster
  let mem := v.bytes.foldl (fun (m : List Host.Cell) p => Sparse.putD (0 : Byte) m p.1 p.2) s.mem
  let grains := v.grains.foldl (fun (g : Sparse (BitVec 32 × Bool)) p => Sparse.putD (0, false) g p.1 p.2) s.grains
  let s : State := { s with mem := mem, grains := grains }
  s.setCrew v.cluster { (s.crew v.cluster) with tags := v.tags }

/-- A saved task comes back on its core, running with empty caches or still parked (R385, R387). -/
def State.restoreTask (s : State) (k : Nat) (v : Core) : State :=
  let old := s.core k
  let s := s.setCore k { v with
    gated := old.gated, tlb := old.tlb, starts := old.starts, checkerBad := old.checkerBad, badCells := old.badCells
    slow := old.slow && !v.sc.k.clkpin, mat := { v.mat with busy := max v.mat.busy old.mat.busy } }
  if v.run = .running then s.resume k else s

/-- A checkpointed instance starts again where it stood (R385). -/
def State.restoreInst (s : State) (e : Nat) (i : Inst) : State :=
  match i.saved with
  | none => s
  | some (cores, crews) =>
    let s := crews.foldl (fun t v => t.restoreCrew i.id v) s
    let s := cores.foldl (fun t p => t.restoreTask p.1 p.2) s
    let c := s.score e
    let i' := { i with saved := none, issued := s.stamp, order := s.sched.nextOrder, draining := false }
    let s := s.setScore e { (c.setInst i.id fun _ => i') with st := .running }
    { s with sched := { s.sched with ckUsed := s.sched.ckUsed - i.units, nextOrder := s.sched.nextOrder + 1 } }

/-- The cluster mask of a dispatch record. -/
def clusterMask (cs : List Nat) : Nat := (cs.map fun c => 2 ^ c).sum

/-- Whether the accesses of the launching worker that come before a launch have performed (R363). -/
def State.launchClear (s : State) (c : Score) : Bool :=
  match c.after with
  | none => true
  | some (k, inst, w) => match s.workerOf k inst with
    | none => true
    | some x => !x.owes w

/-- Entry e issues its next instance on clusters cs, and in record mode an ISSUE record is written (R371, 14 R409). -/
def State.issueAt (s : State) (e : Nat) (cs : List Nat) : State :=
  let c := s.score e
  let j := c.nextJ
  let rec' := c.wb.record && s.records.setting == 1
  let s := match c.insts.find? fun i => i.saved.isSome && i.j == j with
    | some i => s.restoreInst e i
    | none => s.startInst e j cs
  let s := s.setScore e { (s.score e) with live := c.live || rec', after := none }
  if rec' then s.dispatch s.sched.master 1 [c.key, word (j * 2 ^ 32 + clusterMask cs)] else s

/-- In replay: the next ISSUE record of the master's ring (14 R411). -/
def State.nextIssue (s : State) : Option (Nat × Word × Nat × Nat) :=
  if s.records.setting = 2 ∧ !s.records.released then
    (s.nextRecord s.sched.master fun t _ => t == 1).map fun r =>
      let b := (r.2.2.getD 1 0).toNat
      (r.1, r.2.2.getD 0 0, fld b 32 32, fld b 0 9)
  else none

/-- Whether an entry may issue now, and where: in replay a recorded one only as the next ISSUE record names it, a
free-running one only off its clusters (14 R411). -/
def State.issuePlace (s : State) (c : Score) (free : Nat → Bool) : Option (List Nat × Option Nat) :=
  if !s.launchClear c then none
  else if s.records.setting = 2 ∧ !s.records.released then
    match s.nextIssue with
    | some (k, key, j, mask) =>
      if c.wb.record then
        if c.key = key ∧ c.nextJ = j then
          (s.placement c fun x => free x && bit mask x).map fun cs => (cs, some k)
        else none
      else (s.placement c fun x => free x && !bit mask x).map fun cs => (cs, none)
    | none => if c.wb.record then none else (s.placement c free).map fun cs => (cs, none)
  else (s.placement c free).map fun cs => (cs, none)

/-- The first entry behind the head that can issue off the reserved clusters (R371). -/
def State.issueBehind (s : State) (h : Waybill) : List (Nat × Score) → Option (Nat × List Nat × Option Nat)
  | [] => none
  | (e, c) :: l =>
    match s.issuePlace c fun x => s.vacant x && !(s.sched.reserved.contains x && s.usable h x) with
    | some (cs, k) => some (e, cs, k)
    | none => s.issueBehind h l

/-- INSTANCE_ISSUE: the head of the selection order issues, or a waybill behind it (R371, R372). Nothing issues while a
master is elected (R389) or the master's ring has no room (14 R408). -/
def execInstanceIssue (s : State) : Host.Outcome State Fault Refusal :=
  let consume := fun (t : State) (k : Option Nat) => match k with | some k => t.takeRecord t.sched.master k | none => t
  if s.sched.electing ∨ s.distHeld s.sched.master ∨ !s.trust.released then idle s
  else
    match s.selection with
    | [] => idle s
    | (e, h) :: l =>
      match s.issuePlace h s.vacant with
      | some (cs, k) =>
        let t := (consume s k).issueAt e cs
        did { t with sched := { t.sched with reserved := [] } }
      | none =>
        match s.issueBehind h.wb l with
        | some (e', cs, k) => did ((consume s k).issueAt e' cs)
        | none => idle s

/-! ## Checkpoints and pre-emption (R385, R386) -/

/-- Whether any task of an instance is stopped. -/
def State.anyParked (s : State) (i : Inst) : Bool := i.tasks.any fun t => (s.core t.core).run == .parked

/-- Whether a call runs on a core of an instance (10 R317). -/
def State.anyCall (s : State) (i : Inst) : Bool := i.tasks.any fun t => (s.core (runnerKey t.core)).runner.isSome

/-- A task as its cut keeps it: words that have not retired are undone, and what waits at the arbiter or a home is asked again
later (04 R101, 06 R191, 07 R233, R378). -/
def Core.cutState (c : Core) : Core :=
  let c := c.cutCopies
  { c with
    sc := { c.sc.undo with pend := none, barrier := none }
    mat := { c.mat with resv := 0, owed := c.mat.owed + c.mat.resv, asked := none, paid := c.mat.keptPaid } }

/-- A crew as the checkpoint area keeps it. -/
def State.saveCrew (s : State) (c : Nat) : CrewSave :=
  let lo := padLoc c 0
  let hi := lo + Config.padSize
  { cluster := c, tags := (s.crew c).tags
    bytes := s.mem.filter fun p => decide (lo ≤ p.1) && decide (p.1 < hi)
    grains := s.grains.filter fun p => decide (lo ≤ 256 * p.1) && decide (256 * p.1 < hi) }

/-- Whether the checkpoint area has room for an instance (13 Table 140 row 2). -/
def State.ckRoom (s : State) (i : Inst) : Bool := decide (s.sched.ckUsed + i.units ≤ s.sched.ckunits.toNat)

/-- A checkpoint: every task stops at its cut, cuts and crews go to the checkpoint area, the clusters are free, and the
instance returns to selection (R385). -/
def State.checkpoint (s : State) (e : Nat) (i : Inst) : State :=
  let live := i.tasks.filter fun t => !t.ended
  let cores := live.map fun t => (t.core, (s.core t.core).cutState)
  let crews := i.clusters.map s.saveCrew
  let s := live.foldl
    (fun (t : State) r =>
      let c := t.core r.core
      let t := (t.withdrawTolls r.core).returnTolls (clusterOf r.core) c.mat.resv
      (t.leaveGates r.core).setCore r.core c.emptied) s
  let s := s.freeClusters i
  let c := s.score e
  let alone := c.insts.all fun x => x.id == i.id || x.saved.isSome
  let s := { s with sched := { s.sched with ckUsed := s.sched.ckUsed + i.units } }
  let c := c.setInst i.id fun x => { x with saved := some (cores, crews), draining := false }
  s.setScore e { c with since := s.stamp, st := if alone then .ready else c.st }

/-- A PREEMPT record (14 Table 156). -/
def State.recordPreempt (s : State) (e : Nat) (i : Inst) (row : Nat) : State :=
  if (s.score e).live then s.dispatch s.sched.master 4 [(s.score e).key, word (i.j * 2 ^ 32 + row)] else s

/-- Table 140 applied to one candidate: none when row 4 holds; a decision without a state while a call on its cores delays the
action (10 R317). -/
def State.decide140 (s : State) (e : Nat) (i : Inst) : Option (Option State) :=
  let c := s.score e
  let r := c.wb.est - (s.stamp - i.issued)
  let later := fun (t : State) => if s.anyCall i then none else some t
  if !s.anyParked i ∧ r ≤ s.sched.drainT.toNat then
    some (some ((s.recordPreempt e i 1).setScore e ((s.score e).setInst i.id fun x => { x with draining := true })))
  else if s.ckRoom i then some (later ((s.recordPreempt e i 2).checkpoint e i))
  else if c.wb.reissueOk then some (later ((s.recordPreempt e i 3).reissueInst e i))
  else none

/-- The placed instances with their entries. -/
def State.placed (s : State) : List (Nat × Inst) :=
  s.liveScores.flatMap fun p => (p.2.insts.filter fun i => i.saved.isNone).map fun i => (p.1, i)

/-- The clusters that victims already decided will free (R385). -/
def State.draining (s : State) : List Nat := (s.placed.filter fun p => p.2.draining).flatMap fun p => p.2.clusters

/-- Whether candidate a is taken before b: lowest PRIO, then latest issue, then highest entry (R385). -/
def State.victimBefore (s : State) (a b : Nat × Inst) : Bool :=
  let p := (s.score a.1).wb.prio
  let q := (s.score b.1).wb.prio
  if p ≠ q then decide (p < q)
  else if a.2.order ≠ b.2.order then decide (b.2.order < a.2.order)
  else decide (b.1 < a.1)

/-- Candidates in the order in which they are tried. -/
def State.insertVictim (s : State) (a : Nat × Inst) : List (Nat × Inst) → List (Nat × Inst)
  | [] => [a]
  | b :: l => if s.victimBefore a b then a :: b :: l else b :: s.insertVictim a l

/-- The first candidate that a row of Table 140 makes a victim. -/
def State.firstVictim (s : State) : List (Nat × Inst) → Option (Option State)
  | [] => none
  | (e, i) :: l => match s.decide140 e i with | some t => some t | none => s.firstVictim l

/-- The crews of a shape that find no cluster among those that `free` admits (R385). -/
def crewsLacking (free : Nat → Bool) : List (Nat × Nat) → List Nat → List (Nat × Nat)
  | [], _ => []
  | p :: l, taken =>
    match firstFrom (fun c => free c && placeAdmits p.2 c && !taken.contains c) 9 0 with
    | none => p :: crewsLacking free l taken
    | some c => crewsLacking free l (c :: taken)

/-- Whether an entry's next instance still lacks cluster k when those that `free` admits are free (R385). -/
def State.lacks (s : State) (c : Score) (free : Nat → Bool) (k : Nat) : Bool :=
  let ok := fun x => free x && s.inService c.wb x
  s.inService c.wb k && !free k &&
    match c.insts.find? fun i => i.saved.isSome && i.j == c.nextJ with
    | some i => i.clusters.contains k
    | none => (crewsLacking ok c.wb.shape []).any fun p => placeAdmits p.2 k

/-- PREEMPT_DECISION (R385): the head gets a victim only while it lacks clusters after every victim already decided. -/
def execPreemptDecision (s : State) : Host.Outcome State Fault Refusal :=
  match s.selection with
  | [] => idle s
  | (e, h) :: _ =>
    let coming := s.draining
    let soon := fun c => s.vacant c || coming.contains c
    if s.sched.electing ∨ (s.placement h s.vacant).isSome ∨ (s.placement h soon).isSome then idle s
    else
      let cands := s.placed.filter fun p =>
        p.1 != e && !p.2.draining && decide ((s.score p.1).wb.prio < h.tokens s.stamp) && p.2.clusters.any (s.lacks h soon)
      match s.firstVictim (cands.foldr s.insertVictim []) with
      | some (some t) => did t
      | _ => idle s

/-! ## Ends (R374, R376, R359) -/

/-- The waybill of an entry credits its successors once every task of every instance has issued TRIG or ended (R376). -/
def State.tryCredit (s : State) (e : Nat) : State :=
  let c := s.score e
  if c.killed.isNone && c.again.isEmpty && decide (c.wb.instances ≤ c.next)
      && c.insts.all fun i => i.tasks.all fun t => t.trig || t.ended then s.creditAll e
  else s

/-- Whether the task of a core has ended (02 R42): all four counters stand at the TEXIT, every word has retired, and the matrix
engine is free (06 R179, R187). -/
def Core.exited (c : Core) (now : Nat) : Bool :=
  c.run == .running && c.sc.ctr.stop && c.vec.ctr.stop && c.mat.ctr.stop && c.cpy.ctr.stop && c.cpy.runs.isEmpty &&
    c.sc.pend.isNone && c.sc.loads.isEmpty && c.req.path.isEmpty && decide (c.mat.busy ≤ now) && !c.gated && !c.deferred

/-- TASK_END: the current core's task ends (02 R42, 12 R374, R359). Its ending counts as a TRIG. -/
def execTaskEnd (s : State) : Host.Outcome State Fault Refusal :=
  let k := s.cur
  if !s.here.exited s.stamp ∨ (s.core (runnerKey k)).runner.isSome then idle s
  else
    match s.instOf k with
    | none => did (s.clearCore k)
    | some (e, i) =>
      let s := (s.mapTask k fun t => { t with trig := true, ended := true }).clearCore k
      let s := s.tryCredit e
      match (s.score e).insts.find? fun x => x.id == i.id with
      | none => did s
      | some i' =>
        if i'.tasks.all (·.ended) then
          let s := s.removeInst e i'
          did ((s.setScore e { (s.score e) with done := (s.score e).done + 1 }).settle e)
        else did s

/-! ## Master and dies (R389, 14 R420) -/

/-- MASTER_ELECTION: the lowest-numbered unfenced die becomes master and takes over the fenced scoreboards (R389). -/
def execMasterElection (s : State) : Host.Outcome State Fault Refusal :=
  match firstFrom (fun d => !bit s.sched.fenced.toNat d) 3 0 with
  | some d =>
    if s.sched.electing then did { s with sched := { s.sched with master := d, electing := false } }.adopt else idle s
  | none => idle s

/-- DIE_FAILURE: a die is fenced when its control fails, or when its ASSAY count rises by ASSAYLIM within 80,000,000 ticks
(14 R420). -/
def execDieFailure (die : Nat) (control : Bool) (s : State) : Host.Outcome State Fault Refusal :=
  let near := (s.counters die).recent.filter fun t => decide (s.stamp ≤ t + 80000000)
  let failed := control || (s.trust.assaylim != 0 && decide (s.trust.assaylim ≤ near.length))
  if die < 3 ∧ failed ∧ !bit s.sched.fenced.toNat die then did (s.fenceDie die).adopt else idle s

/-- DIE_FENCE: a write of FENCE (12 Table 141). -/
def execDieFence (v : BitVec 64) (s : State) : Host.Outcome State Fault Refusal := regEvent true 0x50008 v s

/-- KILLWB: a write of KILLWB (12 Table 141). -/
def execKillwb (v : BitVec 64) (s : State) : Host.Outcome State Fault Refusal := regEvent true 0x50048 v s

/-- HPOST: a write of HPOST (12 R390). -/
def execHpost (v : BitVec 64) (s : State) : Host.Outcome State Fault Refusal := regEvent true 0x50088 v s

/-! ## Serais (R366, R367) -/

/-- The call slot a delivered or discarded reply frees, on a core or in a checkpoint (10 R325). -/
def State.mapSlot (s : State) (core inst n : Nat) (f : CallSlot → CallSlot) : State :=
  s.mapWorker core inst fun c => { c with slots := c.slots.put n (f (Sparse.get {} c.slots n)) }

/-- An acknowledgement leaves for a reply cache: target, context, call id (10 R320). -/
def State.sendAck (s : State) (a : Nat × Nat × Nat) : State :=
  { s with remote := { s.remote with acks := s.remote.acks.put s.remote.next a, next := s.remote.next + 1 } }

/-- An error that no worker consumes is counted on the die of the home where it is found (14 R418). -/
def State.countFound (s : State) (c : Cause) (loc : Option Nat) : State :=
  match loc.bind fun a => (homeOf a).die with
  | some d => s.countBad d c
  | none => s

/-- A device post is delivered, discarded, or waits for room: none (R366). The ring lies in memory, or in a window that
answers for the unit behind it (01 R18). -/
def State.deliver (s : State) (p : Post) : Option State :=
  let q := s.serai p.serai
  let free := fun (t : State) => match p.slot with
    | some (k, n) => t.mapSlot (k % 512) (k / 512) n fun _ => {}
    | none => t
  let lost := fun (t : State) (c : Cause) (loc : Option Nat) => free ((t.countFound c loc).dropPost)
  match q.ctx with
  | none => some (free s.dropPost)
  | some ctx =>
    match s.translate ctx q.ring.toNat .both with
    | .error f => some (lost s f.cause (badTable s ctx q.ring.toNat))
    | .ok head =>
      match (readAt head 16).run (s.chargeDram head 16) with
      | .error (.trap x) t => some (lost t x.cause (some head))
      | .error _ _ => none
      | .ok bs s =>
        let prod := leNat (bs.take 8)
        let cons := leNat (bs.drop 8)
        if q.slots + 1 ≤ prod - cons then none
        else
          match s.translate ctx (q.slotVa prod) .write with
          | .error f => some (lost s f.cause (badTable s ctx (q.slotVa prod)))
          | .ok pa =>
            let put : M PUnit := do
              writeAt pa (slotBytes p.source p.payload prod)
              writeAt head (leBytes 8 (prod + 1))
            match s.partBad pa 128, put.run (s.chargeDram pa 128) with
            | some c, _ => some (lost s c (some pa))
            | none, .ok _ t => some (free (match p.ack with | some a => t.sendAck a | none => t))
            | none, .error _ t => some (lost t .uncorr none)

/-- Takes out the first post for a serai. -/
def dropFirst (n : Nat) : List Post → List Post
  | [] => []
  | p :: l => if p.serai = n then l else p :: dropFirst n l

/-- DEVICE_POST_DELIVER: the oldest held post of a serai reaches its ring (R366). -/
def execDevicePostDeliver (serai : Nat) (s : State) : Host.Outcome State Fault Refusal :=
  if s.sched.electing ∨ s.distHeld s.sched.master then idle s
  else
    match s.sched.posts.find? fun p => p.serai == serai with
    | none => idle s
    | some p =>
      match { s with sched := { s.sched with posts := dropFirst serai s.sched.posts } }.deliver p with
      | some t => did (t.fillPosts t.sched.sources.length)
      | none => idle s

/-- PROD and CONS of a serai's ring header, read for its device. -/
def State.seraiCounts (s : State) (ctx : Nat) (q : Serai) : Except XFault (Nat × Nat) × State :=
  let p := s.devRead ctx q.ring.toNat
  let c := p.2.devRead ctx (q.ring.toNat + 8)
  (p.1.bind fun x => c.1.map fun y => (x.toNat, y.toNat), c.2)

/-- The header that a forwarded message carries in its slot (Table 133), none for another message. -/
def State.forwarded (s : State) (ctx slot : Nat) : List Word × State :=
  let read := fun (r : List Word × State) (a : Nat) =>
    let x := r.2.devRead ctx a
    (r.1 ++ [match x.1 with | .ok w => w | .error _ => 0], x.2)
  let head := read ([], s) slot
  if fld (head.1.headD 0).toNat 56 8 = 4 then (List.range 8).foldl (fun r i => read r (slot + 16 + 8 * i)) ([], head.2)
  else ([], head.2)

/-- The handler of a serai is launched for message `cons` at entry e (R367, 14 R409). -/
def State.launchHandler (s : State) (serai e ctx cons : Nat) (w : Waybill) : State :=
  let q := s.serai serai
  let key := word (2 ^ 63 + serai * 2 ^ 32 + cons % 2 ^ 32)
  let slot := q.slotVa cons
  let f := s.forwarded ctx slot
  let t := f.2.enterWb e w key (word slot) (some serai) f.1
  let t := t.setSerai serai { q with running := some e }
  let t := if w.record ∧ t.records.setting = 1 then t.dispatch t.sched.master 10 [key, handleOf e (t.score e)] else t
  t.endFenced e

/-- HANDLER_LAUNCH: a bound serai launches its handler for the next message, on D0's scoreboard (R367); in replay in the
order of the LAUNCH records (14 R411). A ring header that cannot be read is counted once (14 R418). -/
def execHandlerLaunch (serai : Nat) (s : State) : Host.Outcome State Fault Refusal :=
  let q := s.serai serai
  match q.ctx, q.bound with
  | some ctx, some w =>
    if q.running.isSome ∨ s.sched.electing ∨ s.distHeld s.sched.master then idle s
    else
      let counts := s.seraiCounts ctx q
      match counts.1, s.freeEntry (if bit s.sched.fenced.toNat 0 then s.sched.master else 0) with
      | .error f, _ =>
        if q.bad then idle s
        else
          let at_ := match s.translate ctx q.ring.toNat .read with | .ok a => some a | .error _ => badTable s ctx q.ring.toNat
          did ((s.countFound f.cause at_).setSerai serai { q with bad := true })
      | .ok (prod, cons), some e =>
        let good := { q with bad := false }
        let key := word (2 ^ 63 + serai * 2 ^ 32 + cons % 2 ^ 32)
        let old := s
        let s := counts.2.setSerai serai good
        if prod ≤ cons then if q.bad then did (old.setSerai serai good) else idle old
        else if w.record ∧ s.records.setting = 2 ∧ !s.records.released then
          match s.nextRecord s.sched.master fun t _ => t == 10 with
          | some r =>
            if r.2.2.getD 0 0 = key then did ((s.takeRecord s.sched.master r.1).launchHandler serai e ctx cons w) else idle old
          | none => idle old
        else did (s.launchHandler serai e ctx cons w)
      | .ok _, none => idle s
  | _, _ => idle s

end Sys2Proof.Machine
end

