-- ==== Sys2Proof/Machine/Tasks.lean ====
section
/-! DEFINITION. The task words: launches, serais, waits, barriers, ends, traps, marks (12 R357-R386, 14 R415), and the
steps of a worker without an encoding: held accesses, convoy turns, deadlock and the watchdog (02 R41, 09 R279, R290,
12 R388, 14 R410). -/

namespace Sys2Proof.Machine

/-! ## Reading structures -/

/-- The scalar engine reads n bytes of a class, grain by grain. -/
def readVa (va : Word) (n : Nat) (cls : Nat := 0) : M (List Byte) :=
  (grainParts va.toNat n).foldlM (fun acc p => do
    let loc ← locate (word p.1) .read .s
    mayGo cls loc p.2 { r := true }
    passHome loc p.2
    return acc ++ (← readAt loc p.2)) []

/-- The doublewords that bytes spell. -/
def wordsOf (bs : List Byte) (n : Nat) : List Word := (List.range n).map fun i => word (leNat ((bs.drop (8 * i)).take 8))

/-! ## Waybills (R357, R358, 13 R396) -/

/-- The crew fields of a span shape, WORKERS and PLACE (12 Table 132). -/
def crewFields (d : List Word) : List Nat :=
  ((List.range 5).map fun k => fld (d.getD 2 0).toNat (12 * k) 12) ++
    (List.range 4).map fun k => fld (d.getD 3 0).toNat (12 * k) 12

/-- A waybill from its 16 doublewords and its two lists (12 Table 131). -/
def waybillOf (va : Word) (d succ strm : List Word) : Waybill :=
  let f := fun (i lo n : Nat) => fld (d.getD i 0).toNat lo n
  { kind := f 0 60 4, ctx := f 0 54 6, reissueOk := f 0 53 1 == 1, convoy := f 0 52 1 == 1, record := f 0 51 1 == 1
    prio := f 0 40 8, stages := f 0 35 5, deps := f 0 0 16, entry := d.getD 1 0
    shape := ((crewFields d).map fun c => (fld c 6 6, fld c 2 4)).filter fun p => p.1 != 0
    first := f 4 32 32, count := f 4 0 32, chunk := f 5 0 32, est := f 6 0 64
    succ := succ, strm := strm, cool := d.getD 10 0, post := f 11 12 1 == 1, serai := f 11 0 12, addr := va }

/-- A reserved field of a waybill is set (R358). -/
def waybillRes (d : List Word) : Bool :=
  let f := fun (i lo n : Nat) => fld (d.getD i 0).toNat lo n != 0
  f 0 48 3 || f 0 16 19 || f 2 60 4 || f 3 48 16 || f 5 32 32 || f 8 45 19 || f 8 20 12 || f 8 0 16 || f 11 13 51
    || f 12 0 64 || f 13 0 64 || f 14 0 64 || f 15 0 64

/-- The span shape is refused (R358). -/
def shapeBad (stages count chunk first : Nat) (fs : List Nat) : Bool :=
  let ps := fs.map fun c => (fld c 6 6, fld c 2 4)
  let present := ps.filter fun p => p.1 != 0
  let named : List Nat := (present.map (·.2)).filter fun p => decide (1 ≤ p) && decide (p ≤ 9)
  stages == 0 || decide (16 < stages)
    || fs.any (fun c => fld c 0 2 != 0)
    || ps.any (fun p => decide (32 < p.1) || decide (11 < p.2) || p.1 == 0 && p.2 != 0)
    || present.isEmpty || !(ps.take present.length).all (fun p => p.1 != 0)
    || !decide named.Nodup
    || decide (4 < (present.filter fun p => decide (1 ≤ p.2) && decide (p.2 ≤ 4) || p.2 == 10).length)
    || decide (4 < (present.filter fun p => decide (5 ≤ p.2) && decide (p.2 ≤ 8) || p.2 == 11).length)
    || decide ((present.map (·.1)).sum % stages ≠ 0)
    || decide (2 ^ 32 < first + count) || chunk == 0 && decide (2 ^ 32 < count)

/-- The coolant need of a kernel or stream waybill is refused (13 R396). -/
def coolBad (cool : Nat) (shape : List (Nat × Nat)) : Bool :=
  let zones := fld cool 0 36
  let maxf := fld cool 48 12
  cool != 0 &&
    (fld cool 60 4 != 0 || decide (maxf < fld cool 36 12)
      || ((List.range 36).any fun z => bit zones z && decide (zoneCap z < maxf))
      || zones == 0 && maxf != 0
      || shape.any fun p => decide (1 ≤ p.2) && decide (p.2 ≤ 9) && !((List.range 4).all fun i => bit zones (4 * (p.2 - 1) + i)))

/-- A waybill is refused (R358, 13 R396). -/
def waybillBad (d : List Word) : Bool :=
  let w := waybillOf 0 d [] []
  let nsucc := fld (d.getD 8 0).toNat 32 13
  let nstrm := fld (d.getD 8 0).toNat 16 4
  decide (3 < w.kind) || waybillRes d || decide (4096 < nsucc) || decide (8 < nstrm)
    || (w.kind == 0 || w.kind == 3) && shapeBad w.stages w.count w.chunk w.first (crewFields d)
    || w.kind == 2 && (w.reissueOk || w.convoy || w.record || w.stages != 0
        || [2, 3, 4, 5, 6, 7, 8, 9].any (fun i => d.getD i 0 != 0))
    || (w.kind == 0 || w.kind == 2) && coolBad w.cool.toNat w.shape

/-- A waybill read for a launch or a binding: `ok` says which kinds the word accepts (R363, R365). -/
def readWaybill (va : Word) (ok : Nat → Bool) : M Waybill := do
  aligned va 128 .read .s
  let d := wordsOf (← readVa va 128) 16
  let w := waybillOf va d [] []
  trapIf (!ok w.kind || waybillBad d) .operand
  trapIf (w.ctx != (← here).job.ctx) .protect
  let succVa := d.getD 7 0
  let strmVa := d.getD 9 0
  aligned succVa 8 .read .s
  aligned strmVa 8 .read .s
  let nsucc := fld (d.getD 8 0).toNat 32 13
  let nstrm := fld (d.getD 8 0).toNat 16 4
  let succ := wordsOf (← readVa succVa (8 * nsucc)) nsucc
  let strm := wordsOf (← readVa strmVa (8 * nstrm)) nstrm
  return { w with succ := succ, strm := strm }

/-- The die whose scoreboard takes a waybill launched on a core (R363, R389). -/
def State.homeDie (s : State) (w : Waybill) (core : Nat) : Nat :=
  let d :=
    if w.kind = 2 then 2
    else
      match w.shape with
      | [] => dieOf core
      | p :: _ =>
        if p.2 = 0 then dieOf core else if p.2 ≤ 9 then dieOfCluster (p.2 - 1) else if p.2 = 10 then 0 else 1
  if bit s.sched.fenced.toNat d then s.sched.master else d

/-- The launch key of a worker's next launch (14 R409). -/
def launchKey (core : Nat) (c : Core) : Word :=
  word (coordinate core * 2 ^ 54 + c.job.tseq * 2 ^ 34 + c.sc.launches % 2 ^ 32)

/-- A waybill enters the lowest free entry of die d's scoreboard for the current task; it waits for one (R363, R373). -/
def enterScore (w : Waybill) (d : Nat) : M Nat := do
  let s : State ← get
  needs (!s.sched.electing && !s.distHeld d)
  match s.freeEntry d with
  | none => await
  | some e =>
    let c := s.here
    let t := s.enterWb e w (launchKey s.cur c) 0 none
    set (t.setScore e { (t.score e) with after := some (s.cur, c.job.inst, c.sc.ctr.walk), mode := c.job.recmode })
    onHere fun c => { c with sc := { c.sc with launches := c.sc.launches + 1 } }
    return e

/-- TLAUNCH (R363); a waybill without a cluster that is not fenced ends at once (R389). -/
def execTlaunch (a : BitVec 5) (s : State) : Host.Outcome State Fault Refusal :=
  leavingWord (.tlaunch a) (do
    let va ← item a
    let w ← readWaybill va fun k => k == 0 || k == 2
    let s : State ← get
    let e ← enterScore w (s.homeDie w s.cur)
    let h := handleOf e ((← get).score e)
    modify (·.endFenced e)
    return { items := [h] }) s

/-! ## TRIG, TEXIT, TYIELD (R374-R376, R386) -/

/-- Every access of the worker of a class in the mask, before the counter, has performed, those outside the package apart
(R375, 09 R276). -/
def classesClear (mask : Nat) : M PUnit := do
  let s : State ← get
  let w := s.here.sc.ctr.walk
  needs (!(s.pending s.cur).any fun a => decide (a.walk < w) && bit mask a.cls && !a.home.any (·.outside))

/-- TRIG (R375, R376). -/
def execTrig (a : BitVec 5) (s : State) : Host.Outcome State Fault Refusal :=
  leavingWord (.trig a) (do
    let x ← item a
    trapIf (x == 0 || decide (2 ^ 16 ≤ x.toNat)) .operand
    if !(← here).sc.trig then
      classesClear x.toNat
      onHere fun c => { c with sc := { c.sc with trig := true } }
      modify fun (s : State) => s.mapTask s.cur fun t => { t with trig := true }
      modify fun (s : State) => match s.instOf s.cur with | some (e, _) => s.tryCredit e | none => s
    return {}) s

/-- The next unconsumed MARK record of the current worker (14 R409, R415). -/
def State.nextMark (s : State) : Option (Nat × Nat × List Word) :=
  let key := coordinate s.cur * 2 ^ 20 + s.here.job.tseq
  s.nextRecord (dieOf s.cur) fun t b => t == 6 && fld (b.getD 0 0).toNat 35 29 == key

/-- TEXIT: the scalar counter stops, and the engines behind stop at it (02 R42, R374). A recorded task with a mark left
raises DIVERGE in replay (14 R415). -/
def execTexit (s : State) : Host.Outcome State Fault Refusal :=
  leavingWord .texit (do
    let s : State ← get
    trapIf (s.here.job.recmode == 2 && !s.records.released && s.nextMark.isSome) .diverge
    onHere fun c => { c with hand := { c.hand with trail := c.hand.trail ++ [(c.sc.ctr.walk, .texit)] } }
    return { stop := true }) s

/-- Whether TYIELD gives the current instance way: the head could use its clusters, its PRIO is at most the head's E, and
the checkpoint area has room (R386). -/
def State.yields (s : State) : Option (Nat × Inst) :=
  match s.selection, s.instOf s.cur with
  | (e', h) :: _, some (e, i) =>
    if e' ≠ e ∧ i.clusters.any (s.usable h.wb) ∧ (s.score e).wb.prio ≤ h.tokens s.stamp ∧ s.ckRoom i then some (e, i) else none
  | _, _ => none

/-- TYIELD (R386): the checkpoint has the yielding task's cut after the word. -/
def execTyield (s : State) : Host.Outcome State Fault Refusal :=
  finish .s s ((do
    scalarReady .tyield
    match (← get).yields with
    | none => retire {}
    | some (e, i) =>
      needs (!(← get).anyCall i)
      retire {}
      modify fun (s : State) => (s.recordPreempt e i 2).checkpoint e i).run s)

/-! ## Serais (R364-R368) -/

/-- A serai number of the current context (R365). -/
def seraiOf (x : Word) : M Nat := do
  let s : State ← get
  trapIf (!s.registered x.toNat s.here.job.ctx) .operand
  return x.toNat

/-- SREG (R365). -/
def execSreg (a : BitVec 5) (s : State) : Host.Outcome State Fault Refusal :=
  leavingWord (.sreg a) (do
    let va ← item a
    aligned va 64 .read .s
    let d := wordsOf (← readVa va 64) 8
    let ring := d.getD 0 0
    let q := (d.getD 1 0).toNat
    let slots := fld q 36 12
    trapIf (fld q 48 16 != 0 || fld q 1 35 != 0 || (d.drop 2).any (· != 0)) .operand
    trapIf (decide (ring.toNat % 256 ≠ 0)) .operand
    let s : State ← get
    let ctx := s.here.job.ctx
    trapIf (isPad ring || !s.mapped ctx ring.toNat (256 + 128 * (slots + 1)) .both) .operand
    match firstFrom (fun n => (s.serai n).ctx.isNone) 4096 0 with
    | none => return { items := [BitVec.allOnes 64] }
    | some n =>
      let loc ← locate ring .write .s
      mayGo 0 loc 16 { w := true }
      passHome loc 16
      writeChecked loc (leBytes 16 0)
      modify fun (s : State) => s.setSerai n { ctx := some ctx, ring := ring, slots := slots, hostOk := bit q 0 }
      return { items := [word n] }) s

/-- SBIND (R365). -/
def execSbind (a b : BitVec 5) (s : State) : Host.Outcome State Fault Refusal :=
  leavingWord (.sbind a b) (do
    let n ← seraiOf (← item a)
    let va ← item b
    if va = 0 then modify fun (s : State) => s.setSerai n { (s.serai n) with bound := none }
    else
      let w ← readWaybill va fun k => k == 3
      modify fun (s : State) => s.setSerai n { (s.serai n) with bound := some w }
    return {}) s

/-- PROD and CONS of a serai's ring header, read at its home (R364). -/
def ringCounts (q : Serai) (kinds : Kinds) (n : Need) (rel : Option Nat) : M (Nat × Nat × Nat) := do
  let loc ← locate q.ring n .s
  mayGo 0 loc 16 kinds rel
  passHome loc 16
  let d := wordsOf (← readAt loc 16) 2
  return (loc, (d.getD 0 0).toNat, (d.getD 1 0).toNat)

/-- SPOST (R365, R366). -/
def execSpost (a b : BitVec 5) (n : BitVec 4) (s : State) : Host.Outcome State Fault Refusal :=
  leavingWord (.spost a b n) (do
    let k ← seraiOf (← item a)
    let va ← item b
    aligned va 8 .read .s
    let payload := wordsOf (← readVa va (8 * n.toNat)) n.toNat
    let q := (← get).serai k
    let (head, prod, cons) ← ringCounts q { r := true, w := true } .both (some 3)
    needs (decide (prod - cons < q.slots + 1))
    let slot ← locate (word (q.slotVa prod)) .write .s
    mayGo 0 slot 128 { w := true } (some 3)
    passHome slot 128
    match (← get).partBad slot 128 with
    | some c => trap c
    | none => pure ()
    writeAt slot (slotBytes 0 payload prod)
    writeAt head (leBytes 8 (prod + 1))
    return {}) s

/-- WAIT.tick (R368). -/
def execWaitTick (a : BitVec 5) (s : State) : Host.Outcome State Fault Refusal :=
  strandWord (.waitTick a) (do
    let x ← item a
    needs (decide (x.toNat ≤ (← get).stamp))
    return {}) s

/-- WAIT.serai (R368). -/
def execWaitSerai (a : BitVec 5) (s : State) : Host.Outcome State Fault Refusal :=
  strandWord (.waitSerai a) (do
    let k ← seraiOf (← item a)
    let q := (← get).serai k
    trapIf q.bound.isSome .operand
    let (_, prod, cons) ← ringCounts q { r := true } .read none
    needs (decide (cons < prod))
    emptyOrdinary
    return {}) s

/-! ## Barriers (R378) -/

/-- One more barrier of a kind is passed. -/
def TaskRec.passBar (t : TaskRec) (kind : Nat) : TaskRec :=
  if kind = 0 then { t with crewBars := t.crewBars + 1 }
  else if kind = 1 then { t with spanBars := t.spanBars + 1 }
  else { t with stageBars := t.stageBars + 1 }

/-- Whether a participant has arrived at barrier n of a kind: it has ended or passed it, or it runs and waits there. -/
def State.arrived (s : State) (kind n : Nat) (t : TaskRec) : Bool :=
  t.ended || decide (n < t.bars kind) ||
    (s.core t.core).run == .running && t.bars kind == n && (s.core t.core).sc.barrier == some kind

/-- A BAR.span passed: the next convoy window begins (09 R288, R289). -/
def Core.nextWindow (c : Core) : Core :=
  { c with sc := { c.sc with win := c.sc.win + 1, convn := 0, convOn := c.sc.k.convoy } }

/-- What passing barrier n of a kind leaves: later accesses follow those that any participant made before it (09 Table 86); a
BAR.span begins the next convoy window. -/
def passBar (kind n : Nat) : M PUnit := do
  let all : Kinds := ⟨true, true, true, true, true, true⟩
  let s : State ← get
  let f : FenceRec := {
    walk := s.here.sc.ctr.walk, pred := all, succ := all, scope := if kind = 0 then 2 else 3, mask := BitVec.allOnes 16
    bar := some (kind, n) }
  let owing := fun (g : FenceRec) => match g.bar with
    | some (k, m) => s.here.owes g.walk || !(s.barDebtors s.cur k m).isEmpty
    | none => true
  onHere fun c =>
    let c := { c with sc := { c.sc with barrier := none }, req := { c.req with fences := c.req.fences.filter owing ++ [f] } }
    if kind = 1 then c.nextWindow else c

/-- A BAR word (R378): it arrives once every earlier scalar word has retired, and issues once every participant has arrived. A
core without an instance is its own span. -/
def barWord (i : Instr) (kind : Nat) (s : State) : Host.Outcome State Fault Refusal :=
  finish .s s ((do
    scalarReady i
    let s : State ← get
    let me := (s.instOf s.cur).bind fun x => (x.2.tasks.find? fun (t : TaskRec) => t.core == s.cur).map fun t => (x.2, t)
    match me with
    | none =>
      passBar kind 0
      retire {}
    | some (inst, me) =>
      let n := me.bars kind
      let close := fun (t : TaskRec) => if kind = 1 then { t with closed := max t.closed (s.here.sc.win + 1) } else t
      if inst.tasks.all fun (t : TaskRec) => t.core == s.cur || !me.joins t kind || s.arrived kind n t then
        modify fun (s : State) => s.mapTask s.cur fun (t : TaskRec) => close (t.passBar kind)
        passBar kind n
        retire {}
      else
        needs (s.here.sc.barrier != some kind)
        onHere fun c => { c with sc := { c.sc with barrier := some kind } }
        modify fun (s : State) => s.mapTask s.cur close
        throw Stop.waitWith).run s)

/-- BAR.crew (R378). -/
def execBarCrew (s : State) : Host.Outcome State Fault Refusal := barWord .barCrew 0 s
/-- BAR.span (R378). -/
def execBarSpan (s : State) : Host.Outcome State Fault Refusal := barWord .barSpan 1 s
/-- BAR.stage (R378). -/
def execBarStage (s : State) : Host.Outcome State Fault Refusal := barWord .barStage 2 s

/-! ## TRAP and TRET (R380, R384) -/

/-- TRAP: it retires, and the task stops at the next word (R380). -/
def execTrap (i : BitVec 16) (s : State) : Host.Outcome State Fault Refusal :=
  finish .s s ((do
    scalarReady (.trap i)
    retire {}
    throw (Stop.trapAfter { cause := .swtrap, code := i.toNat })).run s)

/-- A cut header without RESUME and without its reserved fields (12 Table 138). -/
def headerKey (h : List Word) : List Nat :=
  let f := fun (i lo n : Nat) => fld (h.getD i 0).toNat lo n
  [f 0 32 16, f 0 24 8, f 0 8 8, f 1 0 64, f 2 0 64, f 3 0 64, f 4 0 64, f 5 0 16, f 6 0 64, f 7 32 16, f 7 0 9]

/-- Whether a parked core is the one a header names, for a handler of context ctx (R384). -/
def Core.namedBy (c : Core) (h : List Word) (ctx : Nat) : Bool :=
  c.run == .parked && !c.deferred && c.job.ctx == ctx && headerKey c.stop.header == headerKey h

/-- The core on which a header's task is parked, and whether it is parked in the checkpoint area (R384, R385). -/
def State.parkedBy (s : State) (h : List Word) (ctx : Nat) : Option Nat × Bool :=
  ((s.cores.find? fun p => decide (p.1 < 512) && p.2.namedBy h ctx).map (·.1),
   s.liveScores.any fun p => p.2.insts.any fun i => match i.saved with
     | some (cores, _) => cores.any fun q => q.2.namedBy h ctx
     | none => false)

/-- TRET (R384). -/
def execTret (a : BitVec 5) (s : State) : Host.Outcome State Fault Refusal :=
  finish .s s ((do
    scalarReady (.tret a)
    let s0 : State ← get
    trapIf (!s0.here.job.handler) .tretctx
    let va ← item a
    aligned va 8 .read .s
    let h := wordsOf (← readVa va 64) 8
    let d := (h.getD 0 0).toNat
    trapIf (fld d 48 16 != 0 || fld d 16 8 != 0 || fld d 2 6 != 0) .resbits
    match s0.parkedBy h s0.here.job.ctx with
    | (none, false) => trap .operand
    | (none, true) =>
      trapIf (decide (1 < fld d 0 2)) .operand
      await
    | (some k, _) =>
      trapIf (decide (1 < fld d 0 2)) .operand
      classesClear 0xFFFF
      checkLeaving s0
      retire {}
      if fld d 0 2 = 1 then
        modify fun (s : State) => match s.instOf k with
          | some (e, i) => s.killInst e i (s.core k).stop.cause
          | none => s.clearCore k
      else modify fun (s : State) => s.returnTrap k).run s)

/-! ## LMARK (14 R415) -/

/-- LMARK (14 R415). -/
def execLmark (a : BitVec 5) (s : State) : Host.Outcome State Fault Refusal :=
  leavingWord (.lmark a) (do
    let x ← item a
    trapIf (decide (2 ^ 32 ≤ x.toNat)) .operand
    let s : State ← get
    let c := s.here
    let d := dieOf s.cur
    if c.job.recmode = 1 then
      trapIf (s.distHeld d || decide ((s.ring (137 + d)).room < 3)) .logfull
      set (s.dispatch d 6 [word (coordinate s.cur * 2 ^ 55 + c.job.tseq * 2 ^ 35 + x.toNat), c.sc.hash])
    else if c.job.recmode = 2 ∧ !s.records.released then
      match s.nextMark with
      | none => trap .diverge
      | some (k, _, b) =>
        trapIf (fld (b.getD 0 0).toNat 0 32 != x.toNat || b.getD 1 0 != c.sc.hash) .diverge
        set (s.takeRecord d k)
    return {}) s

/-! ## Held accesses (09 R279, 14 R410) -/

/-- Whether item p of core k's request path, behind `before`, may perform: nothing holds it; every copy word in
flight before its own has passed its checks (07 R233); a claim's end follows those before it on its side (07 R220); a call performs at its function's start
(10 R324). -/
def State.mayPerform (s : State) (k : Nat) (before : List PathItem) (p : PathItem) : Bool :=
  !s.heldBehind k before p.acc && !((s.core k).cpy.runs.any fun r => decide (r.id < p.acc.run) && !r.passed) &&
    match p.act with
    | .count h q prod _ _ _ => before.all fun x => match x.act with
        | .count g r d _ _ _ => !(g == h && r.gen == q.gen && d == prod)
        | _ => true
    | .call _ => false
    | _ => true

/-- A call that an edge still holds back (10 R324). -/
def State.callHeld (s : State) (k id : Nat) : Bool :=
  let path := (s.core k).req.path
  (List.range path.length).any fun n => match path[n]? with
    | some p => p.act == .call id && s.heldBehind k (path.take n) p.acc
    | none => false

/-- The seals of a GIVE are delivered once no access of its engine stands before them (09 R278). -/
def Core.deliverSeals (c : Core) (before : List PathItem) (e t : Engine) (n : Nat) : Option Core :=
  if (before.any fun q => q.acc.eng == e) || decide (15 < c.sealCount e t + n) then none
  else some (c.setSeals e t (c.sealCount e t + n))

/-- Item n of the request path of the current core performs, if nothing holds it: at its home, in replay through the order
gate (09 R279, 14 R410). -/
def State.performHeld (s : State) (n : Nat) : Option State :=
  let c := s.here
  let gone := fun (t : State) => t.setHere ({ t.here with req := { t.here.req with path := c.req.path.eraseIdx n } } : Core).trimFences
  match c.req.path[n]? with
  | none => none
  | some p =>
    match p.act with
    | .seals t k => (c.deliverSeals (c.req.path.take n) p.acc.eng t k).map fun d => gone (s.setHere d)
    | act =>
      if !s.mayPerform s.cur (c.req.path.take n) p then none
      else
        match s.ordered p.who p.acc.loc (max 1 p.acc.len) with
        | none => if s.atGate s.cur p.acc.loc then none else some (s.waitGate s.cur p.acc.loc)
        | some t =>
          let t := t.passGate s.cur p.acc.loc
          match act with
          | .store bs _ => some (gone (if p.far then t.storeRegs p.acc.loc bs else t.applyAct s.cur p))
          | _ => some (gone (t.applyAct s.cur p))

/-- Whether item n of the current core's path waits at an order gate. -/
def State.gated (s : State) (n : Nat) : Bool :=
  match s.here.req.path[n]? with | some p => p.who.mode == 2 | none => false

/-- A register write that a task left behind when it ended performs (09 R441). -/
def State.performLate (s : State) (n : Nat) : Option State :=
  s.sched.late[n]?.map fun p =>
    let t := { s with sched := { s.sched with late := s.sched.late.eraseIdx n } }
    match p.act with
    | .store bs _ => t.storeRegs p.acc.loc bs
    | _ => t

/-- HELD_ACCESS_PERFORM (09 R279): item n of the core's path, or, counted on behind it, a register write of an ended task. -/
def execHeldAccessPerform (n : Nat) (s : State) : Host.Outcome State Fault Refusal :=
  let m := s.here.req.path.length
  match if m ≤ n then s.performLate (n - m) else if s.gated n then none else s.performHeld n with
  | some t => did t
  | none => idle s

/-- ORDER_GATE_MATCH (14 R410). -/
def execOrderGateMatch (n : Nat) (s : State) : Host.Outcome State Fault Refusal :=
  match if s.gated n then s.performHeld n else none with
  | some t => did t
  | none => idle s

/-! ## Convoy turns (09 R290) -/

/-- Whether the convoy operations of core k's window may be applied: every task of the span at a lower position has closed
the window. -/
def State.convoyTurn (s : State) (k : Nat) : Bool :=
  let c := s.core k
  match s.instOf k with
  | none => true
  | some (_, i) => i.tasks.all fun t => decide (c.job.pos ≤ t.pos) || t.ended || decide (c.sc.win < t.closed)

/-- A copy word whose elements are convoy operations (09 R290). -/
def convoyCopy : Instr → Bool
  | .xSadd _ _ _ _ _ w => w
  | .xIred _ _ _ _ _ w => w
  | _ => false

/-- Whether a copy word with convoy operations, before walk index w, is still to come or in flight (09 R290); a word that is
to be read again may be one. -/
def Core.convoyBehind (c : Core) (w : Nat) : Bool :=
  (c.cpy.runs.any fun r => decide (r.walk < w) && convoyCopy r.word) ||
    c.hand.trail.any fun p => decide (p.1 < w) && decide (c.front .x ≤ p.1) &&
      match p.2 with | .word x _ => convoyCopy (instrOf x) | .again _ => true | .texit => false

/-- CONVOY_APPLY: the atomic that waits for its turn performs (09 R290). -/
def execConvoyApply (s : State) : Host.Outcome State Fault Refusal :=
  finish .s s ((do
    let s0 : State ← get
    let c := s0.here
    taskReady c
    match c.sc.pend with
    | some p =>
      needs (s0.convoyTurn s0.cur && !c.convoyBehind c.sc.ctr.walk)
      let m ← atomPerform p.op p.ref p.b p.c p.acq p.rel
      checkLeaving s0
      onHere fun c => { c with sc := { c.sc with pend := none, convn := c.sc.convn + 1 } }
      retire { items := [m] }
    | _ => await).run s)

end Sys2Proof.Machine
end

