-- ==== Sys2Proof/Machine/Products.lean ====
section
/-! DEFINITION. Matrix products (03 R74-R77, R82, R89, R90; 06 R177-R184, R189): format words, operand vectors from tiles
and scratchpad, the sums, tolls; and the replay of the command window (06 R204, R205). -/

namespace Sys2Proof.Machine

/-! ## Format words (02 Table 24) -/

/-- A format word's fields. -/
structure Fmt where
  a : Nat
  b : Nat
  acc : Nat
  gang : Nat
  kext : Nat
  rnd : Nat
  scale : Nat
  shift : Nat
deriving DecidableEq, Repr

def Fmt.of (w : Word) : Fmt :=
  let n := w.toNat
  { a := fld n 60 4, b := fld n 56 4, acc := fld n 52 4, gang := fld n 48 4, kext := fld n 40 8, rnd := fld n 36 4,
    scale := fld n 32 4, shift := fld n 26 6 }

/-- A reserved code, a K extent of 0, a SHIFT beyond R69 (02 R53, 06 R178). -/
def Fmt.bad (f : Fmt) : Bool :=
  decide (5 < f.a) || decide (5 < f.b) || decide (3 < f.acc) || decide (2 < f.gang) || f.kext == 0 || decide (5 < f.rnd)
    || decide (3 < f.scale) || f.acc == 2 && decide (39 < f.shift)

/-- The accepted pairs (06 R177). -/
def Fmt.pairOk (f : Fmt) : Bool :=
  decide (f.a < 3) && decide (f.b < 3) || f.a == 5 && f.b == 5
    || (f.a == 3 || f.a == 4) && (f.b == 3 || f.b == 4)

/-- Split mode, float accumulation, whether the accumulate step draws (06 R180, 03 R82). -/
def Fmt.split (f : Fmt) : Bool := decide (2 ≤ f.acc)
def Fmt.float (f : Fmt) : Bool := f.acc % 2 == 1
def Fmt.draws (f : Fmt) : Bool := f.rnd == 5 && f.acc != 1

/-- Whether A and B have scale planes (06 Table 64). -/
def Fmt.planeA (f : Fmt) : Bool := f.scale == 1 || f.scale == 2
def Fmt.planeB (f : Fmt) : Bool := f.scale == 1 || f.scale == 3

/-- Bits of an element, bytes of a block of 32 (03 R75). -/
def fwBits (c : Nat) : Nat := [8, 6, 4, 8, 8, 16].getD c 8
def fwBlock (c : Nat) : Nat := 4 * fwBits c

/-- The value of an element without its scale (03 R70, R74). -/
def fwValue (c x : Nat) : FVal :=
  match c with
  | 0 => mxint 8 x
  | 1 => mxint 6 x
  | 2 => mxint 4 x
  | 3 => fmtE4M3.decode x
  | 4 => fmtE5M2.decode x
  | _ => fmtBF16.decode x

/-- The footprint of a product in quarter cells (06 R177). -/
def Fmt.quarters (f : Fmt) : Nat :=
  let wide := fun (c : Nat) => c == 0 || c == 1 || c == 5
  if wide f.a && wide f.b then 4 else if wide f.a || wide f.b then 2 else 1

/-- Products per clock (06 R177, Table 59). -/
def Fmt.rate (f : Fmt) : Nat :=
  let natural := 8192 * 4 / f.quarters
  if f.gang = 0 then natural else if f.gang = 1 then 8192 else min natural 16384

/-- The quotient rounded up. -/
def ceilDiv (a b : Nat) : Nat := (a + b - 1) / b

/-! ## Product words -/

/-- The three product words (06 R192). -/
inductive ProdKind where
  | mma | mmas | mmv
deriving DecidableEq, Repr

/-- A product word with its format and captures: kinds and numbers of its operands, its tile, zero-first, and the base
advance of its nest (06 R198). -/
structure Prod where
  kind : ProdKind
  k : Nat
  a : Nat
  j : Nat
  b : Nat
  t : Nat
  f : Fmt
  caps : List Word
  zero : Bool
  delta : Int
deriving DecidableEq, Repr

/-- Columns of the accumulator that the word writes, vectors of B, products it forms (06 R180, Table 60). -/
def Prod.n (p : Prod) : Nat := laneCount p.f.split
def Prod.cols (p : Prod) : Nat := if p.kind = .mmv then 1 else p.n
def Prod.products (p : Prod) : Nat :=
  match p.kind with
  | .mma => 128 * p.n * 32 * p.f.kext
  | .mmas => 128 * p.n * 16 * p.f.kext
  | .mmv => 128 * 32 * p.f.kext

/-- Bytes of an operand vector (06 R180, R184). -/
def Prod.kbA (p : Prod) : Nat := if p.kind = .mmas then p.f.kext * fwBlock p.f.a / 2 else p.f.kext * fwBlock p.f.a
def Prod.kbB (p : Prod) : Nat := p.f.kext * fwBlock p.f.b

/-- The items captured for A, for B, and s0 of M.MMAS (02 R38). -/
def Prod.capA (p : Prod) : List Word := if p.k = 1 then p.caps.take 2 else []
def Prod.capB (p : Prod) : List Word := if p.j = 1 then (if p.k = 1 then p.caps.drop 2 else p.caps).take 2 else []
def Prod.sideAt (p : Prod) : Nat := if p.kind = .mmas then (p.caps.getLastD 0).toNat else 0

/-- Clocks of the word (06 Table 60). -/
def Prod.clocks (p : Prod) (assay : Bool) : Nat := 8 + (if assay then 2 else 1) * ceilDiv p.products p.f.rate

/-! ## Scratchpad descriptors (06 R182) -/

/-- A checked descriptor: base, pitch, place of the scale plane. -/
structure Desc where
  base : Nat
  pitch : Nat
  plane : Nat
deriving DecidableEq, Repr

/-- The two captured items with the base advanced by delta; none when a check of R182 fails. TPITCH counts only with a
plane; PITCH is checked also for the single vector of M.MMV, which no address uses (log 48). -/
def descOf (w : List Word) (delta : Int) (plane : Bool) : Option Desc :=
  let x := (w.getD 0 0).toNat
  let y := (w.getD 1 0).toNat
  let base : Int := (fld x 0 26 : Int) + delta
  let tp := fld y 0 26
  if !bit x 63 ∨ fld x 48 15 ≠ 0 ∨ fld x 26 6 ≠ 0 ∨ fld y 36 28 ≠ 0 ∨ fld y 26 6 ≠ 0 then none
  else if fld x 32 16 % 8 ≠ 0 ∨ base < 0 ∨ (2 : Int) ^ 26 ≤ base ∨ base % 8 ≠ 0 ∨ (plane && tp % 8 != 0) then none
  else some { base := base.toNat, pitch := fld x 32 16, plane := base.toNat + tp }

/-! ## Operands (06 Tables 61, R183) -/

/-- What was read for one operand: its vectors, their scale bytes, every byte in the order read, and what the checks of
hallmarks and errors found. -/
structure Operand where
  vecs : List (List Byte) := []
  scales : List (List Byte) := []
  read : List Byte := []
  bad : List Cause := []
deriving DecidableEq, Repr

/-- An operand put together from its vectors and scale vectors. -/
def Operand.make (vecs scales : List (List Byte)) (bad : List Cause) : Operand :=
  { vecs := vecs, scales := scales, read := vecs.flatten ++ scales.flatten, bad := bad }

/-- Vectors of n bytes from vector tile w: row or column i at row i mod 128 from byte 640 * (i / 128). -/
def Tiles.vectors (t : Tiles) (w count n : Nat) : List (List Byte) :=
  (List.range count).map fun i => ((rowBytes (t.rowAt (vtile w) (i % 128))).drop (640 * (i / 128))).take n

/-- An operand in a vector tile, its scale plane in the next one. -/
def Tiles.operand (t : Tiles) (w count kb kext : Nat) (plane : Bool) : Operand :=
  let rows := (List.range (min count 128))
  let hit := fun (x : Nat) => rows.any fun r => t.bad.contains (vtile x, r)
  Operand.make (t.vectors w count kb) (if plane then t.vectors (w + 1) count kext else [])
    (if hit w || plane && hit (w + 1) then [.uncorr] else [])

/-- Crew offset and length of the parts of an operand in scratchpad: its vectors, then its scale vectors. -/
def Desc.parts (d : Desc) (count kb kext : Nat) (plane : Bool) : List (Nat × Nat) :=
  ((List.range count).map fun i => (d.base + i * d.pitch, kb)) ++
    (if plane then (List.range count).map fun i => (d.plane + i * kext, kext) else [])

/-- Every read of an operand ends below crew offset 2^26. -/
def Desc.fits (d : Desc) (count kb kext : Nat) (plane : Bool) : Bool :=
  (d.parts count kb kext plane).all fun p => decide (p.1 + p.2 ≤ 2 ^ 26)

/-- An operand in scratchpad. -/
def State.padOperand (s : State) (d : Desc) (count kb kext : Nat) (plane : Bool) : Operand :=
  let loc := fun (o : Nat) => padLoc (clusterOf s.cur) o
  let ps := d.parts count kb kext plane
  let bs := ps.map fun p => s.bytes (loc p.1) p.2
  Operand.make (bs.take count) (bs.drop count) (ps.filterMap fun p => s.verify (loc p.1) p.2)

/-- The nibbles of row i's sparsity metadata (06 R184). -/
def Tiles.nibbles (t : Tiles) (m kext i : Nat) : List Nat :=
  let bs := (List.range (4 * kext)).map fun o => (Sparse.get (0 : Byte) t.side (m + 4 * kext * i + o)).toNat
  bs.flatMap fun b => [b % 16, b / 16]

/-! ## Sums (03 R89, R90) -/

/-- The elements of a block of n elements. -/
def blockElems (c n : Nat) (bs : List Byte) : List FVal :=
  let x := leNat bs
  (List.range n).map fun k => fwValue c (fld x (fwBits c * k) (fwBits c))

/-- The blocks of a dense vector. -/
def denseBlocks (c kext : Nat) (v : List Byte) : List (List FVal) :=
  (List.range kext).map fun b => blockElems c 32 ((v.drop (b * fwBlock c)).take (fwBlock c))

/-- The 32 logical elements of a sparse block: those kept, at their places (06 R184). -/
def spread : List Nat → List FVal → List (Option FVal)
  | n :: ns, x :: y :: es =>
    ((List.range 4).map fun k => if k = n % 4 then some x else if k = n / 4 then some y else none) ++ spread ns es
  | _, _ => []

/-- The blocks of a sparse row. -/
def sparseBlocks (c kext : Nat) (v : List Byte) (nibs : List Nat) : List (List (Option FVal)) :=
  (List.range kext).map fun b =>
    spread ((nibs.drop (8 * b)).take 8) (blockElems c 16 ((v.drop (b * (fwBlock c / 2))).take (fwBlock c / 2)))

/-- The exact sum of a block's products; a removed element contributes 0. -/
def blockSum : List (Option FVal) → List FVal → FVal × Flags → FVal × Flags
  | some x :: xs, y :: ys, acc =>
    let p := x.mul y
    let r := acc.1.add .rne p.1
    blockSum xs ys (r.1, acc.2 ||| p.2 ||| r.2)
  | none :: xs, _ :: ys, acc => blockSum xs ys acc
  | _, _, acc => acc

/-- V[b]: the sum times the scales; an exact zero is +0 and a NaN scale raises no flag. An infinite sum with a scale of 0 is a
NaN with INVALID, as R86 has it for the product, not the clamp of R90 (log 48). -/
def blockValue (xs : List (Option FVal)) (sa : FVal) (ys : List FVal) (sb : FVal) : FVal × Flags :=
  let p := blockSum xs ys (.fin false 0 0, 0)
  let q := p.1.mul sa
  let v := q.1.mul sb
  (if v.1.isZero then .fin false 0 0 else v.1, p.2 ||| q.2 ||| v.2)

/-- A container under accumulation; `stuck` holds it at its least value (R90). -/
structure Cell where
  bits : Nat
  stuck : Bool := false
deriving DecidableEq, Repr

/-- The container's bits from an integer in its range. -/
def intBits (n : Nat) (x : Int) : Nat := (BitVec.ofInt n x).toNat

/-- The accumulate step in an integer container (R89, R90). -/
def accInt (f : Fmt) (u : Nat) (a : Cell) (v : FVal) : Cell × Flags :=
  let n := laneBits f.split
  let lo : Int := -(2 ^ (n - 1))
  let hi : Int := 2 ^ (n - 1) - 1
  if a.stuck then (a, 0)
  else
    match v with
    | .nan => ({ bits := intBits n lo, stuck := true }, flagInvalid)
    | .inf neg => ({ bits := intBits n (if neg then lo else hi) }, flagOver ||| flagSat)
    | .fin neg m e =>
      let t := roundInt (Rnd.ofCode f.rnd) u neg m (e + f.shift)
      let x := sext n a.bits + t.1
      ({ bits := intBits n (clamp lo hi x) },
       flagIf t.2 flagInexact ||| flagIf (decide (clamp lo hi x ≠ x)) (flagOver ||| flagSat))

/-- The accumulate step in a floating-point container (R89, R90). -/
def accFloat (f : Fmt) (u : Nat) (a : Cell) (v : FVal) : Cell × Flags :=
  let fmt := if f.split then fmtF40 else fmtF80
  let md := if f.split then Rnd.ofCode f.rnd else .rne
  let x := (fmt.decode a.bits).add md v
  let r := fmt.round md u x.1
  ({ bits := r.1 }, x.2 ||| r.2)

def accumulate (f : Fmt) (u : Nat) (a : Cell) (v : FVal) : Cell × Flags := if f.float then accFloat f u a v else accInt f u a v

/-- One block of one row: columns ascending, each with its draw (R82). -/
def rowPass (f : Fmt) (xs : List (Option FVal)) (sa : FVal) :
    List (List FVal × FVal) → List Cell → BitVec 64 → List Cell × Flags × BitVec 64
  | (ys, sb) :: cs, a :: as, g =>
    let d := if f.draws then draw g else (g, 0)
    let v := blockValue xs sa ys sb
    let r := accumulate f d.2 a v.1
    let rest := rowPass f xs sa cs as d.1
    (r.1 :: rest.1, (if a.stuck then r.2 else v.2 ||| r.2) ||| rest.2.1, rest.2.2)
  | _, as, g => (as, 0, g)

/-- One block of every row, rows ascending. -/
def blockPass (f : Fmt) (cols : List (List FVal × FVal)) :
    List (List (Option FVal) × FVal) → List (List Cell) → BitVec 64 → List (List Cell) × Flags × BitVec 64
  | (xs, sa) :: rs, as :: rest, g =>
    let r := rowPass f xs sa cols as g
    let t := blockPass f cols rs rest r.2.2
    (r.1 :: t.1, r.2.1 ||| t.2.1, t.2.2)
  | _, rest, g => (rest, 0, g)

/-- Every block in ascending order. -/
def passes (f : Fmt) :
    List (List (List (Option FVal) × FVal) × List (List FVal × FVal)) → List (List Cell) → BitVec 64 →
      List (List Cell) × Flags × BitVec 64
  | (rows, cols) :: bs, accs, g =>
    let r := blockPass f cols rows accs g
    let t := passes f bs r.1 r.2.2
    (t.1, r.2.1 ||| t.2.1, t.2.2)
  | [], accs, g => (accs, 0, g)

/-- The scales of a vector by block (03 R76). -/
def scalesOf (plane : Bool) (kext : Nat) (scale : List Byte) : List FVal :=
  if plane then scale.map fun c => e5m3 c.toNat else List.replicate kext (e5m3 0x78)

/-- The containers that a word forms from its operands, over the old ones (R89). -/
def Prod.result (p : Prod) (x y : Operand) (nibs : List (List Nat)) (old : List (List Nat)) (g : BitVec 64) :
    List (List Nat) × Flags × BitVec 64 :=
  let f := p.f
  let rows := (List.range 128).map fun i =>
    let v := x.vecs.getD i []
    let bs := if p.kind = .mmas then sparseBlocks f.a f.kext v (nibs.getD i [])
      else (denseBlocks f.a f.kext v).map fun b => b.map some
    (bs.zip (scalesOf f.planeA f.kext (x.scales.getD i [])))
  let cols := (List.range p.cols).map fun j =>
    (denseBlocks f.b f.kext (y.vecs.getD j [])).zip (scalesOf f.planeB f.kext (y.scales.getD j []))
  let blocks := (List.range f.kext).map fun b =>
    (rows.map fun r => r.getD b ([], .nan), cols.map fun c => c.getD b ([], .nan))
  let start := old.map fun r => (r.take p.cols).map fun c => ({ bits := if p.zero then 0 else c } : Cell)
  let r := passes f blocks start g
  (r.1.map fun row => row.map (·.bits), r.2.1, r.2.2)

/-- The rows of tile t in the word's mode. -/
def Prod.oldRows (p : Prod) (t : Tiles) : List (List Nat) :=
  (List.range 128).map fun r => rowLanes p.f.split (t.rowAt p.t r)

/-- The tile takes the result: containers beside the word's columns keep their bits (06 R192), the mode is the word's, the
flags are merged. -/
def Prod.store (p : Prod) (t : Tiles) (new : List (List Nat)) (fl : Flags) : Tiles :=
  let old := p.oldRows t
  let whole := (new.zip old).map fun r => r.1 ++ r.2.drop r.1.length
  let t := ((List.range 128).zip whole).foldl (fun (x : Tiles) r => x.setRow p.t r.1 (lanesRow p.f.split r.2)) t
  let t := t.setInfo p.t { (t.infoAt p.t) with split := p.f.split }
  let t := if p.cols = p.n then { t with bad := t.bad.filter (·.1 != p.t) } else t
  t.merge p.t fl

/-! ## Tolls (06 R189) -/

/-- Set bits of the difference of two byte strings. -/
def bitsBetween (x y : List Byte) : Nat :=
  ((x.zip y).map fun p => ((List.range 8).map fun k => (p.1 ^^^ p.2).toNat / 2 ^ k % 2).sum).sum

/-- h of one operand: the first min(KB, 64) bytes of its vectors 0 to 7. -/
def toggles (kb : Nat) (vecs : List (List Byte)) : Nat :=
  let v := (vecs.take 8).map fun x => x.take (min kb 64)
  ((v.zip v.tail).map fun p => bitsBetween p.1 p.2).sum

/-- The toll of a product word. -/
def Prod.toll (p : Prod) (assay : Bool) (x y : Operand) : Nat :=
  let vec := p.kind != .mmv
  let h := toggles p.kbA x.vecs + if vec then toggles p.kbB y.vecs else 0
  let hmax := 56 * (min p.kbA 64 + if vec then min p.kbB 64 else 0)
  let u := 8 + (if assay then 2 else 1) * ceilDiv (p.products * p.f.quarters) 32768
  ceilDiv (u * (256 * hmax + 768 * h)) (1024 * hmax)

/-! ## The command window (06 R203-R205) -/

/-- The fields of a product word. -/
def prodOf (i : Instr) (fmt : Word) (caps : List Word) (zero : Bool) (delta : Int) : Option Prod :=
  match i with
  | .mMma k a j b t _ _ _ => some ⟨.mma, k.toNat, a.toNat, j.toNat, b.toNat, t.toNat, .of fmt, caps, zero, delta⟩
  | .mMmas k a j b t _ _ _ => some ⟨.mmas, k.toNat, a.toNat, j.toNat, b.toNat, t.toNat, .of fmt, caps, zero, delta⟩
  | .mMmv k a j b t _ _ _ => some ⟨.mmv, k.toNat, a.toNat, j.toNat, b.toNat, t.toNat, .of fmt, caps, zero, delta⟩
  | _ => none

/-- The accumulator tile that a word of the window names. -/
def accTile : Instr → Option Nat
  | .mMma _ _ _ _ t _ _ _ | .mMmas _ _ _ _ t _ _ _ | .mMmv _ _ _ _ t _ _ _ => some t.toNat
  | .mZero n _ => some n.toNat
  | .mLoadTile n _ => some n.toNat
  | .mLoadDesc n _ _ _ => some n.toNat
  | .mDrainTile n _ _ => some n.toNat
  | .mDrainDesc n _ _ _ => some n.toNat
  | .mSwap n _ => some n.toNat
  | _ => none

/-- Whether a word reads a port or is stamped. -/
def unrepeatable : Instr → Bool
  | .mMma k _ j _ _ _ st _ | .mMmas k _ j _ _ _ st _ | .mMmv k _ j _ _ _ st _ => k == 2 || j == 2 || st
  | _ => false

/-- An operand in a tile or in scratchpad, as it stands now. -/
def State.operandAt (s : State) (kind n : Nat) (caps : List Word) (delta : Int) (count kb kext : Nat) (plane : Bool) :
    Option Operand :=
  if kind = 0 then some (s.here.tiles.operand n count kb kext plane)
  else (descOf caps delta plane).map fun d => s.padOperand d count kb kext plane

/-- Both operands of a product word that reads no port. -/
def Prod.operands (p : Prod) (s : State) : Option (Operand × Operand) :=
  match s.operandAt p.k p.a p.capA p.delta 128 p.kbA p.f.kext p.f.planeA,
        s.operandAt p.j p.b p.capB p.delta p.cols p.kbB p.f.kext p.f.planeB with
  | some x, some y => some (x, y)
  | _, _ => none

/-- The digest of bytes read (06 R203). -/
def digestOf (bs : List Byte) : BitVec 32 := crc32c bs

/-- The bytes that name the metadata of a sparse product. -/
def Prod.nibs (p : Prod) (t : Tiles) : List (List Nat) :=
  if p.kind = .mmas then (List.range 128).map fun i => t.nibbles p.sideAt p.f.kext i else []

/-- The digest of a product word's operands. -/
def Prod.digest (x y : Operand) (nibs : List (List Nat)) : BitVec 32 :=
  digestOf (x.read ++ y.read ++ nibs.flatten.map fun n => BitVec.ofNat 8 n)

/-- Every row of a tile, from a list of byte strings. -/
def Tiles.fill (t : Tiles) (tile : Nat) (rows : List (List Byte)) : Tiles :=
  ((List.range 128).zip rows).foldl (fun (x : Tiles) r => x.setRow tile r.1 (BitVec.ofNat 10240 (leNat r.2))) t

/-- The 1,280-byte rows of M.LOAD and M.DRAIN at a descriptor (06 R196). -/
def Desc.rows (d : Desc) : List Nat := (List.range 128).map fun r => d.base + r * d.pitch

/-- One entry executed again for tile t (06 R204): none when a digest differs or an operand cannot be read. -/
def replayOne (s : State) (t : Nat) (e : WinEntry) (x : Tiles) (g : BitVec 64) : Option (Tiles × BitVec 64) :=
  match prodOf e.word e.fmt e.caps e.zero e.delta with
  | some p =>
    if p.t = t then
      let nibs := p.nibs s.here.tiles
      match p.operands s with
      | some (a, b) =>
        if Prod.digest a b nibs = e.digest ∧ a.bad.isEmpty ∧ b.bad.isEmpty then
          let r := p.result a b nibs (p.oldRows x) g
          some (p.store x r.1 r.2.1, r.2.2)
        else none
      | none => none
    else
      let n := if p.f.draws then p.f.kext * 128 * p.cols else 0
      some (x, n.fold (fun _ _ g => (draw g).1) g)
  | none =>
    if accTile e.word ≠ some t then some (x, g)
    else
      match e.word with
      | .mZero _ sp => some ((x.zero t).setInfo t { (x.infoAt t) with split := sp }, g)
      | .mLoadTile _ w =>
        let v := vtile w.toNat
        let rows := (List.range 128).map fun r => rowBytes (s.here.tiles.rowAt v r)
        if digestOf rows.flatten = e.digest ∧ !s.here.tiles.bad.any (·.1 == v) then
          some (((x.zero t).fill t rows).setInfo t
            { split := (s.here.tiles.infoAt v).split, status := (x.infoAt t).status ||| (s.here.tiles.infoAt v).status }, g)
        else none
      | .mLoadDesc _ _ sp _ =>
        match descOf e.caps e.delta false with
        | some d =>
          let loc := fun (o : Nat) => padLoc (clusterOf s.cur) o
          let rows := d.rows.map fun o => s.bytes (loc o) 1280
          if digestOf rows.flatten = e.digest ∧ d.rows.all fun o => (s.verify (loc o) 1280).isNone then
            some (((x.zero t).fill t rows).setInfo t { (x.infoAt t) with split := sp }, g)
          else none
        | none => none
      | .mDrainTile _ _ z => some (if z then x.zero t else x, g)
      | .mDrainDesc _ _ _ z => some (if z then x.zero t else x, g)
      | _ => some (x, g)

/-- The entries executed again in order, the first of them entry n, with the generator as k.SRSEED set it between them
(03 R84). -/
def replayAll (s : State) (t : Nat) (seeds : List (Nat × BitVec 64)) : Nat → List WinEntry → Tiles → BitVec 64 → Option Tiles
  | _, [], x, _ => some x
  | n, e :: es, x, g =>
    match replayOne s t e x (((seeds.filter fun p => p.1 == n).map (·.2)).getLastD g) with
    | some r => replayAll s t seeds (n + 1) es r.1 r.2
    | none => none

/-- Whether the window can rebuild tile t (06 R204). -/
def Window.rebuilds (w : Window) (t : Nat) : Bool :=
  !w.closed && !(w.entries.any fun e => unrepeatable e.word) &&
  !(w.entries.any fun e => match e.word with | .mSwap n _ => n.toNat == t | _ => false) &&
  match w.entries.find? fun e => accTile e.word == some t with
  | some e => (match e.word with
    | .mZero .. | .mLoadTile .. | .mLoadDesc .. => true
    | .mMma .. | .mMmas .. => e.zero
    | _ => false)
  | none => false

/-- A replayed product word's toll charged without waiting: from the reservation if that holds it, else from the crew's bucket
(06 R190, log 42). -/
def State.charge (s : State) (n : Nat) : State :=
  let c := s.here
  if n = 0 then s
  else if n ≤ c.mat.resv then s.setHere { c with mat := { c.mat with resv := c.mat.resv - n, toll := n } }
  else
    let b := s.bucket (clusterOf s.cur)
    (s.setBucket (clusterOf s.cur) { b with level := b.level - n }).setHere { c with mat := { c.mat with toll := n } }

/-- The window with the words that a nest's running iteration has completed (06 R203, R204). -/
def Mat.replayed (m : Mat) : Option Window :=
  m.win.map fun w => { w with entries := w.entries ++ (m.nest.map (·.win)).getD [] }

/-- Tile t rebuilt from the command window of the current core (06 R204); none when it cannot be (R205). -/
def State.rebuild (s : State) (t : Nat) : Option State :=
  match s.here.mat.replayed with
  | none => none
  | some w =>
    if !w.rebuilds t then none
    else
      (replayAll s t w.seeds 0 w.entries s.here.tiles w.gen).map fun x =>
        let s := w.entries.foldl (fun (u : State) e => u.charge e.toll) s
        let c := s.here
        let x := { x with bad := x.bad.filter (·.1 != t) }
        s.setHere { c with tiles := x, mat := { c.mat with replays := c.mat.replays + 1 } }

/-- A word reads rows of a tile: an accumulator tile in error is rebuilt first or given up (06 R204, R205); an error in a
vector tile raises UNCORR (05 R153). -/
def readTile (tile : Nat) (hit : Nat → Bool) : M PUnit := do
  let s : State ← get
  if s.here.tiles.bad.any fun p => p.1 == tile && hit p.2 then
    if 32 ≤ tile then trap .uncorr
    else
      match s.rebuild tile with
      | some t => set t
      | none => throw (.trapTile tile)

end Sys2Proof.Machine
end

