-- ==== Sys2Proof/Machine/Operands.lean ====
section
/-! DEFINITION. Operand forms of the vector engine: rows, lanes and types (05 R135-R144, 03 R78), ports and the claims on
their queues (05 R150-R153, 07 R220-R222), and where results and flags go. -/

namespace Sys2Proof.Machine

/-- The tiles of the current core are changed. -/
def onTiles (f : Tiles → Tiles) : M PUnit := onHere fun c => { c with tiles := f c.tiles }

/-! ## Types (02 Table 21, 03 Table 36) -/

/-- How an element computes (05 R156): in a floating-point format, in a saturating container, or wrapping. -/
inductive Elem where
  | float (f : FFmt)
  | sat (n : Nat)
  | wrap (n : Nat)
deriving DecidableEq, Repr

/-- The element of a type code in a mode, with sub-type p of PK16. -/
def elemOf (t : Nat) (split : Bool) (p : Nat) : Elem :=
  match t with
  | 0 => .float (if split then fmtF40 else fmtF80)
  | 1 => .sat (laneBits split)
  | 2 => .float fmtFP32
  | 3 => .wrap 32
  | 4 => if p = 0 then .wrap 16 else if p = 1 then .float fmtFP16 else .float fmtBF16
  | 5 => .wrap 8
  | _ => .wrap 64

/-- Bits of an element and elements of a lane. -/
def elemBits (t : Nat) (split : Bool) : Nat :=
  match t with
  | 0 => laneBits split
  | 1 => laneBits split
  | 2 => 32
  | 3 => 32
  | 4 => 16
  | 5 => 8
  | _ => 64
def subs (t : Nat) (split : Bool) : Nat :=
  match t with
  | 4 => if split then 2 else 4
  | 5 => if split then 4 else 8
  | _ => 1

/-- The bits of a lane that a type occupies. -/
def occupied (t : Nat) (split : Bool) (x : Nat) : Nat := x % 2 ^ (subs t split * elemBits t split)

/-- Sub-elements of a lane, and a lane from them. -/
def elems (t : Nat) (split : Bool) (x : Nat) : List Nat :=
  (List.range (subs t split)).map fun e => fld x (elemBits t split * e) (elemBits t split)
def packElems (t : Nat) (split : Bool) (es : List Nat) : Nat :=
  es.foldr (fun x acc => x % 2 ^ elemBits t split + 2 ^ elemBits t split * acc) 0

/-! ## What a word executes under -/

/-- The environment of a vector word: mode, active lanes by guard, and the k-registers as the engine holds them. -/
structure VEnv where
  split : Bool
  vlen : Nat
  guard : BitVec 256
  pk16 : Nat
  pk16d : Nat
  prnd : Rnd
deriving DecidableEq, Repr

/-- Predicate n (05 R146). -/
def Vec.pred (v : Vec) (n : Nat) : BitVec 256 := if n = 0 then BitVec.allOnes 256 else v.preds.getD (n - 1) 0
def Vec.setPred (v : Vec) (n : Nat) (p : BitVec 256) : Vec := { v with preds := v.preds.set (n - 1) p }

/-- The environment under guard g. -/
def Vec.env (v : Vec) (g : Nat) : VEnv where
  split := v.bind.split
  vlen := v.vlen
  guard := v.pred g
  pk16 := fld v.vtype.toNat 4 2
  pk16d := fld v.vtype.toNat 6 2
  prnd := Rnd.ofCode (fld v.vtype.toNat 8 3)

/-- The vector width and an active lane (05 R144). -/
def VEnv.w (v : VEnv) : Nat := laneCount v.split
def VEnv.inUse (v : VEnv) (l : Nat) : Bool := decide (l < v.w) && decide (l < v.vlen)
def VEnv.active (v : VEnv) (l : Nat) : Bool := v.inUse l && v.guard.getLsbD l

/-! ## Port binding words (05 Table 56) -/

/-- Bytes per lane, rows per slot and bytes per row of a binding word. -/
def portElem (w : Word) : Nat := [1, 2, 4, 5, 8, 10].getD (fld w.toNat 16 4) 0
def portRows (w : Word) : Nat := fld w.toNat 0 16
def portSplit (w : Word) : Bool := bit w.toNat 20
def portLen (w : Word) : Nat := laneCount (portSplit w) * portElem w

/-- The checks of V.PORT on a binding word and a queue's geometry (05 R151). -/
def portOk (w geom : Word) : Bool :=
  decide (w.toNat < 2 ^ 21) && portElem w != 0 && portRows w != 0 && !(portSplit w && portElem w == 10)
    && decide (portRows w * portLen w ≤ geomBytes geom)

/-! ## Mode agreement (05 R142, R152) -/

/-- A row operand may be read in the binding's mode. -/
def Vec.agrees (v : Vec) (t : Tiles) (x : BitVec 6) : Bool :=
  let n := x.toNat
  if 32 ≤ n ∧ n < 48 then (t.infoAt v.bind.t).split == v.bind.split
  else if isPort x then
    match v.ports.getD (n - 48) none with
    | some p => portSplit (v.words.getD (n - 48) 0) == v.bind.split && portOk (v.words.getD (n - 48) 0) p.q.geom
    | none => false
  else true

/-- The port that a source or destination names is bound to that side. -/
def Vec.portSide (v : Vec) (x : BitVec 6) (write : Bool) : Bool :=
  !isPort x || match v.ports.getD (x.toNat - 48) none with | some p => p.write == write | none => false

/-- The OPERAND checks of a vector word (05 R142, R152). -/
def vecCheck (t : Nat) (srcs : List (BitVec 6)) (dst : Option (BitVec 6)) : M PUnit := do
  let c ← here
  let v := c.vec
  trapIf (t == 6 && v.bind.split) .operand
  trapIf (!(srcs.all fun x => v.agrees c.tiles x && v.portSide x false)) .operand
  match dst with
  | none => pure ()
  | some d => trapIf (!(v.agrees c.tiles d && v.portSide d true)) .operand

/-! ## Claims and advances (07 R220-R222) -/

/-- Engine e claims a slot of a side at walk index w, or waits; its number. The access is at the control block, of class
`cls` (09 R270). -/
def claimSlot (e : Engine) (cls : Nat) (kinds : Kinds) (run : Nat) (h : Nat) (q : Handle) (prod : Bool) (w : Nat) : M Nat := do
  ownSide e h q.gen prod w
  streamClear q prod
  let ctl := padLoc (clusterOf (← get).cur) q.ctl
  accessGo { (← engineAcc e w cls ctl 64 kinds) with run := run }
  passHome ctl 1
  let (p, c) ← readCounts q
  let k := (← here).claims h q.gen prod
  needs (if prod then decide (p + k < c + geomSlots q.geom) else decide (c + k < p))
  onHere fun x => match x.side h q.gen prod with
    | some sd => x.setSide h { sd with claims := sd.claims + 1 }
    | none => x
  return (if prod then p + k else c + k) % geomSlots q.geom

/-- The oldest claim of a side ends when the accesses before it have performed: its count advances by one, at once at the home
(07 R220, R221). The slot that a producer publishes then gets its hallmarks. -/
def advanceClaim (e : Engine) (cls : Nat) (kinds : Kinds) (run : Nat) (h : Nat) (q : Handle) (prod : Bool) (w : Nat)
    (slot : Option (Nat × Nat × Nat)) : M PUnit := do
  ownSide e h q.gen prod w
  streamClear q prod
  let _ ← readCounts q
  let a ← engineAcc e w cls (padLoc (clusterOf (← get).cur) q.ctl) 64 kinds (if prod then some 1 else none)
  enqueueLogged { a with run := run } (.count h q prod 1 true slot)

/-- The location of byte o of a slot of the current crew's scratchpad (07 R217). -/
def State.slotLoc (s : State) (q : Handle) (slot o : Nat) : Nat :=
  padLoc (clusterOf s.cur) (geomBase q.geom + slot * geomBytes q.geom + o)

/-! ## Ports (05 R150-R153) -/

/-- Port n of the current core, its binding word with it. -/
def portAt (n : Nat) : M (Port × Word) := do
  let c ← here
  match c.vec.ports.getD n none with
  | some p => return (p, c.vec.words.getD n 0)
  | none => trap .operand

/-- Port n becomes p. -/
def setPort (n : Nat) (p : Option Port) : M PUnit := onHere fun c => { c with vec := { c.vec with ports := c.vec.ports.set n p } }

/-- The walk index of the word at the vector counter. -/
def vecWalk : M Nat := do return ((← here).at_ .v).1

/-- Vector and matrix engine act on a port in walk order (06 R181): engine e at walk index w waits for the other's words
that name the port and come first; a word that is to be read again may name it. -/
def portTurn (e : Engine) (w n : Nat) : M PUnit := do
  let c ← here
  let o := if e == Engine.v then Engine.m else Engine.v
  needs (!c.hand.trail.any fun p => decide (c.front o ≤ p.1) && decide (p.1 < w) && !(c.ctr o).stop &&
    match p.2 with
    | .word x _ => engineOfWord x == o && namesPort (instrOf x) n
    | .again _ => true
    | .texit => false)

/-- Orders of the claims that other ports hold on the side of port p. -/
def Vec.orders (v : Vec) (p : Port) : List Nat :=
  v.ports.filterMap fun o => match o with
    | some x => if x.h = p.h ∧ x.q.gen = p.q.gen ∧ x.write = p.write ∧ x.row ≠ 0 then some x.order else none
    | none => none

/-- A port claims its next slot for a word of engine e at walk index w when its cursor is 0 (05 R152). -/
def openSlot (e : Engine) (w : Nat) (p : Port) : M Port := do
  if p.row ≠ 0 then return p
  else
    let slot ← claimSlot e 0 { mr := !p.write, mw := p.write } 0 p.h p.q p.write w
    let os := (← here).vec.orders p
    return { p with slot := slot, order := os.foldl max 0 + 1 }

/-- For a word of engine e at walk index w port n goes on to the next row, or advances its side after the slot's last row
(05 R152, 07 R220). -/
def closeRow (e : Engine) (w n : Nat) (p : Port) (word : Word) : M PUnit := do
  if p.row + 1 < portRows word then setPort n (some { p with row := p.row + 1 })
  else
    setPort n (some { p with row := 0, slot := 0, order := 0 })
    needs (((← here).vec.orders p).all fun o => decide (p.order < o))
    let s : State ← get
    let slot := (s.slotLoc p.q p.slot 0, geomBytes p.q.geom, portRows word * portLen word)
    advanceClaim e 0 { mr := !p.write, mw := p.write } 0 p.h p.q p.write w (if p.write then some slot else none)

/-- Lanes from the bytes of a port row (05 R150). Of 8 bytes in a split lane the low 40 bits count, and 5 bytes in a lane of
10 leave the rest zero: the spec gives neither (log 34). -/
def bytesLanes (e : Nat) (split : Bool) (bs : List Byte) : List Nat :=
  (List.range (laneCount split)).map fun l => leNat ((bs.drop (l * e)).take e) % 2 ^ laneBits split

/-- A word of engine e at walk index w pops a row of read port n (05 R152): its bytes, and what the check of its slot
before the first row found (R153). -/
def popBytes (e : Engine) (w n : Nat) : M (List Byte × Option Cause) := do
  portTurn e w n
  let (p0, word) ← portAt n
  let p ← openSlot e w p0
  let s : State ← get
  let bad := if p0.row = 0 then s.verify (s.slotLoc p.q p.slot 0) (geomBytes p.q.geom) else none
  let len := portLen word
  let loc := s.slotLoc p.q p.slot (p.row * len)
  engineMayGo e w 0 loc len { mr := true }
  passHome loc len
  let bs := (← get).bytes loc len
  closeRow e w n p word
  return (bs, bad)

/-- A vector word pops a row of read port n (05 R152, R153). -/
def popRow (n : Nat) : M (List Nat) := do
  let word := (← portAt n).2
  let (bs, bad) ← popBytes .v (← vecWalk) n
  match bad with
  | some c => trap c
  | none => return bytesLanes (portElem word) (portSplit word) bs

/-- A write port pushes a row of lanes, which waits in the request path; inactive lanes are zero bytes (05 R152). -/
def pushRow (n : Nat) (vals : List (Option Nat)) : M PUnit := do
  let w ← vecWalk
  portTurn .v w n
  let (p0, word) ← portAt n
  let p ← openSlot .v w p0
  let len := portLen word
  let loc := (← get).slotLoc p.q p.slot (p.row * len)
  writeLater (← engineAcc .v w 0 loc len { mw := true }) ((vals.map fun x => leBytes (portElem word) (x.getD 0)).flatten)
  closeRow .v w n p word

/-- Port n is unbound: a slot it stands in is freed, or filled with zero bytes and published (05 R151). A port that is not bound
stays so: the spec names neither a refusal nor an effect (log 48). -/
def unbindPort (n : Nat) : M PUnit := do
  let w ← vecWalk
  portTurn .v w n
  let c ← here
  match c.vec.ports.getD n none with
  | none => pure ()
  | some p =>
    let word := c.vec.words.getD n 0
    if p.row ≠ 0 then
      if p.write then
        let len := portLen word
        let loc := (← get).slotLoc p.q p.slot (p.row * len)
        let rest := (portRows word - p.row) * len
        writeLater (← engineAcc .v w 0 loc rest { mw := true }) (leBytes rest 0)
      closeRow .v w n { p with row := portRows word - 1 } word
    setPort n none

/-! ## Reading and writing operands (05 R141, R142) -/

/-- Tile and row that an operand code names, if it names one. -/
def Vec.place (v : Vec) (x : BitVec 6) : Option (Nat × Nat) :=
  let n := x.toNat
  if n < 16 then some (vtile v.bind.w, v.bind.vb + n)
  else if n < 32 then some (vtile v.bind.w, v.bind.vb + 16 + (n - 16 + v.rrb) % 16)
  else if n < 48 then some (v.bind.t, v.bind.cb + (n - 32))
  else none

/-- A source operand's lanes (05 R141, R153). -/
def readLanes (x : BitVec 6) : M (List Nat) := do
  let c ← here
  match c.vec.place x with
  | some (tile, r) =>
    readTile tile (· == r)
    return rowLanes c.vec.bind.split ((← here).tiles.rowAt tile r)
  | none => if isPort x then popRow (x.toNat - 48) else return List.replicate (laneCount c.vec.bind.split) 0

/-- The source operands in order (05 R142). -/
def readSources (xs : List (BitVec 6)) : M (List (List Nat)) := xs.mapM readLanes

/-- A result row: `none` keeps a lane (05 R144); a port's row carries zero bytes there. -/
def writeLanes (x : BitVec 6) (vals : List (Option Nat)) : M PUnit := do
  let c ← here
  match c.vec.place x with
  | some (tile, r) =>
    let sp := c.vec.bind.split
    let old := rowLanes sp (c.tiles.rowAt tile r)
    let new := (old.zip vals).map fun p => p.2.getD p.1
    onTiles fun t =>
      let t := t.setRow tile r (lanesRow sp new)
      if vals.all (·.isSome) then { t with bad := t.bad.filter (· != (tile, r)) } else t
  | none => if isPort x then pushRow (x.toNat - 48) vals else pure ()

/-- The tile whose status word takes the flags of a result written to x (03 R87). -/
def Vec.flagTile (v : Vec) (x : BitVec 6) : Nat := match v.place x with | some (tile, _) => tile | none => vtile v.bind.w

/-- The flags of a word with destination x are merged. -/
def mergeInto (x : BitVec 6) (f : Flags) : M PUnit := onHere fun c => { c with tiles := c.tiles.merge (c.vec.flagTile x) f }

/-! ## Words over rows -/

/-- What a word makes of its source rows: a result row, flags, and the SR generator after its draws. -/
structure Made where
  lanes : List (Option Nat)
  flags : Flags := 0
  gen : BitVec 64 := 0
deriving DecidableEq, Repr

/-- A vector word with destination d (05 R157): checks, reads, computation, write, flags. -/
def rowWord (i : Instr) (t g : Nat) (d : BitVec 6) (srcs : List (BitVec 6))
    (f : VEnv → BitVec 64 → List (List Nat) → Made) (s : State) : Host.Outcome State Fault Refusal :=
  engineWord .v i (do
    vecCheck t srcs (some d)
    let v := (← here).vec
    let rows ← readSources srcs
    let r := f (v.env g) v.gen rows
    writeLanes d r.lanes
    mergeInto d r.flags
    onHere fun c => { c with vec := { c.vec with gen := r.gen } }) s

/-- A result for each active lane, made of the lane's number. -/
def eachLane (v : VEnv) (g : BitVec 64) (f : Nat → Nat × Flags) : Made :=
  let rs := (List.range v.w).map fun l => if v.active l then some (f l) else none
  { lanes := rs.map (·.map (·.1)), gen := g
    flags := rs.foldl (fun acc r => match r with | some x => acc ||| x.2 | none => acc) 0 }

/-- A lane's result from its sub-elements (05 R157). -/
def eachElem (t : Nat) (split : Bool) (f : List Nat → Nat × Flags) (xs : List Nat) : Nat × Flags :=
  let cols := xs.map (elems t split)
  let rs := (List.range (subs t split)).map fun e => f (cols.map fun c => c.getD e 0)
  (packElems t split (rs.map (·.1)), rs.foldl (fun acc r => acc ||| r.2) 0)

/-- A word that computes element by element under a guard. -/
def elemWord (i : Instr) (t g : Nat) (d : BitVec 6) (srcs : List (BitVec 6)) (f : Elem → List Nat → Nat × Flags)
    (s : State) : Host.Outcome State Fault Refusal :=
  rowWord i t g d srcs (fun v gen rows =>
    eachLane v gen fun l => eachElem t v.split (f (elemOf t v.split v.pk16)) (rows.map fun r => r.getD l 0)) s

end Sys2Proof.Machine
end

