-- ==== Sys2Proof/Machine/Lanes.lean ====
section
/-! DEFINITION. What the vector words compute on elements and rows (05 R156-R172, 03 R88-R92). -/

namespace Sys2Proof.Machine

/-! ## Elements -/

/-- The bits of an integer in n bits. -/
def ibits (n : Nat) (x : Int) : Nat := (BitVec.ofInt n x).toNat

/-- An exact integer result under the regime of R156. -/
def Elem.ofInt (k : Elem) (x : Int) : Nat × Flags :=
  match k with
  | .float f => f.round .rne 0 (FVal.ofInt x)
  | .sat n => let r := saturate (-(2 ^ (n - 1))) (2 ^ (n - 1) - 1) x; (ibits n r.1, r.2)
  | .wrap n => (ibits n x, 0)

/-- The width of an element. -/
def Elem.bits : Elem → Nat
  | .float f => f.e + f.m + 1
  | .sat n => n
  | .wrap n => n

/-- The arithmetic and bitwise operations of R156, with the adds and orders that V.RED shares. -/
inductive LaneOp where
  | add | sub | mul | min | max | and | or | xor
deriving DecidableEq, Repr

/-- The greater or lesser of two elements. -/
def Elem.pick (k : Elem) (greater : Bool) (x y : Nat) : Nat × Flags :=
  match k with
  | .float f =>
    let a := f.decode x
    let b := f.decode y
    if a.isNan || b.isNan then (f.cnan, 0)
    else if greater then (if a.ordLt b then y else x, 0)
    else (if b.ordLt a then y else x, 0)
  | .sat n => (if xor greater (decide (sext n y < sext n x)) then y else x, 0)
  | .wrap n => (if xor greater (decide (sext n y < sext n x)) then y else x, 0)

/-- One operation on two elements (05 R156). -/
def Elem.op (k : Elem) (o : LaneOp) (x y : Nat) : Nat × Flags :=
  match o with
  | .and => (x &&& y, 0)
  | .or => (x ||| y, 0)
  | .xor => (x ^^^ y, 0)
  | .min => k.pick false x y
  | .max => k.pick true x y
  | .add =>
    match k with
    | .float f => let r := (f.decode x).add .rne (f.decode y); let p := f.round .rne 0 r.1; (p.1, r.2 ||| p.2)
    | _ => k.ofInt (sext k.bits x + sext k.bits y)
  | .sub =>
    match k with
    | .float f => let r := (f.decode x).add .rne (f.decode y).neg; let p := f.round .rne 0 r.1; (p.1, r.2 ||| p.2)
    | _ => k.ofInt (sext k.bits x - sext k.bits y)
  | .mul =>
    match k with
    | .float f => let r := (f.decode x).mul (f.decode y); let p := f.round .rne 0 r.1; (p.1, r.2 ||| p.2)
    | _ => k.ofInt (sext k.bits x * sext k.bits y)

/-- The shifts of R158. -/
inductive ShiftOp where
  | shl | shr | sar | rol
deriving DecidableEq, Repr

/-- x shifted left with saturation, as IN does (05 R158). -/
def satShl (n x a : Nat) : Nat × Flags :=
  let v := sext n x
  let m := if v = 0 then 0 else min a n
  (Elem.sat n).ofInt (v * 2 ^ m)

/-- One shift of an element by an element (05 R158). -/
def Elem.shift (k : Elem) (o : ShiftOp) (x a : Nat) : Nat × Flags :=
  let n := k.bits
  match o with
  | .shl => (match k with | .sat n => satShl n x a | _ => (if n ≤ a then 0 else x * 2 ^ a % 2 ^ n, 0))
  | .shr => (if n ≤ a then 0 else x / 2 ^ a, 0)
  | .sar => (ibits n (sext n x / 2 ^ (min a n)), 0)
  | .rol => ((BitVec.ofNat n x |>.rotateLeft (a % n)).toNat, 0)

/-- a * b + c or a * b - c, handled once (05 R159). -/
def Elem.fused (k : Elem) (neg : Bool) (x y z : Nat) : Nat × Flags :=
  match k with
  | .float f =>
    let p := (f.decode x).mul (f.decode y)
    let c := f.decode z
    let r := p.1.add .rne (if neg then c.neg else c)
    let q := f.round .rne 0 r.1
    (q.1, p.2 ||| r.2 ||| q.2)
  | _ =>
    let n := k.bits
    let p := sext n x * sext n y
    k.ofInt (if neg then p - sext n z else p + sext n z)

/-- |x| or -x (05 R160). -/
def Elem.signed (k : Elem) (neg : Bool) (x : Nat) : Nat × Flags :=
  match k with
  | .float f =>
    let v := f.decode x
    if v.isNan then (f.cnan, 0)
    else
      let m := x % 2 ^ (f.e + f.m)
      (m + f.sign (neg && !v.isNeg), 0)
  | _ => let v := sext k.bits x; k.ofInt (if neg then -v else if v < 0 then -v else v)

/-- The relation of V.CMP (05 R161): EQ, NE, LT, LE, UNORD. -/
def Elem.cmp (k : Elem) (c x y : Nat) : Bool :=
  match k with
  | .float f =>
    let a := f.decode x
    let b := f.decode y
    let un := a.isNan || b.isNan
    match c with
    | 0 => !un && !a.lt b && !b.lt a
    | 1 => un || a.lt b || b.lt a
    | 2 => !un && a.lt b
    | 3 => !un && !b.lt a
    | _ => un
  | _ =>
    let a := sext k.bits x
    let b := sext k.bits y
    match c with
    | 0 => decide (a = b)
    | 1 => decide (a ≠ b)
    | 2 => decide (a < b)
    | 3 => decide (a ≤ b)
    | _ => false

/-! ## Conversions (03 R88) -/

/-- An element converted to another kind (Table 41), with draw u under SR. -/
def Elem.convert (k : Elem) (dest : Elem) (md : Rnd) (u x : Nat) : Nat × Flags :=
  let lo := fun (n : Nat) => -(2 ^ (n - 1) : Int)
  let hi := fun (n : Nat) => (2 ^ (n - 1) : Int) - 1
  match k, dest with
  | .float f, .float g => g.round md u (f.decode x)
  | .float f, .sat n => let r := (f.decode x).toInt md u (lo n) (hi n); (ibits n r.1, r.2)
  | .float f, .wrap n => let r := (f.decode x).toInt md u (lo n) (hi n); (ibits n r.1, r.2)
  | .sat a, .float g => g.round md u (FVal.ofInt (sext a x))
  | .wrap a, .float g => g.round md u (FVal.ofInt (sext a x))
  | .sat a, .sat n => let r := saturate (lo n) (hi n) (sext a x); (ibits n r.1, r.2)
  | .sat a, .wrap n => let r := saturate (lo n) (hi n) (sext a x); (ibits n r.1, r.2)
  | .wrap a, .sat n => let r := saturate (lo n) (hi n) (sext a x); (ibits n r.1, r.2)
  | .wrap a, .wrap n => let r := saturate (lo n) (hi n) (sext a x); (ibits n r.1, r.2)

/-- The draw of a rounding step: the generator moves only under SR (R81). -/
def drawIf (md : Rnd) (g : BitVec 64) : BitVec 64 × Nat := if md = .sr then draw g else (g, 0)

/-- A lane converted: both packed sides go element by element, otherwise sub-element 0 only (05 R165). -/
def convertLane (k dest : Elem) (t e : Nat) (split : Bool) (md : Rnd) (acc : BitVec 64) (x : Nat) : Nat × Flags × BitVec 64 :=
  if packed t && packed e then
    let r := (elems t split x).foldl
      (fun (a : List Nat × Flags × BitVec 64) y =>
        let d := drawIf md a.2.2
        let c := k.convert dest md d.2 y
        (a.1 ++ [c.1], a.2.1 ||| c.2, d.1)) ([], 0, acc)
    (packElems e split r.1, r.2.1, r.2.2)
  else
    let d := drawIf md acc
    let c := k.convert dest md d.2 (fld x 0 (elemBits t split))
    (c.1, c.2, d.1)

/-- V.CVT over a row (05 R165): the active lanes draw in ascending order (03 R82). -/
def convertRow (t e : Nat) (md : Rnd) (v : VEnv) (g : BitVec 64) (row : List Nat) : Made :=
  let k := elemOf t v.split v.pk16
  let dest := elemOf e v.split v.pk16d
  (List.range v.w).foldl
    (fun (a : Made) l =>
      if v.active l then
        let r := convertLane k dest t e v.split md a.gen (row.getD l 0)
        { lanes := a.lanes ++ [some r.1], flags := a.flags ||| r.2.1, gen := r.2.2 }
      else { a with lanes := a.lanes ++ [none] }) { lanes := [], gen := g }

/-! ## Byte streams (03 R75, 05 R166, R167) -/

/-- Bits of a code of a pack format. -/
def fmtBits (f : Nat) : Nat := match f with | 1 => 6 | 2 => 4 | _ => 8

/-- The bytes of a stream in the PK8 positions of a row. -/
def streamLanes (split : Bool) (bs : List Nat) : List Nat :=
  let n := if split then 4 else 8
  (List.range (laneCount split)).map fun l => packElems 5 split ((List.range n).map fun i => bs.getD (n * l + i) 0)

/-- The byte stream of a row. -/
def laneStream (split : Bool) (row : List Nat) : List Nat := row.flatMap fun x => elems 5 split x

/-- Codes packed little-endian, and taken out again. -/
def packCodes (n : Nat) (cs : List Nat) : List Nat :=
  let all := cs.foldr (fun x acc => x % 2 ^ n + 2 ^ n * acc) 0
  (List.range ((cs.length * n + 7) / 8)).map fun i => fld all (8 * i) 8
def codeAt (n : Nat) (all k : Nat) : Nat := fld all (n * k) n
def streamNat (bs : List Nat) : Nat := bs.foldr (fun x acc => x % 256 + 256 * acc) 0

/-- The code of one value in a pack format (05 R166). -/
def packCode (f : Nat) (md : Rnd) (u : Nat) (x : FVal) (scale : Nat) : Nat × Flags :=
  if f = 5 then toE5m3 md u x
  else
    let q := x.divScale (e5m3 scale)
    let mx := fun (n : Nat) => let r := q.1.toMxint n md u; (ibits n r.1, q.2 ||| r.2)
    let fl := fun (g : FFmt) => let r := q.1.toFloat g md u; (r.1, q.2 ||| r.2)
    match f with
    | 0 => mx 8
    | 1 => mx 6
    | 2 => mx 4
    | 3 => fl fmtE4M3
    | _ => fl fmtE5M2

/-- V.PACK over a row (05 R166): every lane below W converts, lanes at or above k.VLEN as +0. -/
def packRow (t f : Nat) (v : VEnv) (g : BitVec 64) (row scales : List Nat) : Made :=
  let k := if t = 2 then fmtFP32 else if v.split then fmtF40 else fmtF80
  let sc := laneStream v.split scales
  let r := (List.range v.w).foldl
    (fun (a : List Nat × Flags × BitVec 64) l =>
      let d := drawIf v.prnd a.2.2
      let x := if l < v.vlen then k.decode (fld (row.getD l 0) 0 (elemBits t v.split)) else .fin false 0 0
      let c := packCode f v.prnd d.2 x (sc.getD (l / 32) 0)
      (a.1 ++ [c.1], a.2.1 ||| c.2, d.1)) ([], 0, g)
  { lanes := (streamLanes v.split (packCodes (fmtBits f) r.1)).map some, flags := r.2.1, gen := r.2.2 }

/-- The value of a code of a pack format (03 R70, R74, R77). -/
def codeValue (f c : Nat) : FVal :=
  match f with
  | 0 => mxint 8 c
  | 1 => mxint 6 c
  | 2 => mxint 4 c
  | 3 => fmtE4M3.decode c
  | 4 => fmtE5M2.decode c
  | _ => e5m3 c

/-- V.UNPK over a row (05 R167): an infinity times a scale of 0 is a NaN with INVALID (03 R86). -/
def unpackRow (t f : Nat) (v : VEnv) (g : BitVec 64) (row scales : List Nat) : Made :=
  let k := if t = 2 then fmtFP32 else if v.split then fmtF40 else fmtF80
  let all := streamNat (laneStream v.split row)
  let sc := laneStream v.split scales
  let rs := (List.range v.w).map fun l =>
    if v.inUse l then
      let x := codeValue f (codeAt (fmtBits f) all l)
      let y := if f = 5 then (x, 0) else x.mul (e5m3 (sc.getD (l / 32) 0))
      some ((k.round .rne 0 y.1).1, y.2)
    else none
  { lanes := rs.map (·.map (·.1)), gen := g
    flags := rs.foldl (fun acc r => match r with | some x => acc ||| x.2 | none => acc) 0 }

/-! ## Across lanes (03 R91, R92, 05 R169-R172) -/

/-- The operation of V.RED and V.SCAN by its code. -/
def redOp (o : Nat) : LaneOp := match o with | 0 => .add | 1 => .min | 2 => .max | 3 => .and | 4 => .or | _ => .xor

/-- The identity that stands in for an inactive lane (03 R91, 05 R169). -/
def Elem.identity (k : Elem) (o : LaneOp) : Nat :=
  let n := k.bits
  match o with
  | .and => 2 ^ n - 1
  | .min => match k with | .float f => f.infBits | _ => 2 ^ (n - 1) - 1
  | .max => match k with | .float f => f.sign true + f.infBits | _ => 2 ^ (n - 1)
  | .add => match k with | .float f => f.sign true | _ => 0
  | _ => 0

/-- One level of the pairwise tree. -/
def Elem.level (k : Elem) (o : LaneOp) : List Nat → List (Nat × Flags)
  | x :: y :: l => k.op o x y :: Elem.level k o l
  | _ => []

/-- The tree of R91 over 2^n elements. -/
def Elem.tree (k : Elem) (o : LaneOp) : Nat → List Nat → Nat × Flags
  | 0, xs => (xs.headD 0, 0)
  | n + 1, xs =>
    let l := k.level o xs
    let r := k.tree o n (l.map (·.1))
    (r.1, l.foldl (fun a x => a ||| x.2) r.2)

/-- Sub-element e of each lane, or the identity where the lane is inactive. -/
def column (k : Elem) (o : LaneOp) (t : Nat) (v : VEnv) (row : List Nat) (e : Nat) : List Nat :=
  (List.range v.w).map fun l => if v.active l then (elems t v.split (row.getD l 0)).getD e 0 else k.identity o

/-- V.RED (05 R169). -/
def reduceRow (t o : Nat) (v : VEnv) (g : BitVec 64) (row : List Nat) : Made :=
  let k := elemOf t v.split v.pk16
  let op := redOp o
  let rs := (List.range (subs t v.split)).map fun e => k.tree op (if v.split then 8 else 7) (column k op t v row e)
  let x := packElems t v.split (rs.map (·.1))
  { lanes := (List.range v.w).map fun l => if v.active l then some x else none
    flags := rs.foldl (fun a r => a ||| r.2) 0, gen := g }

/-- Prefixes in ascending order; the first is the first element itself (03 R92). -/
def Elem.prefixes (k : Elem) (o : LaneOp) : Nat → List Nat → List (Nat × Flags)
  | _, [] => []
  | p, x :: l => let r := k.op o p x; r :: Elem.prefixes k o r.1 l

/-- V.SCAN (05 R170). -/
def scanRow (t o : Nat) (v : VEnv) (g : BitVec 64) (row : List Nat) : Made :=
  let k := elemOf t v.split v.pk16
  let op := redOp o
  let cols := (List.range (subs t v.split)).map fun e =>
    match column k op t v row e with
    | [] => []
    | x :: l => (x, (0 : Flags)) :: k.prefixes op x l
  { lanes := (List.range v.w).map fun l =>
      if v.active l then some (packElems t v.split (cols.map fun c => (c.getD l (0, 0)).1)) else none
    flags := cols.foldl (fun a c => c.foldl (fun b r => b ||| r.2) a) 0, gen := g }

/-- Lanes moved by an index (05 R171). -/
def moveLanes (t : Nat) (v : VEnv) (g : BitVec 64) (row : List Nat) (src : Nat → Nat) : Made :=
  eachLane v g fun l => let j := src l; (if v.active j then occupied t v.split (row.getD j 0) else 0, 0)

/-- The sort key of V.TOPK (05 R172): NaN below -inf, the zeros equal. -/
def topKey (t x : Nat) : Int :=
  if t = 3 then sext 32 x
  else
    match fmtFP32.decode (fld x 0 32) with
    | .nan => -(2 ^ 40)
    | v => let m : Int := (fld x 0 31 : Nat); if v.isNeg then -m else m

/-- Insertion into a ranking, greatest first, ties to the earlier lane. -/
def insertTop (key : Nat → Int) (x : Nat) : List Nat → List Nat
  | [] => [x]
  | y :: l => if key x < key y ∨ (key x = key y ∧ y < x) then y :: insertTop key x l else x :: y :: l

/-- V.TOPK (05 R172). -/
def topRow (t k : Nat) (v : VEnv) (g : BitVec 64) (row : List Nat) : Made :=
  let key := fun (l : Nat) => topKey t (fld (row.getD l 0) 0 32)
  let rank := ((List.range v.w).filter v.active).foldl (fun acc l => insertTop key l acc) []
  let filler := 0xFF * 2 ^ 32 + if t = 2 then 0x7FC00000 else 0x80000000
  { gen := g
    lanes := (List.range v.w).map fun i =>
      if i < k then
        some (match rank[i]? with | some l => l * 2 ^ 32 + fld (row.getD l 0) 0 32 | none => filler)
      else none }

/-- The value V.LIT writes in every element (05 R164). -/
def litLane (t : Nat) (split : Bool) (imm : Nat) : Nat :=
  match t with
  | 0 => ((if split then fmtF40 else fmtF80).round .rne 0 (fmtBF16.decode imm)).1
  | 2 => (fmtFP32.round .rne 0 (fmtBF16.decode imm)).1
  | 4 => packElems 4 split (List.replicate (subs 4 split) imm)
  | 5 => packElems 5 split (List.replicate (subs 5 split) (imm % 256))
  | _ => ibits (elemBits t split) (sext 16 imm)

end Sys2Proof.Machine
end

