-- ==== Sys2Proof/Machine/Special.lean ====
section
/-! DEFINITION. The special functions of V.SFN (05 R168, Table 58): special operands and exact results are given; every
other result is a free choice (log 7) among the values within the error bound of Table 58. -/

namespace Sys2Proof.Machine

/-! ## Enclosures in fixed point with 192 fraction bits -/

/-- 2^192, and pi, ln 2 and log2 e in these units, each cut below. -/
def fixOne : Nat := 2 ^ 192
def fixPi : Nat := 0x3243f6a8885a308d313198a2e03707344a4093822299f31d0
def fixLn2 : Nat := 0xb17217f7d1cf79abc9e3b39803f2f6af40f343267298b62d
def fixLog2e : Nat := 0x171547652b82fe1777d0ffda0d23a7d11d6aef551bad2b4b1

/-- More than every error the sums below make. -/
def fixSlack : Nat := 2 ^ 32

/-- The integer square root, bit by bit from bit n. -/
def sqrtBits : Nat → Nat → Nat → Nat
  | 0, _, r => r
  | n + 1, x, r => sqrtBits n x (if (r + 2 ^ n) * (r + 2 ^ n) ≤ x then r + 2 ^ n else r)
def isqrt (x : Nat) : Nat := sqrtBits (Nat.log2 x / 2 + 1) x 0

/-- n terms of the series of e^y, y in fixed point below 1: sum, next term, its number. -/
def expSeries : Nat → Nat → Nat → Nat → Nat → Nat
  | 0, _, _, _, acc => acc
  | n + 1, y, t, k, acc => expSeries n y (t * y / fixOne / (k + 1)) (k + 1) (acc + t)

/-- 2^f for f in [0, 1): within fixSlack of the result. -/
def fixExp2 (f : Nat) : Nat := expSeries 60 (f * fixLn2 / fixOne) fixOne 0 0

/-- Fraction bits of log2 y for y in [1, 2), by repeated squaring. -/
def log2Bits : Nat → Nat → Nat → Nat
  | 0, _, acc => acc
  | n + 1, y, acc =>
    let z := y * y / fixOne
    if 2 * fixOne ≤ z then log2Bits n (z / 2) (acc + 2 ^ (n + 112)) else log2Bits n z acc

/-- n terms of an alternating series in t^2: sine from t itself, cosine from 1. -/
def circleSeries : Nat → Nat → Nat → Nat → Int → Int → Int
  | 0, _, _, _, _, acc => acc
  | n + 1, sq, t, k, sg, acc =>
    circleSeries n sq (t * sq / fixOne / ((k + 1) * (k + 2))) (k + 2) (-sg) (acc + sg * t)

/-- m * 2^e in fixed point, cut below. -/
def fixOf (m : Nat) (e : Int) : Nat := (scaled m e (-192)).1 / (scaled m e (-192)).2

/-! ## Codes in the order of their values -/

/-- The place of an encoding in the order of values, and the encoding at a place. -/
def FFmt.ord (f : FFmt) (x : Nat) : Int := if bit x (f.m + f.e) then -(x % 2 ^ (f.m + f.e) : Nat) else (x : Int)
def FFmt.ofOrd (f : FFmt) (neg : Bool) (k : Int) : Nat :=
  if k < 0 then f.sign true + k.natAbs else if k = 0 then f.sign neg else k.natAbs

/-- A signed dyadic rounded down or up, as a place. -/
def FFmt.place (f : FFmt) (up : Bool) (x : Int) (e : Int) : Int :=
  f.ord (f.roundFin (if up then .rup else .rdn) 0 (decide (x < 0)) x.natAbs e).1

/-- A free choice among the places from a to b (log 7), with its flags: UNDER for an exact value that is tiny (03 Table 40). -/
def FFmt.choose (f : FFmt) (fn x : Nat) (neg tiny : Bool) (a b : Int) : Nat × Flags :=
  let k := a + ((Config.sfn fn f.m x % ((b - a).toNat + 1) : Nat) : Int)
  let r := f.ofOrd neg k
  let mag := r % 2 ^ (f.m + f.e)
  (r, flagInexact ||| flagIf (mag == f.infBits) flagOver ||| flagIf tiny flagUnder)

/-- Whether a value between lo * 2^e and hi * 2^e, not one of them, is below the least normal value. -/
def FFmt.tiny (f : FFmt) (lo hi e : Int) : Bool :=
  let (num, den) := scaled (max lo.natAbs hi.natAbs) e (1 - f.bias)
  decide (num ≤ den)

/-- The weight of the last place of a dyadic's binade. -/
def FFmt.ulpExp (f : FFmt) (x : Int) (e : Int) : Int :=
  max (e + Nat.log2 x.natAbs - f.m) (1 - f.bias - f.m)

/-- Values within u ulps of a value in [lo, hi] * 2^e, with an infinity where the value is above the greatest finite one. -/
def FFmt.nearUlp (f : FFmt) (fn x u : Nat) (lo hi : Int) (e : Int) : Nat × Flags :=
  let q := f.ulpExp lo e
  let s : Int := (2 ^ (e - q).toNat : Nat)
  let w : Int := (u * 2 ^ (q - e).toNat : Nat)
  let d := min e q
  let top := f.place true hi e
  f.choose fn x (decide (lo < 0)) (f.tiny lo hi e) (f.place true (lo * s - w) d)
    (if top = f.infBits then top else f.place false (hi * s + w) d)

/-- Values within 2^-b of a value in [lo, hi] in fixed point. -/
def FFmt.nearAbs (f : FFmt) (fn x b : Nat) (lo hi : Int) : Nat × Flags :=
  let w : Int := (2 ^ (192 - b) : Nat)
  f.choose fn x (decide (lo < 0)) (f.tiny lo hi (-192)) (f.place true (lo - w) (-192)) (f.place false (hi + w) (-192))

/-! ## The functions -/

/-- Whether m * 2^e is an integer, an odd multiple of 1/2, a power of two; that integer's parity. -/
def dyadicInt (m : Nat) (e : Int) : Bool := (scaled m e 0).1 % (scaled m e 0).2 == 0
def dyadicNat (m : Nat) (e : Int) : Nat := (scaled m e 0).1 / (scaled m e 0).2
def powerOfTwo (m : Nat) : Bool := m == 2 ^ Nat.log2 m

/-- EXP2 of a finite nonzero value. -/
def sfnExp2 (f : FFmt) (x : Nat) (neg : Bool) (m : Nat) (e : Int) : Nat × Flags :=
  let big := decide (((f.bias + f.m + 8 : Nat) : Int) ≤ e + Nat.log2 m) || decide (f.bias + f.m + 8 ≤ dyadicNat m e)
  if big then
    if neg then f.choose 0 x false true 0 1 else (f.infBits, flagOver ||| flagInexact)
  else if dyadicInt m e then
    let n : Int := if neg then -(dyadicNat m e : Nat) else (dyadicNat m e : Nat)
    let r := f.roundFin .rne 0 false 1 n
    if r.2 = 0 then r
    else if r.2 &&& flagOver ≠ 0 then (f.infBits, flagOver ||| flagInexact)
    else f.nearUlp 0 x 1 1 1 n
  else
    let n := dyadicNat m e
    let frac := fixOf m e - n * fixOne
    if neg then
      let v := fixExp2 (fixOne - frac)
      f.nearUlp 0 x 1 (v - fixSlack : Nat) (v + fixSlack : Nat) (-(n : Int) - 1 - 192)
    else if f.bias < n then (f.infBits, flagOver ||| flagInexact)
    else
      let v := fixExp2 frac
      f.nearUlp 0 x 1 (max (v - fixSlack) fixOne : Nat) (v + fixSlack : Nat) ((n : Int) - 192)

/-- LOG2 of a finite value above zero. -/
def sfnLog2 (f : FFmt) (x m : Nat) (e : Int) : Nat × Flags :=
  let k : Int := e + Nat.log2 m
  if powerOfTwo m then f.round .rne 0 (FVal.ofInt k)
  else
    let r : Int := (log2Bits 80 (fixOf m (-(Nat.log2 m : Int))) 0 : Nat)
    let lo := k * (fixOne : Nat) + r - (2 ^ 116 : Nat)
    let hi := k * (fixOne : Nat) + r + (2 ^ 116 : Nat)
    if k = 0 ∨ k = -1 then f.nearAbs 1 x (if f.m = 23 then 22 else 29) lo hi else f.nearUlp 1 x 1 lo hi (-192)

/-- RCP of a finite nonzero value. -/
def sfnRcp (f : FFmt) (x : Nat) (neg : Bool) (m : Nat) (e : Int) : Nat × Flags :=
  let r := f.roundFin .rne 0 neg 1 (-e) m
  let v : Int := (fixOne * fixOne / m : Nat)
  if r.2 = 0 then r
  else if r.2 &&& flagOver ≠ 0 then r
  else if neg then f.nearUlp 2 x 1 (-(v + 1)) (-v) (-e - 384)
  else f.nearUlp 2 x 1 v (v + 1) (-e - 384)

/-- m * 2^e with an even exponent. -/
def evenExp (m : Nat) (e : Int) : Nat × Int := if e % 2 = 0 then (m, e) else (2 * m, e - 1)

/-- RSQ of a finite value above zero. -/
def sfnRsq (f : FFmt) (x m : Nat) (e : Int) : Nat × Flags :=
  let p := evenExp m e
  let v := isqrt (fixOne * fixOne / p.1)
  if powerOfTwo p.1 ∧ Nat.log2 p.1 % 2 = 0 then f.roundFin .rne 0 false 1 (-(p.2 / 2) - (Nat.log2 p.1 / 2 : Nat))
  else f.nearUlp 3 x 1 (v : Nat) (v + 2 : Nat) (-(p.2 / 2) - 192)

/-- SQRT of a finite value above zero, correctly rounded. -/
def sfnSqrt (f : FFmt) (m : Nat) (e : Int) : Nat × Flags :=
  let p := evenExp m e
  let y := p.1 * 2 ^ 160
  let r := isqrt y
  f.roundFin .rne 0 false (2 * r + (if r * r = y then 0 else 1)) (p.2 / 2 - 81)

/-- e^-y for y = m * 2^e in fixed point: a mantissa in (fixOne, 2 * fixOne] and the power of two it is divided by; none when
it is below 2^-4096. -/
def fixExpNeg (m : Nat) (e : Int) : Option (Nat × Nat) :=
  if 12 ≤ e + Nat.log2 m then none
  else
    let z := (scaled (m * fixLog2e) (e - 192) (-192))
    let z := z.1 / z.2
    some (fixExp2 (fixOne - z % fixOne), z / fixOne + 1)

/-- TANH of a finite nonzero value. -/
def sfnTanh (f : FFmt) (x : Nat) (neg : Bool) (m : Nat) (e : Int) : Nat × Flags :=
  let b : Int × Int × Int :=
    if e + Nat.log2 m < -8 then
      let a := fixOf (m * m) (2 * e)
      let a2 := a * a / fixOne
      let lo := fixOne - a / 3 + 2 * a2 / 15 - 17 * (a2 * a / fixOne) / 315 - 8
      let hi := min fixOne (fixOne - a / 3 + 2 * a2 / 15 + 8)
      ((m * lo : Nat), (m * hi : Nat), e - 192)
    else
      match fixExpNeg m (e + 1) with
      | none => ((fixOne - 1 : Nat), (fixOne : Nat), -192)
      | some (t, n) =>
        let tl := (t - fixSlack) / 2 ^ n
        let th := (t + fixSlack) / 2 ^ n + 1
        (((fixOne - th) * fixOne / (fixOne + th) : Nat), ((fixOne - tl) * fixOne / (fixOne + tl) + 1 : Nat), -192)
  if neg then f.nearUlp 5 x 2 (-b.2.1) (-b.1) b.2.2 else f.nearUlp 5 x 2 b.1 b.2.1 b.2.2

/-- SIGM of a finite nonzero value. -/
def sfnSigm (f : FFmt) (x : Nat) (neg : Bool) (m : Nat) (e : Int) : Nat × Flags :=
  match fixExpNeg m e with
  | none => if neg then f.choose 6 x false true (-1) 2 else f.nearUlp 6 x 2 (fixOne - 1 : Nat) (fixOne : Nat) (-192)
  | some (t, n) =>
    let tl := t - fixSlack
    let th := t + fixSlack
    if neg then
      f.nearUlp 6 x 2 (tl * fixOne / (fixOne + th / 2 ^ n + 1) : Nat) (th * fixOne / (fixOne + tl / 2 ^ n) + 1 : Nat)
        (-(n : Int) - 192)
    else
      f.nearUlp 6 x 2 (fixOne * fixOne / (fixOne + th / 2 ^ n + 1) : Nat) (fixOne * fixOne / (fixOne + tl / 2 ^ n) + 1 : Nat) (-192)

/-- SIN or COS of pi times a finite value. -/
def sfnCircle (f : FFmt) (cos : Bool) (x : Nat) (neg : Bool) (m : Nat) (e : Int) : Nat × Flags :=
  let one := f.bias * 2 ^ f.m
  let odd := fun (n : Nat) => n % 2 == 1
  if dyadicInt m e then
    if cos then (f.sign (odd (dyadicNat m e)) + one, 0) else (f.sign neg, 0)
  else if dyadicInt m (e + 1) then
    if cos then (0, 0) else (f.sign (xor neg (odd (dyadicNat m (e + 1) / 2))) + one, 0)
  else
    let r := fixOf m e % (2 * fixOne)
    let th := r * fixPi / fixOne
    let sq := th * th / fixOne
    let v := if cos then circleSeries 60 sq fixOne 0 1 0 else circleSeries 60 sq th 1 1 0
    let v := if neg && !cos then -v else v
    f.nearAbs (if cos then 8 else 7) x (if f.m = 23 then 22 else 29) (v - (fixSlack : Nat)) (v + (fixSlack : Nat))

/-- A special function on an operand of format f (Table 58). -/
def specialFn (f : FFmt) (fn x : Nat) : Nat × Flags :=
  let one := f.bias * 2 ^ f.m
  let invalid := (f.cnan, flagInvalid)
  match f.decode x with
  | .nan => (f.cnan, 0)
  | .inf neg =>
    match fn with
    | 0 => (if neg then 0 else f.infBits, 0)
    | 1 => if neg then invalid else (f.infBits, 0)
    | 2 => (f.sign neg, 0)
    | 3 => if neg then invalid else (0, 0)
    | 4 => if neg then invalid else (f.infBits, 0)
    | 5 => (f.sign neg + one, 0)
    | 6 => (if neg then 0 else one, 0)
    | _ => invalid
  | .fin neg m e =>
    if m = 0 then
      match fn with
      | 0 => (one, 0)
      | 1 => (f.sign true + f.infBits, 0)
      | 2 => (f.sign neg + f.infBits, 0)
      | 3 => (f.sign neg + f.infBits, 0)
      | 4 => (f.sign neg, 0)
      | 5 => (f.sign neg, 0)
      | 6 => ((f.bias - 1) * 2 ^ f.m, 0)
      | 7 => (f.sign neg, 0)
      | _ => (one, 0)
    else
      match fn with
      | 0 => sfnExp2 f x neg m e
      | 1 => if neg then invalid else sfnLog2 f x m e
      | 2 => sfnRcp f x neg m e
      | 3 => if neg then invalid else sfnRsq f x m e
      | 4 => if neg then invalid else sfnSqrt f m e
      | 5 => sfnTanh f x neg m e
      | 6 => sfnSigm f x neg m e
      | 7 => sfnCircle f false x neg m e
      | _ => sfnCircle f true x neg m e

end Sys2Proof.Machine
end

