-- ==== Sys2Proof/Machine/Vector.lean ====
section
/-! DEFINITION. The words of the vector engine (05 R140-R175). -/

namespace Sys2Proof.Machine

/-! ## Arithmetic (R156-R160) -/

/-- A word of R156 over two rows. -/
def laneWord (i : Instr) (o : LaneOp) (d a b : BitVec 6) (g t : BitVec 3) (s : State) : Host.Outcome State Fault Refusal :=
  elemWord i t.toNat g.toNat d [a, b] (fun k xs => k.op o (xs.getD 0 0) (xs.getD 1 0)) s

/-- A shift word (R158); PK16 as FP16 or BF16 raises OPERAND (R156). -/
def shiftWord (i : Instr) (o : ShiftOp) (d a b : BitVec 6) (g t : BitVec 3) (s : State) :
    Host.Outcome State Fault Refusal :=
  if t = 4 ∧ fld s.here.vec.vtype.toNat 4 2 ≠ 0 ∧ s.here.runner.isNone then
    engineWord .v i (trap .operand) s
  else elemWord i t.toNat g.toNat d [a, b] (fun k xs => k.shift o (xs.getD 0 0) (xs.getD 1 0)) s

/-- V.ADD (R156). -/
def execVAdd (d a b : BitVec 6) (g t : BitVec 3) (s : State) : Host.Outcome State Fault Refusal :=
  laneWord (.vAdd d a b g t) .add d a b g t s
/-- V.SUB (R156). -/
def execVSub (d a b : BitVec 6) (g t : BitVec 3) (s : State) : Host.Outcome State Fault Refusal :=
  laneWord (.vSub d a b g t) .sub d a b g t s
/-- V.MUL (R156). -/
def execVMul (d a b : BitVec 6) (g t : BitVec 3) (s : State) : Host.Outcome State Fault Refusal :=
  laneWord (.vMul d a b g t) .mul d a b g t s
/-- V.MIN (R156). -/
def execVMin (d a b : BitVec 6) (g t : BitVec 3) (s : State) : Host.Outcome State Fault Refusal :=
  laneWord (.vMin d a b g t) .min d a b g t s
/-- V.MAX (R156). -/
def execVMax (d a b : BitVec 6) (g t : BitVec 3) (s : State) : Host.Outcome State Fault Refusal :=
  laneWord (.vMax d a b g t) .max d a b g t s
/-- V.AND (R156). -/
def execVAnd (d a b : BitVec 6) (g t : BitVec 3) (s : State) : Host.Outcome State Fault Refusal :=
  laneWord (.vAnd d a b g t) .and d a b g t s
/-- V.OR (R156). -/
def execVOr (d a b : BitVec 6) (g t : BitVec 3) (s : State) : Host.Outcome State Fault Refusal :=
  laneWord (.vOr d a b g t) .or d a b g t s
/-- V.XOR (R156). -/
def execVXor (d a b : BitVec 6) (g t : BitVec 3) (s : State) : Host.Outcome State Fault Refusal :=
  laneWord (.vXor d a b g t) .xor d a b g t s
/-- V.SHL (R158). -/
def execVShl (d a b : BitVec 6) (g t : BitVec 3) (s : State) : Host.Outcome State Fault Refusal :=
  shiftWord (.vShl d a b g t) .shl d a b g t s
/-- V.SHR (R158). -/
def execVShr (d a b : BitVec 6) (g t : BitVec 3) (s : State) : Host.Outcome State Fault Refusal :=
  shiftWord (.vShr d a b g t) .shr d a b g t s
/-- V.SAR (R158). -/
def execVSar (d a b : BitVec 6) (g t : BitVec 3) (s : State) : Host.Outcome State Fault Refusal :=
  shiftWord (.vSar d a b g t) .sar d a b g t s
/-- V.ROL (R158). -/
def execVRol (d a b : BitVec 6) (g t : BitVec 3) (s : State) : Host.Outcome State Fault Refusal :=
  shiftWord (.vRol d a b g t) .rol d a b g t s

/-- A fused multiply-add under k.VTYPE and k.VGUARD as the engine holds them (R159). -/
def fusedWord (i : Instr) (neg : Bool) (d a b c : BitVec 6) (s : State) : Host.Outcome State Fault Refusal :=
  elemWord i (fld s.here.vec.vtype.toNat 0 3) s.here.vec.vguard.toNat d [a, b, c]
    (fun k xs => k.fused neg (xs.getD 0 0) (xs.getD 1 0) (xs.getD 2 0)) s

/-- V.FMA (R159). -/
def execVFma (d a b c : BitVec 6) (s : State) : Host.Outcome State Fault Refusal := fusedWord (.vFma d a b c) false d a b c s
/-- V.FMS (R159). -/
def execVFms (d a b c : BitVec 6) (s : State) : Host.Outcome State Fault Refusal := fusedWord (.vFms d a b c) true d a b c s

/-- V.ABS (R160). -/
def execVAbs (d a : BitVec 6) (g t : BitVec 3) (s : State) : Host.Outcome State Fault Refusal :=
  elemWord (.vAbs d a g t) t.toNat g.toNat d [a] (fun k xs => k.signed false (xs.getD 0 0)) s
/-- V.NEG (R160). -/
def execVNeg (d a : BitVec 6) (g t : BitVec 3) (s : State) : Host.Outcome State Fault Refusal :=
  elemWord (.vNeg d a g t) t.toNat g.toNat d [a] (fun k xs => k.signed true (xs.getD 0 0)) s

/-! ## Comparison, selection, copies (R161-R164) -/

/-- V.CMP (R161). -/
def execVCmp (c k : BitVec 3) (a b : BitVec 6) (g t : BitVec 3) (s : State) : Host.Outcome State Fault Refusal :=
  engineWord .v (.vCmp c k a b g t) (do
    vecCheck t.toNat [a, b] none
    let e := (← here).vec.env g.toNat
    let rows ← readSources [a, b]
    let el := elemOf t.toNat e.split e.pk16
    let lane := fun (r l : Nat) => occupied t.toNat e.split ((rows.getD r []).getD l 0)
    let p := ((List.range e.w).map fun l => if e.active l && el.cmp c.toNat (lane 0 l) (lane 1 l) then 2 ^ l else 0).sum
    onHere fun c => { c with vec := c.vec.setPred k.toNat (BitVec.ofNat 256 p) }) s

/-- V.SEL (R162). -/
def execVSel (d a b : BitVec 6) (q t : BitVec 3) (s : State) : Host.Outcome State Fault Refusal :=
  rowWord (.vSel d a b q t) t.toNat q.toNat d [a, b] (fun v gen rows =>
    { gen := gen
      lanes := (List.range v.w).map fun l =>
        if v.inUse l then
          some (occupied t.toNat v.split ((rows.getD (if v.guard.getLsbD l then 0 else 1) []).getD l 0))
        else none }) s

/-- V.MOV (R163). -/
def execVMov (d a : BitVec 6) (g t : BitVec 3) (s : State) : Host.Outcome State Fault Refusal :=
  rowWord (.vMov d a g t) t.toNat g.toNat d [a] (fun v gen rows =>
    eachLane v gen fun l => (occupied t.toNat v.split ((rows.getD 0 []).getD l 0), 0)) s

/-- V.LIT (R164): the destination is a v row, under the guard p0. -/
def execVLit (n : BitVec 5) (t : BitVec 3) (imm : BitVec 16) (s : State) : Host.Outcome State Fault Refusal :=
  rowWord (.vLit n t imm) t.toNat 0 (n.setWidth 6) [] (fun v gen _ =>
    eachLane v gen fun _ => (litLane t.toNat v.split imm.toNat, 0)) s

/-! ## Conversions and special functions (R165-R168) -/

/-- V.CVT (R165). -/
def execVCvt (d a : BitVec 6) (e r g t : BitVec 3) (s : State) : Host.Outcome State Fault Refusal :=
  if e = 6 ∧ s.here.vec.bind.split ∧ s.here.runner.isNone then engineWord .v (.vCvt d a e r g t) (trap .operand) s
  else
    rowWord (.vCvt d a e r g t) t.toNat g.toNat d [a] (fun v gen rows =>
      convertRow t.toNat e.toNat (Rnd.ofCode r.toNat) v gen (rows.getD 0 [])) s

/-- V.PACK (R166). -/
def execVPack (d a b : BitVec 6) (f t : BitVec 3) (s : State) : Host.Outcome State Fault Refusal :=
  rowWord (.vPack d a b f t) t.toNat 0 d (if f = 5 then [a] else [a, b]) (fun v gen rows =>
    packRow t.toNat f.toNat v gen (rows.getD 0 []) (rows.getD 1 [])) s

/-- V.UNPK (R167). -/
def execVUnpk (d a b : BitVec 6) (f t : BitVec 3) (s : State) : Host.Outcome State Fault Refusal :=
  rowWord (.vUnpk d a b f t) t.toNat 0 d (if f = 5 then [a] else [a, b]) (fun v gen rows =>
    unpackRow t.toNat f.toNat v gen (rows.getD 0 []) (rows.getD 1 [])) s

/-- V.SFN on one lane: FN computes in F40, an F80 operand rounded to it first and the result widened (R168). -/
def specialLane (t : Nat) (split : Bool) (fn x : Nat) : Nat × Flags :=
  if t = 2 then specialFn fmtFP32 fn (fld x 0 32)
  else if split then specialFn fmtF40 fn x
  else
    let a := fmtF40.round .rne 0 (fmtF80.decode x)
    let r := specialFn fmtF40 fn a.1
    ((fmtF80.round .rne 0 (fmtF40.decode r.1)).1, a.2 ||| r.2)

/-- V.SFN (R168). -/
def execVSfn (d a f : BitVec 6) (g t : BitVec 3) (s : State) : Host.Outcome State Fault Refusal :=
  rowWord (.vSfn d a f g t) t.toNat g.toNat d [a] (fun v gen rows =>
    eachLane v gen fun l => specialLane t.toNat v.split f.toNat ((rows.getD 0 []).getD l 0)) s

/-! ## Across lanes (R169-R172) -/

/-- V.RED (R169). -/
def execVRed (d a o : BitVec 6) (g t : BitVec 3) (s : State) : Host.Outcome State Fault Refusal :=
  rowWord (.vRed d a o g t) t.toNat g.toNat d [a] (fun v gen rows => reduceRow t.toNat o.toNat v gen (rows.getD 0 [])) s

/-- V.SCAN (R170). -/
def execVScan (d a o : BitVec 6) (g t : BitVec 3) (s : State) : Host.Outcome State Fault Refusal :=
  rowWord (.vScan d a o g t) t.toNat g.toNat d [a] (fun v gen rows => scanRow t.toNat o.toNat v gen (rows.getD 0 [])) s

/-- The index that lane l of a row holds (R171). -/
def indexAt (rows : List (List Nat)) (l : Nat) : Nat := fld ((rows.getD 1 []).getD l 0) 0 32

/-- V.PERM (R171). -/
def execVPerm (d a b : BitVec 6) (g t : BitVec 3) (s : State) : Host.Outcome State Fault Refusal :=
  rowWord (.vPerm d a b g t) t.toNat g.toNat d [a, b] (fun v gen rows =>
    moveLanes t.toNat v gen (rows.getD 0 []) fun l => indexAt rows l) s

/-- V.LROT (R171). -/
def execVLrot (d a b : BitVec 6) (g t : BitVec 3) (s : State) : Host.Outcome State Fault Refusal :=
  rowWord (.vLrot d a b g t) t.toNat g.toNat d [a, b] (fun v gen rows =>
    moveLanes t.toNat v gen (rows.getD 0 []) fun l => (l + indexAt rows 0) % v.w) s

/-- V.BCAST (R171). -/
def execVBcast (d a b : BitVec 6) (g t : BitVec 3) (s : State) : Host.Outcome State Fault Refusal :=
  rowWord (.vBcast d a b g t) t.toNat g.toNat d [a, b] (fun v gen rows =>
    moveLanes t.toNat v gen (rows.getD 0 []) fun _ => indexAt rows 0) s

/-- V.TOPK (R172). -/
def execVTopk (d a k : BitVec 6) (g t : BitVec 3) (s : State) : Host.Outcome State Fault Refusal :=
  rowWord (.vTopk d a k g t) t.toNat g.toNat d [a] (fun v gen rows => topRow t.toNat (k.toNat + 1) v gen (rows.getD 0 [])) s

/-! ## The binding window and predicates (R140, R147-R149) -/

/-- V.BIND (R140). -/
def execVBind (n : BitVec 5) (v : BitVec 3) (m : BitVec 5) (c : BitVec 3) (sp : Bool) (s : State) :
    Host.Outcome State Fault Refusal :=
  engineWord .v (.vBind n v m c sp) (onHere fun k =>
    let t := vtile n.toNat
    { k with
      vec := { k.vec with bind := { w := n.toNat, vb := 16 * v.toNat, t := m.toNat, cb := 16 * c.toNat, split := sp } }
      tiles := k.tiles.setInfo t { (k.tiles.infoAt t) with split := sp } }) s

/-- V.RRB SET (R149). -/
def execVRrbSet (n : BitVec 4) (s : State) : Host.Outcome State Fault Refusal :=
  engineWord .v (.vRrbSet n) (onHere fun c => { c with vec := { c.vec with rrb := n.toNat } }) s
/-- V.RRB ADD (R149). -/
def execVRrbAdd (n : BitVec 4) (s : State) : Host.Outcome State Fault Refusal :=
  engineWord .v (.vRrbAdd n) (onHere fun c => { c with vec := { c.vec with rrb := (c.vec.rrb + n.toNat) % 16 } }) s

/-- V.GUARD (R148). -/
def execVGuard (n : BitVec 3) (s : State) : Host.Outcome State Fault Refusal :=
  engineWord .v (.vGuard n) (onHere fun c => { c with vec := { c.vec with vguard := n } }) s

/-- A predicate word (R147). -/
def predWord (i : Instr) (d : BitVec 3) (f : Vec → BitVec 256) (s : State) : Host.Outcome State Fault Refusal :=
  engineWord .v i (onHere fun c => { c with vec := c.vec.setPred d.toNat (f c.vec) }) s

/-- V.PRED AND (R147). -/
def execVPredAnd (d a b : BitVec 3) (s : State) : Host.Outcome State Fault Refusal :=
  predWord (.vPredAnd d a b) d (fun v => v.pred a.toNat &&& v.pred b.toNat) s
/-- V.PRED OR (R147). -/
def execVPredOr (d a b : BitVec 3) (s : State) : Host.Outcome State Fault Refusal :=
  predWord (.vPredOr d a b) d (fun v => v.pred a.toNat ||| v.pred b.toNat) s
/-- V.PRED XOR (R147). -/
def execVPredXor (d a b : BitVec 3) (s : State) : Host.Outcome State Fault Refusal :=
  predWord (.vPredXor d a b) d (fun v => v.pred a.toNat ^^^ v.pred b.toNat) s
/-- V.PRED ANDN (R147). -/
def execVPredAndn (d a b : BitVec 3) (s : State) : Host.Outcome State Fault Refusal :=
  predWord (.vPredAndn d a b) d (fun v => v.pred a.toNat &&& ~~~(v.pred b.toNat)) s
/-- V.PRED NOT (R147). -/
def execVPredNot (d a : BitVec 3) (s : State) : Host.Outcome State Fault Refusal :=
  predWord (.vPredNot d a) d (fun v => ~~~(v.pred a.toNat)) s
/-- V.PRED FIRST (R147). -/
def execVPredFirst (d : BitVec 3) (n : BitVec 12) (s : State) : Host.Outcome State Fault Refusal :=
  predWord (.vPredFirst d n) d (fun _ => BitVec.ofNat 256 (2 ^ n.toNat - 1)) s
/-- V.PRED LANE (R147). -/
def execVPredLane (d : BitVec 3) (n : BitVec 12) (s : State) : Host.Outcome State Fault Refusal :=
  predWord (.vPredLane d n) d (fun _ => BitVec.ofNat 256 (2 ^ n.toNat)) s

/-! ## Ports (R151) -/

/-- V.PORT bind (R151): a port already bound is unbound first. -/
def bindWord (i : Instr) (p : BitVec 2) (h : BitVec 4) (write : Bool) (s : State) : Host.Outcome State Fault Refusal :=
  engineWord .v i (do
    portTurn .v (← vecWalk) p.toNat
    let c ← here
    match c.vec.handles.getD h.toNat none with
    | none => trap .operand
    | some q =>
      trapIf (!portOk (c.vec.words.getD p.toNat 0) q.geom) .operand
      unbindPort p.toNat
      setPort p.toNat (some { h := h.toNat, q := q, write := write })) s

/-- V.PORT READ (R151). -/
def execVPortRead (p : BitVec 2) (h : BitVec 4) (s : State) : Host.Outcome State Fault Refusal :=
  bindWord (.vPortRead p h) p h false s
/-- V.PORT WRITE (R151). -/
def execVPortWrite (p : BitVec 2) (h : BitVec 4) (s : State) : Host.Outcome State Fault Refusal :=
  bindWord (.vPortWrite p h) p h true s
/-- V.PORT UNBIND (R151). -/
def execVPortUnbind (p : BitVec 2) (s : State) : Host.Outcome State Fault Refusal :=
  engineWord .v (.vPortUnbind p) (unbindPort p.toNat) s

/-! ## Nests (02 R45, R154, R155) -/

/-- The words of a nest's body, as the text holds them; the engine waits while they cannot be read. -/
def nestBody (e : Engine) (n : Nat) : M (List (BitVec 32)) := do
  let a := ((← here).at_ e).2
  tryCatch (nestText a n) fun _ => await

/-- A nest word of engine e (02 R45): the body is checked, and the first step stands ready. With no step the engine goes on
behind the body; a matrix nest first pops at its body words what they pop (06 R198). -/
def nestWord (e : Engine) (i : Instr) (b : BitVec 6) (set : BitVec 3) (stages : Nat) (s : State) :
    Host.Outcome State Fault Refusal :=
  finish e s ((do
    engineReady e i
    let body ← nestBody e (b.toNat + 1)
    trapIf (body.any (badBody e)) .illword
    let c ← here
    let loops := match e with | .v => c.vec.loops | .m => c.mat.loops | _ => c.cpy.loops
    let t := (loops.getD set.toNat {}).trips
    let now := (← get).stamp
    if t = 0 ∧ e ≠ Engine.m then
      onHere fun c =>
        let k := c.ctr e
        ({ c with lastIssue := now }).goTo e (k.walk + 1 + body.length) (k.addr + word (4 * (1 + body.length)))
    else
      let n : Nest := { set := set.toNat, stages := stages, body := body, trips := t
                        steps := if stages = 0 then max 1 t else t + stages - 1, iter := 0, pos := 0, rrb := c.vec.rrb, caps := [] }
      onHere fun c =>
        let c := { c with lastIssue := now }.setNest e (some n)
        if e == Engine.v then c.nestStep n 0 else c).run s)

/-- V.NEST (R154, R155). -/
def execVNest (b : BitVec 6) (l st : BitVec 3) (s : State) : Host.Outcome State Fault Refusal :=
  nestWord .v (.vNest b l st) b l st.toNat s

/-! ## Values back to the scalar engine, seals (R173-R175) -/

/-- A lane as V.TOS drops it (R173). -/
def tosItem (t : Nat) (split : Bool) (x : Nat) : Word × Flags :=
  match t with
  | 0 =>
    let r := fmtFP32.round .rne 0 ((if split then fmtF40 else fmtF80).decode x)
    (word r.1, r.2)
  | 1 =>
    let r := saturate (-(2 ^ 63)) (2 ^ 63 - 1) (sext (laneBits split) x)
    (BitVec.ofInt 64 r.1, r.2)
  | 2 => (word (fld x 0 32), 0)
  | 3 => (BitVec.ofInt 64 (sext 32 x), 0)
  | 6 => (word (fld x 0 64), 0)
  | _ => (word (fld x 0 (if split then 32 else 64)), 0)

/-- V.TOS (R173). -/
def execVTos (a : BitVec 6) (l : BitVec 8) (t : BitVec 3) (s : State) : Host.Outcome State Fault Refusal :=
  returnWord .v (.vTos a l t) (do
    vecCheck t.toNat [a] none
    let v := (← here).vec
    let e := v.env 0
    trapIf (decide (e.w ≤ l.toNat)) .operand
    let row ← readLanes a
    if e.vlen ≤ l.toNat then return 0
    else
      let r := tosItem t.toNat e.split (row.getD l.toNat 0)
      onTiles fun x => x.merge (vtile v.bind.w) r.2
      return r.1) s

/-- A tile's status word (03 Table 40). -/
def statusOf (t : Tiles) (tile : Nat) : Word := ((t.infoAt tile).status).setWidth 64

/-- A status word is read and the bits of a mask are cleared (R174, 06 R206). -/
def clearStatus (tile : Nat) (m : BitVec 6) : M Word := do
  let v := statusOf (← here).tiles tile
  onTiles fun t => t.setInfo tile { (t.infoAt tile) with status := (t.infoAt tile).status &&& ~~~m }
  return v

/-- V.STAT STAT (R174). -/
def execVStatStat (n : BitVec 5) (s : State) : Host.Outcome State Fault Refusal :=
  returnWord .v (.vStatStat n) (do return statusOf (← here).tiles (vtile n.toNat)) s
/-- V.STAT CLEAR (R174). -/
def execVStatClear (n : BitVec 5) (m : BitVec 6) (s : State) : Host.Outcome State Fault Refusal :=
  returnWord .v (.vStatClear n m) (clearStatus (vtile n.toNat) m) s
/-- V.STAT ENG (R174). -/
def execVStatEng (s : State) : Host.Outcome State Fault Refusal :=
  returnWord .v .vStatEng (do let v := (← here).vec; return word (v.vguard.toNat * 16 + v.rrb)) s
/-- V.STAT PRED (R174). -/
def execVStatPred (p : BitVec 3) (q : BitVec 2) (s : State) : Host.Outcome State Fault Refusal :=
  returnWord .v (.vStatPred p q) (do return ((← here).vec.pred p.toNat).extractLsb' (64 * q.toNat) 64) s
/-- V.STAT BIND (R174). -/
def execVStatBind (s : State) : Host.Outcome State Fault Refusal :=
  returnWord .v .vStatBind (do
    let b := (← here).vec.bind
    return word (b.w * 2 ^ 12 + b.vb / 16 * 2 ^ 9 + b.t * 2 ^ 4 + b.cb / 16 * 2 + b.split.toNat)) s

/-- V.GIVE (R175). -/
def execVGive (p : BitVec 2) (n : BitVec 4) (s : State) : Host.Outcome State Fault Refusal :=
  engineWord .v (.vGive p n) (giveSeals .v (engineOf p) n.toNat) s
/-- V.TAKE (R175). -/
def execVTake (p : BitVec 2) (n : BitVec 4) (s : State) : Host.Outcome State Fault Refusal :=
  engineWord .v (.vTake p n) (takeSeals .v (engineOf p) n.toNat) s

end Sys2Proof.Machine
end

