-- ==== Sys2Proof/Machine/Matrix.lean ====
section
/-! DEFINITION. Matrix words (chapter 06): products with stamps, tolls and assay, tile transfers, nests, the command window,
status; the toll arbiter and the refills. -/

namespace Sys2Proof.Machine

/-! ## Tolls (R188-R191) -/

/-- The current core asks its bucket's arbiter for n tolls and waits (R190). -/
def askTolls {α : Type} (n : Nat) (resv : Bool) : M α := do
  modify fun (s : State) =>
    let b := s.bucket (clusterOf s.cur)
    let s := s.setBucket (clusterOf s.cur)
      { b with waiting := b.waiting ++ [{ core := s.cur, toll := n, resv := resv, since := s.stamp }] }
    let c := s.here
    s.setHere { c with mat := { c.mat with asked := some (n, s.stamp) } }
  throw .waitWith

/-- A reservation returned at a stop is asked for again before the engine issues (R191). -/
def repayOwed : M PUnit := do
  let c ← here
  if c.mat.owed ≠ 0 then
    needs c.mat.asked.isNone
    askTolls c.mat.owed true

/-- The arbiter's order (R190): words that have waited 4,096 ticks, oldest first; then lowest toll, oldest, lowest core. -/
def TollReq.before (now : Nat) (a b : TollReq) : Bool :=
  let x := decide (4096 ≤ now - a.since)
  let y := decide (4096 ≤ now - b.since)
  if x != y then x
  else if x && a.since != b.since then decide (a.since < b.since)
  else if a.toll ≠ b.toll then decide (a.toll < b.toll)
  else if a.since ≠ b.since then decide (a.since < b.since)
  else decide (a.core < b.core)

/-- The first request in the arbiter's order. -/
def firstReq (now : Nat) : List TollReq → Option TollReq
  | [] => none
  | a :: l => match firstReq now l with
    | none => some a
    | some b => if b.before now a then some b else some a

/-- What a grant changes on the core: a reservation grows, or the waiting word is admitted (R190, R191). The toll last charged
is then n, also for M.TOLL and for a reservation asked for again (log 48). -/
def Mat.granted (m : Mat) (r : TollReq) : Mat :=
  let m := { m with asked := none, toll := r.toll }
  if r.resv then
    if m.owed ≠ 0 then { m with resv := m.resv + r.toll, owed := 0 }
    else { m with resv := m.resv + r.toll, paid := some 0 }
  else { m with paid := some r.toll }

/-- TOLL_GRANT (R190): the arbiter of a cluster's bucket grants the first request if it fits. -/
def execTollGrant (cluster : Nat) (s : State) : Host.Outcome State Fault Refusal :=
  let b := s.bucket cluster
  match firstReq s.stamp b.waiting with
  | none => idle s
  | some r =>
    if (r.toll : Int) ≤ b.level ∨ (b.level = b.cap ∧ b.cap < r.toll) then
      let s := s.setBucket cluster { b with level := b.level - r.toll, waiting := b.waiting.filter (·.core != r.core) }
      let c := s.core r.core
      did (s.setCore r.core { c with mat := c.mat.granted r })
    else idle s

/-- TOLL_REFILL (R188, 10 R310): one refill of every crew and stack bucket, due at each multiple of 16 stamp ticks. -/
def execTollRefill (s : State) : Host.Outcome State Fault Refusal :=
  if s.stamp / 16 ≤ s.banks.refilled then idle s
  else
    let up := fun (level : Int) (cap rate : Nat) => min (cap : Int) (level + rate)
    let buckets := s.buckets.map fun (p : Nat × Bucket) => (p.1, { p.2 with level := up p.2.level p.2.cap p.2.rate })
    let tab := s.banks.stackTab.map fun (p : Nat × Stack) => (p.1, { p.2 with level := up p.2.level p.2.cap p.2.rate })
    let banks := { s.banks with stackTab := tab, refilled := s.banks.refilled + 1 }
    did { s with buckets := buckets, banks := banks }

/-! ## Issuing (R179, R194) -/

/-- The engine is free (R179), and its reservation stands. -/
def matReady : M PUnit := do
  repayOwed
  let s : State ← get
  needs (decide (s.here.mat.busy ≤ s.stamp))

/-- The engine is occupied for n clocks of 1.6 GHz (R179, log 8). -/
def occupy (n : Nat) : M PUnit := do
  let now := (← get).stamp
  onHere fun c => { c with mat := { c.mat with busy := now + ceilDiv n 2 } }

/-- Entries put behind a window: the 257th closes it (R203). The words of a nest iteration are one entry. -/
def Mat.append (m : Mat) (es : List WinEntry) : Mat :=
  match m.win, es with
  | some w, e :: rest =>
    if w.closed then m
    else if 256 ≤ (w.entries.filter fun x => !x.cont).length then { m with win := some { w with closed := true } }
    else
      let new := { e with cont := false } :: rest.map fun x => { x with cont := true }
      { m with win := some { w with entries := w.entries ++ new } }
  | _, _ => m

/-- A word enters the window, with the generator state at a tile-start (R203); in a nest it waits for the iteration's end. -/
def Mat.enter (m : Mat) (e : WinEntry) (start : Option (BitVec 64)) : Mat :=
  match m.nest, start with
  | none, none => m.append [e]
  | none, some g => { m with win := some { gen := g, closed := false, entries := [e] } }
  | some n, none => { m with nest := some { n with win := n.win ++ [e] } }
  | some n, some g => { m with nest := some { n with win := n.win ++ [e], mark := some (n.win.length, g) } }

/-- The end of a nest iteration: its words enter as one entry, after the marker if iteration 0 had a tile-start (R203). One
without a product word counts for the assay interval here (R200). -/
def Mat.endIteration (m : Mat) : Mat :=
  match m.nest with
  | none => m
  | some n =>
    if n.pos + 1 < n.body.length then m
    else
      let m := { m with nest := some { n with win := [], mark := none }
                        count := if n.trips = 0 ∨ n.body.any isProduct then m.count else m.count + 1 }
      match n.mark with
      | none => m.append n.win
      | some (k, g) => ({ m with win := some { gen := g, closed := false, entries := [] } } : Mat).append (n.win.drop k)

/-- The matrix engine retires its word. -/
def matDone : M PUnit := do
  let now := (← get).stamp
  onHere fun c => ({ c with mat := c.mat.endIteration } : Core).engineDone .m now

/-- A matrix word that occupies the engine for n clocks. -/
def matWord (i : Instr) (n : Nat) (body : M PUnit) (s : State) : Host.Outcome State Fault Refusal :=
  finish .m s ((do
    engineReady .m i
    matReady
    body
    occupy n
    matDone).run s)

/-! ## Queues and captures (02 R38, R39, R46) -/

/-- The walk index of the word at the matrix counter, whether it stands at a nest's first iteration, what the nest holds for
it and charges for it (06 R189), and the base advance of its iteration (R198). -/
def Core.matWalk (c : Core) : Nat := (c.at_ .m).1
def Core.matFirst (c : Core) : Bool := c.mat.nest.all fun n => n.iter == 0
def Core.matCaps (c : Core) : List Word :=
  match c.mat.nest with
  | some n => ((n.caps.find? fun p => p.1 == n.pos).map (·.2)).getD []
  | none => []
def Core.matToll (c : Core) : Option Nat :=
  match c.mat.nest with
  | some n => if n.iter = 0 then none else (n.tolls.find? fun p => p.1 == n.pos).map (·.2)
  | none => none
def Core.matDelta (c : Core) : Int :=
  match c.mat.nest with
  | some n => (c.mat.loops.getD n.set {}).offset n.iter
  | none => 0

/-- The oldest value of a queue, produced below walk index w (02 R39). -/
def oldest (q : List Handed) (w : Nat) : M Word :=
  match q with
  | h :: _ => if h.walk < w then pure h.val else trap .fmtempty
  | [] => trap .fmtempty

/-- A format word is popped (02 R39). -/
def popFmt (w : Nat) : M Word := do
  let v ← oldest (← here).hand.fmtq w
  onHere fun c => { c with hand := { c.hand with fmtq := c.hand.fmtq.drop 1 } }
  return v

/-- A stamp is popped (02 R39). -/
def popStamp (w : Nat) : M Word := do
  let v ← oldest (← here).hand.stampq w
  onHere fun c => { c with hand := { c.hand with stampq := c.hand.stampq.drop 1 } }
  return v

/-- Whether a matrix word has captures (02 R38). -/
def hasCaptures : Instr → Bool
  | .mMma k _ j _ _ _ _ _ => k == 1 || j == 1
  | .mMmv k _ j _ _ _ _ _ => k == 1 || j == 1
  | .mMmas .. => true
  | .mLoadDesc .. => true
  | .mDrainDesc .. => true
  | _ => false

/-- The captures of the word at walk index w leave the descriptor queue, when it has any; a position never written raises
OPERAND (02 R38). -/
def popCaps (has : Bool) (w : Nat) : M (List Word) := do
  if !has then return []
  else
    match (← here).hand.descq.find? fun x => x.walk == w with
    | none => await
    | some x =>
      trapIf (x.items.any (·.isNone)) .operand
      onHere fun c => { c with hand := { c.hand with descq := c.hand.descq.filter (·.walk != w) } }
      return x.items.filterMap id

/-- What a nest's word popped at the first iteration is kept for the others (02 R46). -/
def keepCaps (ws : List Word) (toll : Nat) : M PUnit :=
  onHere fun c => match c.mat.nest with
    | some n =>
      if n.iter = 0 then
        { c with mat := { c.mat with nest := some { n with caps := (n.pos, ws) :: n.caps, tolls := (n.pos, toll) :: n.tolls } } }
      else c
    | none => c

/-- The captures that serve a word which pops no format word. -/
def servedCaps (i : Instr) : M (List Word) := do
  let c ← here
  if c.matFirst then
    let ws ← popCaps (hasCaptures i) c.matWalk
    keepCaps ws 0
    return ws
  else return c.matCaps

/-! ## Product words (R192, R193) -/

/-- The checks of R177-R184 and R187 that raise OPERAND. -/
def Prod.refused (p : Prod) (c : Core) : Bool :=
  let t := c.tiles
  let side := fun (kind n room kb count : Nat) (caps : List Word) (plane : Bool) =>
    if kind = 0 then decide (room < kb) || plane && n == 24
    else if kind = 1 then
      match descOf caps p.delta plane with
      | some d => !d.fits count kb p.f.kext plane
      | none => true
    else
      match c.vec.ports.getD n none with
      | some x =>
        let w := c.vec.words.getD n 0
        x.write || !portOk w x.q.geom || decide (portLen w < kb)
      | none => true
  !p.f.pairOk || (!p.zero && (t.infoAt p.t).split != p.f.split)
    || side p.k p.a 1280 p.kbA 128 p.capA p.f.planeA
    || side p.j p.b (if p.f.split then 640 else 1280) p.kbB p.cols p.capB p.f.planeB
    || (p.kind == .mmas &&
      (p.sideAt % 8 != 0 || decide (98304 < p.sideAt + 512 * p.f.kext)
        || (p.nibs t).any fun ns => ns.any fun n => decide (n / 4 ≤ n % 4)))

/-- An operand from a port: its rows, then its packed scales (R181, R183). -/
def portOperand (w n count kb kext : Nat) (plane : Bool) : M Operand := do
  let len := portLen (← portAt n).2
  let rows ← (List.range count).mapM fun _ => popBytes .m w n
  let more ← (List.range (if plane then ceilDiv (count * kext) len else 0)).mapM fun _ => popBytes .m w n
  let packed := (more.map (·.1)).flatten
  let scales := if plane then (List.range count).map fun i => (packed.drop (i * kext)).take kext else []
  return Operand.make (rows.map fun r => r.1.take kb) scales ((rows ++ more).filterMap (·.2))

/-- An operand of any kind; reads of scratchpad are MR accesses of class o0 (R194). -/
def fetchOperand (w kind n : Nat) (caps : List Word) (delta : Int) (count kb kext : Nat) (plane : Bool) : M Operand := do
  if kind = 2 then portOperand w n count kb kext plane
  else
    match descOf caps delta plane with
    | some d =>
      if kind = 1 then
        for p in d.parts count kb kext plane do
          let loc := padLoc (clusterOf (← get).cur) p.1
          engineMayGo .m w 0 loc p.2 { mr := true }
          passHome loc p.2
    | none => pure ()
    let s : State ← get
    match s.operandAt kind n caps delta count kb kext plane with
    | some x => return x
    | none => trap .operand

/-- What faulty cells make of containers computed with the rows of A shifted by o (R202, log 20). -/
def struck (cells : List (Nat × Nat)) (split : Bool) (o n : Nat) (rows : List (List Nat)) : List (List Nat) :=
  if cells.isEmpty then rows
  else
    rows.zipIdx.map fun (row, i) => row.zipIdx.map fun (x, j) =>
      if cells.contains ((i + o) % 128, j / (if split then 4 else 2)) then Config.cellFault n i j x % 2 ^ laneBits split else x

/-- The containers in which two computations differ, rows ascending. -/
def differing (x y : List (List Nat)) : List (Nat × Nat) :=
  (x.zip y).zipIdx.flatMap fun (r, i) => (r.1.zip r.2).zipIdx.filterMap fun (c, j) =>
    if c.1 = c.2 then none else some (i, j)

/-- The assay record (Table 69). -/
def assayRecord (o : Nat) (ds : List (Nat × Nat)) : Word :=
  let d := ds.headD (0, 0)
  word (2 ^ 63 + o * 2 ^ 56 + d.1 * 2 ^ 40 + d.2 * 2 ^ 32 + min ds.length 0xFFFFFFFF)

/-- The next assay offset (R202). -/
def nextOffset (o : Nat) : Nat := o % 127 + 1

/-- A mismatch found by an assay: the surviving effects on the state before the word, then ASSAY (R202). -/
def assayFails {α : Type} (s0 : State) (fresh t o : Nat) (ds : List (Nat × Nat)) : M α := do
  let c := s0.here
  let s := s0.setHere { c with
    tiles := c.tiles.merge t flagAssay
    mat := { c.mat with record := assayRecord o ds, off := nextOffset o, paid := none } }
  set { s with fresh := fresh }
  throw (.trapAfter { cause := .assay })

/-- The toll is paid: from the reservation at once, or through the arbiter (R190). It is charged on the state s0 before the
word's pops. -/
def admitted (s0 : State) (toll : Nat) : M PUnit := do
  let m := s0.here.mat
  match m.paid with
  | some _ => pure ()
  | none =>
    needs m.asked.isNone
    set s0
    if toll ≤ m.resv then
      onHere fun c => { c with mat := { c.mat with resv := c.mat.resv - toll, paid := some toll, toll := toll } }
      throw .waitWith
    else askTolls toll false

/-- A format word is popped and checked (02 R39, R53). -/
def popChecked (w : Nat) : M Word := do
  let v ← popFmt w
  trapIf (fld v.toNat 0 26 != 0) .resbits
  trapIf (Fmt.of v).bad .operand
  return v

/-- What a product word pops: its format word, its stamp, its captures (02 R38, R39, R46, R53). -/
def productPops (i : Instr) (st : Bool) : M (Word × Word × List Word) := do
  let c ← here
  let w := c.matWalk
  let fmt ← if c.matFirst then popChecked w else pure (c.matCaps.headD 0)
  let stamp ← if st then popStamp w else pure 0
  let caps ← if c.matFirst then popCaps (hasCaptures i) w else pure (c.matCaps.drop 1)
  return (fmt, stamp, caps)

/-- X.META executes whole with respect to each M.MMAS (07 R241): one has begun and is not done. -/
def Core.metaUnderWay (c : Core) : Bool :=
  c.cpy.runs.any fun r => decide (0 < r.unit) && (match r.word with | .xMeta .. => true | _ => false)

/-- Whether a product word of a nest is the first of its iteration: an iteration counts as one for the assay interval (R200,
log 48). -/
def Mat.counts (m : Mat) : Bool := m.nest.all fun n => !(n.body.take n.pos).any isProduct

/-- A product word (R193). -/
def productWord (i : Instr) (z st p : Bool) (s : State) : Host.Outcome State Fault Refusal :=
  finish .m s ((do
    engineReady .m i
    repayOwed
    let s0 : State ← get
    let c := s0.here
    let w := c.matWalk
    let now := s0.stamp
    let (fmt, stamp, caps) ← productPops i st
    match prodOf i fmt caps (z && c.matFirst) c.matDelta with
    | none => trap .operand
    | some x =>
      needs (x.kind != ProdKind.mmas || !c.metaUnderWay)
      trapIf (x.refused c || (st && !c.mat.pin)) .operand
      let timed := st && !c.mat.release
      trapIf (timed && decide (stamp.toNat < now)) .schedmiss
      let a ← fetchOperand w x.k x.a x.capA x.delta 128 x.kbA x.f.kext x.f.planeA
      let b ← fetchOperand w x.j x.b x.capB x.delta x.cols x.kbB x.f.kext x.f.planeB
      let assay := c.mat.assayNext || (c.mat.counts && c.mat.assayN != 0 && (c.mat.count + 1) % c.mat.assayN == 0)
      let kept := c.matToll
      let toll := kept.getD (x.toll assay a b)
      admitted s0 toll
      needs (decide (c.mat.busy ≤ now) && (!timed || decide (stamp.toNat = now)))
      let bad := a.bad ++ b.bad
      trapIf (bad.contains .hallmark) .hallmark
      trapIf (bad.contains .uncorr || x.kind == ProdKind.mmas && c.tiles.sideBad.any fun o =>
        decide (x.sideAt ≤ o) && decide (o < x.sideAt + 512 * x.f.kext)) .uncorr
      if !x.zero then readTile x.t fun _ => true
      let t := (← here).tiles
      let nibs := x.nibs t
      let r := x.result a b nibs (x.oldRows t) c.mat.gen
      let n ← if c.badCells.isEmpty then pure 0 else freshNat
      let one := struck c.badCells x.f.split 0 n r.1
      if assay then
        let m ← if c.badCells.isEmpty then pure 0 else freshNat
        let ds := differing one (struck c.badCells x.f.split c.mat.off m r.1)
        if !ds.isEmpty then assayFails s0 (← get).fresh x.t c.mat.off ds
      let start := p && c.matFirst
      let digest := if c.mat.win.isSome || start || c.mat.nest.isSome then Prod.digest a b nibs else 0
      let e : WinEntry := {
        word := i, fmt := fmt, caps := caps, digest := digest, zero := x.zero, delta := x.delta, toll := toll, cont := false }
      keepCaps (fmt :: caps) toll
      onHere fun c => { c with
        tiles := x.store c.tiles one r.2.1
        mat := ({ c.mat with
          gen := r.2.2
          count := if c.mat.counts then c.mat.count + 1 else c.mat.count
          off := if assay then nextOffset c.mat.off else c.mat.off
          assayNext := false
          paid := none
          release := false } : Mat).enter e (if start then some c.mat.gen else none) }
      occupy (x.clocks assay)
      matDone).run s)

/-- M.MMA (R192, R193). -/
def execMMma (k : BitVec 2) (a : BitVec 5) (j : BitVec 2) (b t : BitVec 5) (z st p : Bool) (s : State) :
    Host.Outcome State Fault Refusal := productWord (.mMma k a j b t z st p) z st p s
/-- M.MMAS (R192, R193). -/
def execMMmas (k : BitVec 2) (a : BitVec 5) (j : BitVec 2) (b t : BitVec 5) (z st p : Bool) (s : State) :
    Host.Outcome State Fault Refusal := productWord (.mMmas k a j b t z st p) z st p s
/-- M.MMV (R192, R193). -/
def execMMmv (k : BitVec 2) (a : BitVec 5) (j : BitVec 2) (b t : BitVec 5) (z st p : Bool) (s : State) :
    Host.Outcome State Fault Refusal := productWord (.mMmv k a j b t z st p) z st p s

/-! ## Tile transfers (R195-R197) -/

/-- A word of the window that forms no product. -/
def plainEntry (i : Instr) (caps : List Word) (delta : Int) (bytes : List Byte) : M PUnit :=
  onHere fun c =>
    let digest := if c.mat.win.isSome || c.mat.nest.isSome then digestOf bytes else 0
    let e : WinEntry := {
      word := i, fmt := 0, caps := caps, digest := digest, zero := false, delta := delta, toll := 0, cont := false }
    { c with mat := c.mat.enter e none }

/-- The rows of a tile. -/
def Tiles.rowsOf (t : Tiles) (tile : Nat) : List Row := (List.range 128).map fun r => t.rowAt tile r

/-- Tile d gets the rows and the mode of tile a, and its status word ORed into its own (R196). -/
def Tiles.copyTile (t : Tiles) (a d : Nat) : Tiles :=
  let x := ((List.range 128).zip (t.rowsOf a)).foldl (fun (u : Tiles) r => u.setRow d r.1 r.2) (t.zero d)
  x.setInfo d { split := (t.infoAt a).split, status := (t.infoAt d).status ||| (t.infoAt a).status }

/-- Tiles a and d exchange contents, modes and status words (R197). -/
def Tiles.swapTile (t : Tiles) (a d : Nat) : Tiles :=
  let put := fun (u : Tiles) (x : Nat) (rows : List Row) (i : TileMeta) =>
    (((List.range 128).zip rows).foldl (fun (v : Tiles) r => v.setRow x r.1 r.2) (u.zero x)).setInfo x i
  put (put t a (t.rowsOf d) (t.infoAt d)) d (t.rowsOf a) (t.infoAt a)

/-- M.ZERO (R195). -/
def execMZero (n : BitVec 5) (sp : Bool) (s : State) : Host.Outcome State Fault Refusal :=
  matWord (.mZero n sp) 72 (do
    onTiles fun t => (t.zero n.toNat).setInfo n.toNat { (t.infoAt n.toNat) with split := sp }
    plainEntry (.mZero n sp) [] 0 []) s

/-- M.LOAD from a vector tile (R196). -/
def execMLoadTile (n m : BitVec 5) (s : State) : Host.Outcome State Fault Refusal :=
  matWord (.mLoadTile n m) 136 (do
    let v := vtile m.toNat
    readTile v fun _ => true
    let rows := (← here).tiles.rowsOf v
    onTiles fun t => t.copyTile v n.toNat
    plainEntry (.mLoadTile n m) [] 0 (rows.map rowBytes).flatten) s

/-- The checked descriptor of M.LOAD and M.DRAIN (R182, R196). -/
def rowDesc (caps : List Word) (delta : Int) : M Desc :=
  match descOf caps delta false with
  | some d => if d.fits 128 1280 0 false then pure d else trap .operand
  | none => trap .operand

/-- M.LOAD from a descriptor (R196). -/
def execMLoadDesc (n k : BitVec 5) (sp : Bool) (cls : BitVec 4) (s : State) : Host.Outcome State Fault Refusal :=
  matWord (.mLoadDesc n k sp cls) 136 (do
    let c ← here
    let caps ← servedCaps (.mLoadDesc n k sp cls)
    let d ← rowDesc caps c.matDelta
    let locs := d.rows.map fun o => padLoc (clusterOf s.cur) o
    for l in locs do
      engineMayGo .m c.matWalk cls.toNat l 1280 { mr := true }
      passHome l 1280
    let s : State ← get
    let bad := locs.filterMap fun l => s.verify l 1280
    trapIf (bad.contains .hallmark) .hallmark
    trapIf (bad.contains .uncorr) .uncorr
    let rows := locs.map fun l => s.bytes l 1280
    onTiles fun t => ((t.zero n.toNat).fill n.toNat rows).setInfo n.toNat { (t.infoAt n.toNat) with split := sp }
    plainEntry (.mLoadDesc n k sp cls) caps c.matDelta rows.flatten) s

/-- M.DRAIN to a vector tile (R196). -/
def execMDrainTile (n m : BitVec 5) (z : Bool) (s : State) : Host.Outcome State Fault Refusal :=
  matWord (.mDrainTile n m z) 136 (do
    readTile n.toNat fun _ => true
    let rows := (← here).tiles.rowsOf n.toNat
    onTiles fun t =>
      let t := t.copyTile n.toNat (vtile m.toNat)
      if z then t.zero n.toNat else t
    plainEntry (.mDrainTile n m z) [] 0 (rows.map rowBytes).flatten) s

/-- M.DRAIN to a descriptor (R196): its rows wait in the request path. Each grain's hallmark is then set as R417 (14) has it: a bad
grain that a row covers in part stays bad, where R196 alone says that every grain touched is hallmarked (log 48). -/
def execMDrainDesc (n k : BitVec 5) (cls : BitVec 4) (z : Bool) (s : State) : Host.Outcome State Fault Refusal :=
  matWord (.mDrainDesc n k cls z) 136 (do
    let c ← here
    let caps ← servedCaps (.mDrainDesc n k cls z)
    let d ← rowDesc caps c.matDelta
    readTile n.toNat fun _ => true
    let rows := (← here).tiles.rowsOf n.toNat
    for p in d.rows.zip rows do
      writeLater (← engineAcc .m c.matWalk cls.toNat (padLoc (clusterOf s.cur) p.1) 1280 { mw := true }) (rowBytes p.2)
    if z then onTiles fun t => t.zero n.toNat
    plainEntry (.mDrainDesc n k cls z) caps c.matDelta (rows.map rowBytes).flatten) s

/-- M.SWAP (R197). -/
def execMSwap (n m : BitVec 5) (s : State) : Host.Outcome State Fault Refusal :=
  matWord (.mSwap n m) 136 (do
    readTile n.toNat fun _ => true
    readTile (vtile m.toNat) fun _ => true
    onTiles fun t => t.swapTile n.toNat (vtile m.toNat)
    plainEntry (.mSwap n m) [] 0 []) s

/-! ## Nests, seals, markers (R198, R199, R201, R203) -/

/-- A body word of a nest without iterations: its format word and captures are popped, and nothing else happens (R198). -/
def popWord (w : BitVec 32) (s : State) : Host.Outcome State Fault Refusal :=
  finish .m s ((do
    let c ← here
    taskReady c
    needs (!c.mat.ctr.stop && c.mat.ctr.next.isNone && c.stands c.matWalk)
    let _ ← if isProduct w then popChecked c.matWalk else pure 0
    let _ ← popCaps (!(captureOf w).isEmpty) c.matWalk
    matDone).run s)

/-- M.NEST (R198). -/
def execMNest (b : BitVec 6) (l : BitVec 3) (s : State) : Host.Outcome State Fault Refusal :=
  nestWord .m (.mNest b l) b l 0 s

/-- M.GIVE (R199). -/
def execMGive (p : BitVec 2) (n : BitVec 4) (s : State) : Host.Outcome State Fault Refusal :=
  matWord (.mGive p n) 1 (giveSeals .m (engineOf p) n.toNat) s
/-- M.TAKE (R199). -/
def execMTake (p : BitVec 2) (n : BitVec 4) (s : State) : Host.Outcome State Fault Refusal :=
  matWord (.mTake p n) 1 (takeSeals .m (engineOf p) n.toNat) s

/-- M.TOLL (R191): the word waits in the arbiter, and its grant grows the reservation. -/
def execMToll (n : BitVec 20) (s : State) : Host.Outcome State Fault Refusal :=
  matWord (.mToll n) 1 (do
    let c ← here
    if c.mat.paid = some 0 then onHere fun c => { c with mat := { c.mat with paid := none } }
    else
      needs c.mat.asked.isNone
      askTolls n.toNat true) s

/-- M.ASSAY (R201). -/
def execMAssay (s : State) : Host.Outcome State Fault Refusal :=
  matWord .mAssay 1 (onHere fun c => { c with mat := { c.mat with assayNext := true } }) s

/-- M.START (R203). -/
def execMStart (s : State) : Host.Outcome State Fault Refusal :=
  matWord .mStart 1 (onHere fun c =>
    let nest := c.mat.nest.map fun n => { n with win := [], mark := none }
    { c with mat := { c.mat with nest := nest, win := some { gen := c.mat.gen, closed := false, entries := [] } } }) s

/-! ## Status (R206) -/

/-- A return word of the matrix engine (02 R40). -/
def matReturn (i : Instr) (body : M Word) (s : State) : Host.Outcome State Fault Refusal :=
  returnWord .m i (do
    matReady
    let v ← body
    occupy 1
    return v) s

/-- M.STAT STAT (R206). -/
def execMStatStat (n : BitVec 5) (s : State) : Host.Outcome State Fault Refusal :=
  matReturn (.mStatStat n) (do return statusOf (← here).tiles n.toNat) s
/-- M.STAT CLEAR (R206). -/
def execMStatClear (n : BitVec 5) (m : BitVec 6) (s : State) : Host.Outcome State Fault Refusal :=
  matReturn (.mStatClear n m) (clearStatus n.toNat m) s
/-- M.STAT QUEUES (R206). -/
def execMStatQueues (s : State) : Host.Outcome State Fault Refusal :=
  matReturn .mStatQueues (do
    let c ← here
    let below := fun (q : List Handed) => (q.filter fun h => decide (h.walk < c.matWalk)).length
    return word (c.mat.resv % 2 ^ 32 * 2 ^ 32 + below c.hand.stampq * 2 ^ 16 + below c.hand.fmtq)) s
/-- M.STAT ASSAY (R206). -/
def execMStatAssay (s : State) : Host.Outcome State Fault Refusal :=
  matReturn .mStatAssay (do return (← here).mat.record) s
/-- M.STAT WINDOW (R206). -/
def execMStatWindow (s : State) : Host.Outcome State Fault Refusal :=
  matReturn .mStatWindow (do
    let m := (← here).mat
    let n := match m.win with
      | some w => w.closed.toNat * 2 ^ 9 + (w.entries.filter fun e => !e.cont).length
      | none => 2 ^ 9
    return word (m.replays % 2 ^ 32 * 2 ^ 16 + n)) s
/-- M.STAT TOLL (R206). -/
def execMStatToll (s : State) : Host.Outcome State Fault Refusal :=
  matReturn .mStatToll (do
    let s : State ← get
    let level := (s.bucket (clusterOf s.cur)).level
    return word (BitVec.ofInt 32 level).toNat * 2 ^ 32 + word (s.here.mat.toll % 2 ^ 32)) s

end Sys2Proof.Machine
end

