-- ==== Sys2Proof/Machine/CopyBase.lean ====
section
/-! DEFINITION. What every copy word shares (07 R230-R236): descriptors, row addresses, claims, the progress of a word, and
the reads and writes of a unit with their hallmarks. -/

namespace Sys2Proof.Machine

/-! ## Fields and descriptors (02 Table 23, 07 Table 74) -/

/-- The XCD fields of a copy word. -/
structure Xcd where
  s : Nat := 0
  d : Nat := 0
  l : Nat := 0
  q : Nat := 0
  c : Nat := 0
  v : Bool := false
  cv : Bool := false
deriving DecidableEq, Repr

/-- The fields of a word; those it lacks are zero. -/
def xcdOf : Instr → Xcd
  | .xCopy s d l q c v | .xFread s d l q c v | .xHin s d l q c v | .xHout s d l q c v | .xHdec s d l q c v =>
    { s := s.toNat, d := d.toNat, l := l.toNat, q := q.toNat, c := c.toNat, v := v }
  | .xGath s d l q c | .xScat s d l q c | .xTrans s d l q c | .xPad s d l q c | .xMeta s d l q c =>
    { s := s.toNat, d := d.toNat, l := l.toNat, q := q.toNat, c := c.toNat }
  | .xSadd s d l q c w => { s := s.toNat, d := d.toNat, l := l.toNat, q := q.toNat, c := c.toNat, cv := w }
  | .xFill s d c v | .xEvict s d c v => { s := s.toNat, d := d.toNat, c := c.toNat, v := v }
  | .xCheck s l q c => { s := s.toNat, l := l.toNat, q := q.toNat, c := c.toNat }
  | .xFapp s d l c v | .xKv s d l c v | .xBankt s d l c v | .xBankp s d l c v =>
    { s := s.toNat, d := d.toNat, l := l.toNat, c := c.toNat, v := v }
  | .xBankgo s c => { s := s.toNat, c := c.toNat }
  | .xIred s d l c v w => { s := s.toNat, d := d.toNat, l := l.toNat, c := c.toNat, v := v, cv := w }
  | _ => {}

/-- A copy descriptor from its four words. -/
def CDesc.ofWords (w : List Word) : CDesc :=
  let x := (w.getD 1 0).toNat
  let y := (w.getD 2 0).toNat
  { addr := w.getD 0 0, kind := fld x 62 2, loop := bit x 61, nadv := bit x 60, res := fld x 56 4 != 0 || fld x 32 20 != 0,
    etype := fld x 52 4, rowlen := fld x 0 32, pitch := sext 32 (fld y 32 32), nrows := fld y 0 32, aux := w.getD 3 0 }

/-- The descriptor with its ADDR advanced by its nest, where NADV asks for that (07 R231, R246). -/
def CDesc.advance (d : CDesc) (delta : Int) : CDesc :=
  if d.nadv ∧ d.kind = 0 then { d with addr := d.addr + BitVec.ofInt 64 delta } else d

/-- The size of an element of an ETYPE. -/
def etypeSize (t : Nat) : Nat := [1, 2, 4, 8, 2, 2, 4, 5, 10].getD t 1

/-- The limits of Table 74 on the addressing fields, on ROWLEN, on ETYPE. -/
def CDesc.badAddr (d : CDesc) : Bool := d.res || decide (1 < d.kind)
def CDesc.badLen (d : CDesc) : Bool := d.rowlen == 0 || decide (1048576 < d.rowlen)
def CDesc.badType (d : CDesc) : Bool := decide (8 < d.etype)

/-- An indexed or host-side descriptor: KIND 0 and LOOP 0 (07 R231). -/
def CDesc.plain (d : CDesc) : Bool := d.kind == 0 && !d.loop

/-! ## A word as it issues (07 R232-R235) -/

/-- The advance of the enclosing nest (07 R246). -/
def Core.copyDelta (c : Core) : Int :=
  match c.cpy.nest with
  | some n => (c.cpy.loops.getD n.set {}).offset n.iter
  | none => 0

/-- Whether a word's source, or its destination, is its host side, where no advance applies (14 R423); X.FILL and X.EVICT use
nothing of a descriptor but its ADDR (07 R242). -/
def plainSource : Instr → Bool
  | .xHin .. | .xHdec .. | .xFill .. | .xEvict .. => true
  | _ => false
def plainDest : Instr → Bool
  | .xHout .. | .xFill .. | .xEvict .. => true
  | _ => false

/-- A copy word as the engine meets it: what its issue fixes (07 R228, R246). -/
def Core.newRun (c : Core) (i : Instr) : CopyRun :=
  let x := xcdOf i
  let a := CDesc.ofWords (c.cpy.descs.getD x.s [])
  let b := CDesc.ofWords (c.cpy.descs.getD x.d [])
  let p := c.at_ .x
  { id := c.cpy.issued + 1, word := i, walk := p.1, addr := p.2, unit := 0, units := 0
    src := if plainSource i then a else a.advance c.copyDelta
    dst := if plainDest i then b else b.advance c.copyDelta
    words := c.cpy.descs.getD x.s [], loop := c.cpy.loops.getD x.l {}, cls := x.c, h := x.q
    q := c.cpy.handles.getD x.q none }

/-- The copy engine meets a word: the claims of those in flight are made (07 R220). -/
def copyReady (i : Instr) : M CopyRun := do
  engineReady .x i
  let c ← here
  needs (c.cpy.runs.all (·.claimed))
  return c.newRun i

/-- A run's access (09 R270). -/
def CopyRun.acc (r : CopyRun) (loc len : Nat) (kinds : Kinds) : M Acc := do
  return { (← engineAcc .x r.walk r.cls loc len kinds) with run := r.id }

def readKinds : Kinds := { cr := true }
def writeKinds : Kinds := { cw := true }

/-- A queue side that a descriptor of KIND 1 uses: its handle is set and T rows of n bytes fit the slot (07 R231,
R218). -/
def sideCheck (r : CopyRun) (d : CDesc) (t n : Nat) : M PUnit := do
  if d.kind = 1 then
    match r.q with
    | some q => trapIf (decide (geomBytes q.geom < t * n)) .operand
    | none => trap .qfault

/-- A side of the run's queue is claimed (07 R235). -/
def CopyRun.claimSide (r : CopyRun) (uses prod : Bool) : M (Option Nat) := do
  match uses, r.q with
  | true, some q => return some (← claimSlot .x r.cls (if prod then writeKinds else readKinds) r.id r.h q prod r.walk)
  | _, _ => return none

/-- The claims of a run are made (07 R235). -/
def CopyRun.claim (r : CopyRun) : M CopyRun := do
  let a ← r.claimSide r.srcSide false
  let b ← r.claimSide r.dstSide true
  return { r with srcSlot := a, dstSlot := b, claimed := true }

/-- A word that has passed its checks makes its claims and joins those in flight, and the engine goes on to the next; without
a unit it is complete (07 R232, R235). `src` and `dst` say which sides are queue sides. -/
def startCopy (r : CopyRun) (units : Nat) (src dst : Bool) : M PUnit := do
  let now := (← get).stamp
  if units = 0 then onHere fun c => c.engineDone .x now
  else
    let r ← ({ r with units := units, srcSide := src, dstSide := dst } : CopyRun).claim
    onHere fun c =>
      ({ c with cpy := { c.cpy with runs := c.cpy.runs ++ [r], issued := r.id } } : Core).engineDone .x now

/-- A word that moves rows (07 R235): T units, rows of n bytes on the source side and m on the destination side; `bad` are
its own checks; `dq` says whether its destination may be a queue. -/
def rowsWord (i : Instr) (bad : CDesc → CDesc → Nat → Bool) (n m : CDesc → CDesc → Nat) (units : CDesc → Nat → Nat)
    (s : State) (dq : Bool := true) : Host.Outcome State Fault Refusal :=
  finish .x s ((do
    let r ← copyReady i
    let a := r.src
    let b := r.dst
    let t := r.loop.trips
    trapIf (decide (2 ^ 32 < t) || a.badAddr || b.badAddr || (a.kind == 1 && b.kind == 1) || bad a b t) .operand
    sideCheck r a t (n a b)
    if dq then sideCheck r b t (m a b)
    startCopy r (if t = 0 then 0 else units a t) (a.kind == 1) (dq && b.kind == 1)).run s)

/-! ## Rows (07 R231) -/

/-- The slot of a queue that a KIND 1 descriptor uses, as its place in the crew's scratchpad. -/
def slotVa (q : Handle) (slot : Nat) : Word := word (2 ^ 63 + geomBase q.geom + slot * geomBytes q.geom)

/-- Row t of a descriptor, for rows of n bytes (07 R231). -/
def CopyRun.rowVa (r : CopyRun) (d : CDesc) (slot : Option Nat) (n t : Nat) : Word :=
  if d.kind = 1 then
    match r.q with
    | some q => slotVa q (slot.getD 0) + Sys2Proof.word (t * n)
    | none => 0
  else if d.loop then d.addr + r.loop.base + BitVec.ofInt 64 (r.loop.offset t)
  else d.addr + BitVec.ofInt 64 (t * d.pitch)

/-- Row k of an indexed descriptor (07 R231). -/
def CDesc.rowAt (d : CDesc) (k : Nat) : Word := d.addr + BitVec.ofInt 64 (k * d.pitch)

/-- The row that unit t of a word writes, where the word alone decides that: its address and length. -/
def CopyRun.dstRow (r : CopyRun) (t : Nat) : Option (Word × Nat) :=
  let n := r.src.rowlen
  match r.word with
  | .xCopy .. | .xGath .. | .xFread .. | .xHin .. => some (r.rowVa r.dst r.dstSlot n t, n)
  | .xPad .. => some (r.rowVa r.dst r.dstSlot r.dst.rowlen t, r.dst.rowlen)
  | .xTrans .. => some (r.dst.rowAt t, r.loop.trips * etypeSize r.src.etype)
  | .xHdec .. | .xKv .. => some (r.rowVa r.dst none n t, n)
  | _ => none

/-- The bytes of the claimed slot that the word's units do not write: they are zeroed at its end (07 R235). -/
def CopyRun.rest (r : CopyRun) : Option (Word × Nat) :=
  match r.dstSlot, r.q, r.dstRow 0 with
  | some slot, some q, some (_, n) => some (slotVa q slot + Sys2Proof.word (r.units * n), geomBytes q.geom - r.units * n)
  | _, _, _ => none

/-- What the word writes of the grain that begins at virtual address 256 * g: for each unit its first byte and length; the
slot's rest counts as a last unit. -/
def CopyRun.hits (r : CopyRun) (g : Nat) : List (Nat × Nat × Nat) :=
  let hit := fun (t : Nat) (p : Option (Word × Nat)) => p.bind fun x =>
    if meetRanges x.1.toNat x.2 (256 * g) 256 then some (t, x.1.toNat, x.2) else none
  (List.range r.units).filterMap (fun t => hit t (r.dstRow t)) ++ (hit r.units r.rest).toList

/-- Whether a word writes a grain whole, and whether nothing of it is left behind unit u (07 R236). -/
def CopyRun.whole (r : CopyRun) (g : Nat) : Bool :=
  let hs := r.hits g
  (List.range 256).all fun b => hs.any fun h => decide (h.2.1 ≤ 256 * g + b) && decide (256 * g + b < h.2.1 + h.2.2)
def CopyRun.last (r : CopyRun) (u g : Nat) : Bool := (r.hits g).all fun h => decide (h.1 ≤ u)

/-- Whether an X.COPY writes a grain whole from one whole source grain in the same byte order (07 R236). -/
def CopyRun.shifted (r : CopyRun) (g : Nat) : Bool :=
  let shift := fun (h : Nat × Nat × Nat) => ((r.rowVa r.src r.srcSlot r.src.rowlen h.1).toNat : Int) - h.2.1
  match r.word, r.hits g with
  | .xCopy .., h :: hs => r.whole g && shift h % 256 == 0 && (h :: hs).all fun x => decide (x.1 < r.units) && shift x == shift h
  | _, _ => false

/-! ## Reads and writes of a unit (07 R235, R236) -/

/-- A range of bytes as the copy engine reaches it: locations and lengths within grains (08 R257). -/
def rangeParts (va : Word) (n : Nat) (need : Need) : M (List (Nat × Nat)) :=
  (grainParts va.toNat n).mapM fun (p : Nat × Nat) => do
    let loc ← locate (word p.1) need .x
    return (loc, p.2)

/-- The parts pass what holds them, and their homes (09 R279, 14 R406). -/
def goParts (r : CopyRun) (ps : List (Nat × Nat)) (kinds : Kinds) : M PUnit := do
  for p in ps do
    accessGo (← r.acc p.1 p.2 kinds)
    passHome p.1 p.2

/-- Places whose grains carry hallmarks in this package. -/
def hasGrains (loc : Nat) : Bool :=
  match place loc with
  | .dram => true | .kv => true | .pad => true
  | .reg => false | .peer => false | .host => false | .trav => false | .reserved => false

/-- HALLMARK, then UNCORR, on whole grains that parts touch. -/
def verifyParts (ps : List (Nat × Nat)) : M PUnit := do
  let s : State ← get
  let found := ps.filterMap fun p => if hasGrains p.1 then s.verify p.1 p.2 else none
  trapIf (found.contains .hallmark) .hallmark
  trapIf (found.contains .uncorr) .uncorr

/-- A part of a register window range, cut into doublewords. -/
def dwordParts (loc n : Nat) : List (Nat × Nat) :=
  if n = 0 then []
  else (List.range ((loc + n - 1) / 8 - loc / 8 + 1)).map fun i =>
    let lo := max loc (8 * (loc / 8 + i))
    let hi := min (loc + n) (8 * (loc / 8 + i + 1))
    (lo, hi - lo)

/-- The bytes of parts that have passed their checks. -/
def loadParts (ps : List (Nat × Nat)) : M (List Byte) :=
  ps.foldlM (fun (acc : List Byte) (p : Nat × Nat) => do
    if hasGrains p.1 then return acc ++ (← get).bytes p.1 p.2
    else if place p.1 = .reg then
      let bs ← (dwordParts p.1 p.2).mapM fun (q : Nat × Nat) => readAt q.1 q.2
      return acc ++ bs.flatten
    else return acc ++ (← readAt p.1 p.2)) []

/-- A row is read with every grain verified (07 R236). -/
def readRow (r : CopyRun) (va : Word) (n : Nat) : M (List Byte) := do
  let ps ← rangeParts va n .read
  goParts r ps readKinds
  verifyParts ps
  loadParts ps

/-- A part of a row to be written: its virtual address, location and length, whether the word writes its grain whole, and
whether nothing of the grain is left behind this unit. -/
structure Dest where
  va : Nat
  loc : Nat
  len : Nat
  whole : Bool
  last : Bool
deriving DecidableEq, Repr

/-- The parts of a row that the run's unit writes (07 R236, 08 R257). -/
def destParts (r : CopyRun) (va : Word) (n : Nat) (need : Need := .write) : M (List Dest) :=
  (grainParts va.toNat n).mapM fun (p : Nat × Nat) => do
    let loc ← locate (word p.1) need .x
    let g := p.1 / 256
    return { va := p.1, loc := loc, len := p.2, whole := p.2 == 256 || r.whole g, last := p.2 == 256 || r.last r.unit g }

/-- Location and length of parts. -/
def Dest.part (d : Dest) : Nat × Nat := (d.loc, d.len)

/-- Parts of grains that the word writes in part: their other bytes are read and verified (07 R236). -/
def partly (ds : List Dest) : List (Nat × Nat) := (ds.filter fun d => !d.whole).map (·.part)

/-- The fresh hallmark of a grain that the word has written whole by several rows (07 R236). -/
def Dest.fresh (d : Dest) : Option (BitVec 32 × Bool) :=
  if d.len != 256 && d.whole && d.last && hasGrains d.loc then some (0, false) else none

/-- Whether every word in flight before the run has passed its checks: its effects may be made (07 R233). -/
def Core.firstRun (c : Core) (r : CopyRun) : Bool := c.cpy.runs.all fun x => decide (r.id ≤ x.id) || x.passed

/-- A part is written, with the hallmark state it gets: through the request path, or to another package, which may refuse it,
at once (07 R233, 09 R279, 14 R432). -/
def putPart (r : CopyRun) (d : Dest) (bs : List Byte) (mark : Option (BitVec 32 × Bool)) : M PUnit := do
  let a := { (← r.acc d.loc d.len writeKinds) with page := (← here).pageOf (word d.va) }
  if place d.loc = .peer then
    needs ((← here).firstRun r)
    accessGo a
    writePeer d.loc bs ((mark.map (·.1)).getD 0)
  else enqueueLogged a (.store bs mark)

/-- The bytes of a row are written to its parts, which have passed their checks. -/
def putRow (r : CopyRun) : List Dest → List Byte → M PUnit
  | [], _ => pure ()
  | d :: ds, bs => do
    putPart r d (bs.take d.len) d.fresh
    putRow r ds (bs.drop d.len)

/-- The same at once, as part of a unit that acts at the home in one step. -/
def storeRow : List Dest → List Byte → M PUnit
  | [], _ => pure ()
  | d :: ds, bs => do
    writeAt d.loc (bs.take d.len)
    match d.fresh with
    | some m => modify fun (s : State) => s.setGrain (d.loc / 256) m
    | none => pure ()
    storeRow ds (bs.drop d.len)

/-- Whether a copy carries a part to its destination with the stored hallmark: the word writes the grain whole from one whole
source grain (07 R236, 14 R432). -/
def carries (r : CopyRun) (src : Nat × Nat) (d : Dest) : Bool :=
  if d.len = 256 then
    src.1 % 256 == 0 && d.loc % 256 == 0 && (hasGrains src.1 || place src.1 == Place.peer) && (hasGrains d.loc || place d.loc == Place.peer)
  else hasGrains src.1 && hasGrains d.loc && r.shifted (d.va / 256)

/-- Which parts of a row a copy carries so; none where source and destination parts differ in length. -/
def carried (r : CopyRun) (sp : List (Nat × Nat)) (ds : List Dest) : List Bool :=
  if sp.map (·.2) = ds.map (·.len) then (sp.zip ds).map fun p => carries r p.1 p.2 else sp.map fun _ => false

/-- A part that is carried moves: its bytes, and with the grain's last bytes its hallmark state. -/
def carryPart (r : CopyRun) (src : Nat × Nat) (d : Dest) : M PUnit := do
  if place src.1 = .peer then
    let x ← readPeer src.1 src.2
    putPart r d x.1 (some (x.2, false))
  else
    let s : State ← get
    putPart r d (s.bytes src.1 src.2) (if d.last then some (s.grain (src.1 / 256)) else none)

/-- A row moved (07 R236, R237): without v, a grain carried whole takes its source's hallmark unverified; an error that
storage cannot correct raises UNCORR all the same. -/
def moveRow (r : CopyRun) (v : Bool) (src dst : Word) (n : Nat) : M PUnit := do
  let sp ← rangeParts src n .read
  let ds ← destParts r dst n
  goParts r sp readKinds
  let fs := if v then sp.map fun _ => false else carried r sp ds
  verifyParts (((sp.zip fs).filter fun p => !p.2).map (·.1) ++ partly ds)
  let s : State ← get
  trapIf ((sp.zip fs).any fun p => p.2 && (s.grain (p.1.1 / 256)).2) .uncorr
  if fs.all (!·) then putRow r ds (← loadParts sp)
  else
    for p in (sp.zip ds).zip fs do
      if p.2 then carryPart r p.1.1 p.1.2 else putRow r [p.1.2] (← loadParts [p.1.1])

/-- A 32-bit index at an address, read as part of the unit (07 R237). -/
def readIndex (r : CopyRun) (va : Word) : M Nat := do return leNat (← readRow r va 4)

/-! ## The progress of a word (07 R233) -/

/-- The run is changed. -/
def setRun (r : CopyRun) : M PUnit :=
  onHere fun c => { c with cpy := { c.cpy with runs := c.cpy.runs.map fun x => if x.id = r.id then r else x } }

/-- The run has passed every check and leaves those in flight. -/
def dropRun (r : CopyRun) : M PUnit :=
  onHere fun c => { c with cpy := { c.cpy with runs := c.cpy.runs.filter fun x => x.id != r.id } }

/-- A word has done its units: the rest of its slot is zeroed, its claims end with advances, all in the request path; it is
complete when nothing of it is left there (07 R232, R235). -/
def endRun (r : CopyRun) : M PUnit := do
  match r.rest with
  | some (va, n) => putRow r (← destParts { r with unit := r.units } va n) (List.replicate n 0)
  | none => pure ()
  match r.srcSlot, r.q with
  | some _, some q => advanceClaim .x r.cls writeKinds r.id r.h q false r.walk none
  | _, _ => pure ()
  match r.dstSlot, r.q with
  | some _, some q => advanceClaim .x r.cls writeKinds r.id r.h q true r.walk none
  | _, _ => pure ()
  dropRun r

/-- The unit is done; behind the last one the word ends as soon as those before it have passed their checks. -/
def nextUnit (r : CopyRun) : M PUnit := do
  let now := (← get).stamp
  onHere fun c => { c with lastIssue := now }
  let r := { r with unit := r.unit + 1 }
  if r.unit < r.units || !(← here).firstRun r then setRun r else endRun r

/-- Whether every copy word of a class that p accepts, issued so far, has completed (07 R232): none is in flight, and nothing of
one is left in the request path. -/
def Core.copiesDone (c : Core) (p : Nat → Bool) : Bool :=
  c.cpy.runs.all (fun r => !p r.cls) && c.req.path.all fun x => x.acc.run == 0 || !p x.acc.cls

end Sys2Proof.Machine
end

