-- ==== Sys2Proof/Machine/CopyUnits.lean ====
section
/-! DEFINITION. The copy words that move data inside a package: their units (07 R237-R243). -/

namespace Sys2Proof.Machine

/-! ## Units of rows -/

/-- An index of an indexed descriptor, read at AUX + 4t and checked against NROWS (07 R237). -/
def rowIndex (r : CopyRun) (d : CDesc) : M Nat := do
  let k ← readIndex r (d.aux + word (4 * r.unit))
  trapIf (d.nrows != 0 && decide (d.nrows ≤ k)) .operand
  return k

/-- The unit's row on the source side. -/
def CopyRun.srcVa (r : CopyRun) : Word := r.rowVa r.src r.srcSlot r.src.rowlen r.unit

/-- Unit t of X.COPY (07 R237). -/
def unitCopy (r : CopyRun) : M PUnit := do
  moveRow r (xcdOf r.word).v r.srcVa (r.rowVa r.dst r.dstSlot r.src.rowlen r.unit) r.src.rowlen
  nextUnit r

/-- Unit t of X.GATH (07 R237). -/
def unitGath (r : CopyRun) : M PUnit := do
  let k ← rowIndex r r.src
  moveRow r true (r.src.rowAt k) (r.rowVa r.dst r.dstSlot r.src.rowlen r.unit) r.src.rowlen
  nextUnit r

/-- Unit t of X.SCAT (07 R237). -/
def unitScat (r : CopyRun) : M PUnit := do
  let k ← rowIndex r r.dst
  moveRow r true r.srcVa (r.dst.rowAt k) r.src.rowlen
  nextUnit r

/-- Element j of bytes, and bytes of an element. -/
def elemAt (e : Nat) (bs : List Byte) (j : Nat) : Nat := leNat ((bs.drop (e * j)).take e)

/-- D + S for an element of an ETYPE (07 R238). -/
def addElem (t : Nat) (x y : Nat) : Nat :=
  let float := fun (f : FFmt) => (f.round .rne 0 ((f.decode x).add .rne (f.decode y)).1).1
  match t with
  | 4 => float fmtFP16
  | 5 => float fmtBF16
  | 6 => float fmtFP32
  | _ => (x + y) % 2 ^ (8 * etypeSize t)

/-- In convoy mode the elements of a unit wait for their worker's turn and are counted (07 R238, 09 R290). -/
def convoyTake (cv : Bool) (n : Nat) : M PUnit := do
  let s : State ← get
  if cv && s.here.sc.convOn then
    needs (s.convoyTurn s.cur)
    onHere fun c => { c with sc := { c.sc with convn := c.sc.convn + n } }

/-- A row of n bytes is added into a destination row, element by element, after every grain of the unit has been translated
and then verified (07 R235, R238): `sp` are the parts that the unit reads, `go` lets them pass, `src` forms the addends. -/
def addRow (r : CopyRun) (etype : Nat) (va : Word) (n : Nat) (sp : List (Nat × Nat)) (go : M PUnit) (src : M (List Byte)) :
    M PUnit := do
  let e := etypeSize etype
  let ds ← destParts r va n .both
  let dp := ds.map (·.part)
  go
  goParts r dp { cr := true, cw := true }
  verifyParts (sp ++ dp)
  convoyTake (xcdOf r.word).cv (n / e)
  let bs ← src
  let old ← loadParts dp
  let new := (List.range (n / e)).map fun j => leBytes e (addElem etype (elemAt e old j) (elemAt e bs j))
  storeRow ds new.flatten

/-- Unit t of X.SADD (07 R238): ALIGN comes before the translations. -/
def unitSadd (r : CopyRun) : M PUnit := do
  let n := r.src.rowlen
  let k ← rowIndex r r.dst
  let va := r.dst.rowAt k
  if va.toNat % etypeSize r.dst.etype ≠ 0 then xfail ⟨.align, 0, 9⟩ .both .x va
  let sp ← rangeParts r.srcVa n .read
  addRow r r.dst.etype va n sp (goParts r sp readKinds) (loadParts sp)
  nextUnit r

/-- Pieces are read and a row of n bytes made of them is written: every translation comes before every hallmark (07 R235,
R236). -/
def makeRow (r : CopyRun) (srcs : List (Word × Nat)) (dst : Word) (n : Nat) (f : List Byte → List Byte) : M PUnit := do
  let sps ← srcs.mapM fun (p : Word × Nat) => rangeParts p.1 p.2 .read
  let ds ← destParts r dst n
  goParts r sps.flatten readKinds
  verifyParts (sps.flatten ++ partly ds)
  putRow r ds (f (← loadParts sps.flatten))

/-- Unit j of X.TRANS (07 R239). -/
def unitTrans (r : CopyRun) : M PUnit := do
  let e := etypeSize r.src.etype
  let t := r.loop.trips
  let srcs := (List.range t).map fun i => (r.rowVa r.src r.srcSlot r.src.rowlen i + word (r.unit * e), e)
  makeRow r srcs (r.dst.rowAt r.unit) (t * e) id
  nextUnit r

/-- Unit t of X.PAD (07 R240). -/
def unitPad (r : CopyRun) : M PUnit := do
  let n := r.src.rowlen
  let m := r.dst.rowlen
  let e := etypeSize r.dst.etype
  let aux := leBytes e r.dst.aux.toNat
  let pad := (List.range (m - n)).map fun i => aux.getD ((n + i) % e) 0
  makeRow r [(r.srcVa, n)] (r.rowVa r.dst r.dstSlot m r.unit) m fun bs => bs ++ pad
  nextUnit r

/-- Unit t of X.META (07 R241). -/
def unitMeta (r : CopyRun) : M PUnit := do
  let n := r.src.rowlen
  let bs ← readRow r r.srcVa n
  let at_ := r.dst.addr.toNat + r.unit * n
  onTiles fun t => { t with
    side := putBytes t.side at_ bs
    sideBad := t.sideBad.filter fun o => !(decide (at_ ≤ o) && decide (o < at_ + n)) }
  nextUnit r

/-- Unit g of X.FILL and X.EVICT (07 R242). -/
def unitGrain (r : CopyRun) : M PUnit := do
  moveRow r (xcdOf r.word).v (r.src.addr + word (256 * r.unit)) (r.dst.addr + word (256 * r.unit)) 256
  nextUnit r

/-- Unit t of X.CHECK (07 R243). -/
def unitCheck (r : CopyRun) : M PUnit := do
  let _ ← readRow r r.srcVa r.src.rowlen
  nextUnit r

end Sys2Proof.Machine
end

