-- ==== Sys2Proof/Machine/CopyFar.lean ====
section
/-! DEFINITION. The copy words that reach flash and the host: X.FREAD, X.FAPP, X.KV (11 R332, R333, R350) and X.HIN, X.HOUT,
X.HDEC (14 R423-R426). -/

namespace Sys2Proof.Machine

/-! ## Flash rows (11 R329-R334) -/

/-- The region that a flash address names, as a word of the current context may use it; its number (R329, R332). -/
def flashRegion (va : Word) (perm : Region → Bool) : M (Nat × Region) := do
  trapIf (fld va.toNat 50 14 != 0) .operand
  let s : State ← get
  let n := fld va.toNat 42 8
  let r := s.region n
  trapIf (!r.valid) .operand
  trapIf (r.ctx != s.here.job.ctx || !perm r) .protect
  return (n, r)

/-- Accesses to a region order at its home (R334, 09 R271). -/
def flashGo (r : CopyRun) (no : Nat) (g : Region) (kinds : Kinds) : M PUnit :=
  accessGo { walk := r.walk, eng := .x, cls := r.cls, kinds := kinds, home := some (.region no g.die), run := r.id }

/-- Where a flash row of n bytes lies, after the checks of its region and its bounds (R329, R331, R332). -/
def flashRow (va : Word) (n : Nat) : M (Nat × Region × Nat) := do
  let (no, r) ← flashRegion va (·.r)
  let off := fld va.toNat 0 42
  trapIf (decide (r.pages ≤ off / pageBytes) || decide (pageBytes < off % pageBytes + n)) .operand
  trapIf (!r.index && decide (r.fill ≤ off / pageBytes)) .operand
  return (no, r, off)

/-- The bytes of a flash row whose checks have passed: its page is read and verified (R330). -/
def flashRead (no : Nat) (r : Region) (off n : Nat) : M (List Byte) := do
  let s : State ← get
  match (s.page (r.pageKey (off / pageBytes))).fault with
  | some c => throw (.trap { cause := c, flash := some (word (no * 2 ^ 42 + off / pageBytes * pageBytes)) })
  | none => return s.flashBytes r off n

/-- X.FREAD (R332). -/
def execXFread (a d : BitVec 4) (l : BitVec 3) (q c : BitVec 4) (v : Bool) (s : State) : Host.Outcome State Fault Refusal :=
  rowsWord (.xFread a d l q c v)
    (fun x y _ => x.kind != 0 || x.badLen || y.kind == 1 && y.rowlen != x.rowlen)
    (fun x _ => x.rowlen) (fun x _ => x.rowlen) (fun _ t => t) s

/-- Unit t of X.FREAD (R332). -/
def unitFread (r : CopyRun) : M PUnit := do
  let n := r.src.rowlen
  let (no, g, off) ← flashRow (r.rowVa r.src none n r.unit) n
  let ds ← destParts r (r.rowVa r.dst r.dstSlot n r.unit) n
  flashGo r no g readKinds
  let bs ← flashRead no g off n
  verifyParts (partly ds)
  putRow r ds bs
  nextUnit r

/-- X.FAPP (R332, R333). -/
def execXFapp (a d : BitVec 4) (l : BitVec 3) (c : BitVec 4) (v : Bool) (s : State) : Host.Outcome State Fault Refusal :=
  rowsWord (.xFapp a d l c v) (fun x y _ => y.kind != 0 || x.badLen || fld y.addr.toNat 0 42 != 0)
    (fun x _ => x.rowlen) (fun _ _ => 0) (fun _ t => t) s

/-- A page appended to a DATA region (R333): its bytes, and whether a grain's hallmark came with it and is wrong. -/
def appendPage (no : Nat) (r : Region) (bs : List Byte) (bad : Bool) : M PUnit :=
  modify fun (s : State) =>
    (s.setPage (r.pageKey r.fill) { bytes := putBytes [] 0 bs, badMark := bad }).setRegion no { r with fill := r.fill + 1 }

/-- Unit t of X.FAPP (R333, 07 R236). -/
def unitFapp (r : CopyRun) : M PUnit := do
  let n := r.src.rowlen
  let (no, g) ← flashRegion r.dst.addr (·.w)
  if g.index then
    trapIf (n != 8 + ((← get).indexHead g).dim * ((← get).indexHead g).e) .operand
    let sp ← rangeParts r.srcVa n .read
    needs (decide (g.logpos - g.merged < g.logcap))
    goParts r sp readKinds
    flashGo r no g writeKinds
    verifyParts sp
    let bs ← loadParts sp
    trapIf (decide (1 < leNat ((bs.drop 4).take 4))) .operand
    modify fun (s : State) => s.setRegion no { g with log := g.log ++ [bs], logpos := g.logpos + 1 }
  else
    trapIf (n != pageBytes || decide (g.pages ≤ g.fill)) .operand
    let sp ← rangeParts r.srcVa n .read
    goParts r sp readKinds
    flashGo r no g writeKinds
    let carried := !(xcdOf r.word).v && sp.all fun p => p.2 == 256 && hasGrains p.1
    verifyParts (if carried then [] else sp)
    let s : State ← get
    trapIf (carried && sp.any fun p => (s.grain (p.1 / 256)).2) .uncorr
    let bs ← loadParts sp
    appendPage no g bs (carried && sp.any fun p => (s.grain (p.1 / 256)).1 != 0)
  nextUnit r

/-! ## X.KV (11 R350) -/

/-- First address and size of the page that holds a virtual address (08 R255). -/
def pageOf (va : Word) (n : Need) : M (Nat × Nat × Nat) := do
  let pa ← locate va n .x
  let c ← here
  match c.tlb.find? (·.covers c.job.ctx va.toNat) with
  | some t => return (t.va, t.size, pa)
  | none => return (va.toNat, 1, pa)

/-- X.KV (R350): the destination is checked at each unit. -/
def execXKv (a d : BitVec 4) (l : BitVec 3) (c : BitVec 4) (v : Bool) (s : State) : Host.Outcome State Fault Refusal :=
  rowsWord (.xKv a d l c v) (fun x _ _ => x.kind != 0 || x.badLen) (fun x _ => x.rowlen) (fun _ _ => 0) (fun _ t => t) s
    (dq := false)

/-- Unit t of X.KV (R350): a destination row that is not mapped with W raises OPERAND with the other refusals. -/
def unitKv (r : CopyRun) : M PUnit := do
  let n := r.src.rowlen
  let aux := r.src.aux.toNat
  let tokens := fld aux 0 16
  let va := r.rowVa r.dst none n r.unit
  let entry := r.dst.aux + word (16 * r.unit)
  trapIf (r.dst.kind != 0 || fld aux 32 32 != 0 || tokens * fld aux 16 16 != n || isPad va || va.toNat % 256 != 0
    || r.dst.aux.toNat % 16 != 0 || isPad entry) .operand
  let (no, g, off) ← flashRow (r.rowVa r.src none n r.unit) n
  let (first, size, pa) ← tryCatch (pageOf va .write) fun _ => trap .operand
  trapIf (decide (first + size < va.toNat + n) || !(place pa == Place.dram || place pa == Place.kv)) .operand
  let ds ← destParts r va n
  let ep ← destParts r entry 16 .both
  flashGo r no g readKinds
  goParts r (ds.map (·.part)) writeKinds
  goParts r (ep.map (·.part)) { cr := true, cw := true }
  verifyParts (ep.map (·.part))
  let old ← loadParts (ep.map (·.part))
  needs (decide (fld (leNat old) 88 8 = 0))
  let bs ← flashRead no g off n
  verifyParts (partly ds)
  storeRow ds bs
  storeRow ep (leBytes 16 (2 ^ 62 + va.toNat + 2 ^ 64 * ((crc32c bs).toNat * 2 ^ 32 + tokens)))
  nextUnit r

/-! ## The host (14 R423-R426) -/

/-- The checks of a unit of a host word (R422, R423); `va` is its row on the host side. -/
def hostChecks (va : Word) (n : Need) : M PUnit := do
  let s : State ← get
  let k := s.ctx s.here.job.ctx
  if s.trust.tdisp = .error then xfail ⟨.protect, 4, 7⟩ n .x va
  else if !k.hostio then xfail ⟨.protect, 4, 6⟩ n .x va
  else if k.lockreq ∧ s.trust.tdisp ≠ .run then xfail ⟨.protect, 4, 7⟩ n .x va
  else pure ()

/-- Row t on the host side: no advance applies there (R423). -/
def hostRow (d : CDesc) (t : Nat) : Word := d.addr + BitVec.ofInt 64 (t * d.pitch)

/-- Accesses to the host order among themselves (09 R275). -/
def hostGo (r : CopyRun) (kinds : Kinds) : M PUnit := do accessGo (← r.acc Config.hostBase 0 kinds)

/-- n bytes read from a host bus address; the host may complete the read with an error (R423, log 10). -/
def hostRead (va : Word) (n : Nat) : M (List Byte) := do
  let f ← freshNat
  trapIf (Config.hostFails f) .uncorr
  return getBytes (← get).host va.toNat n

/-- X.HIN (R424). -/
def execXHin (a d : BitVec 4) (l : BitVec 3) (q c : BitVec 4) (v : Bool) (s : State) : Host.Outcome State Fault Refusal :=
  rowsWord (.xHin a d l q c v) (fun x y _ => !x.plain || x.badLen || y.kind == 1 && y.rowlen != x.rowlen)
    (fun x _ => x.rowlen) (fun x _ => x.rowlen) (fun _ t => t) s

/-- Unit t of X.HIN (R424). -/
def unitHin (r : CopyRun) : M PUnit := do
  let n := r.src.rowlen
  let va := hostRow r.src r.unit
  hostChecks va .read
  let ds ← destParts r (r.rowVa r.dst r.dstSlot n r.unit) n
  hostGo r readKinds
  verifyParts (partly ds)
  let bs ← hostRead va n
  putRow r ds bs
  nextUnit r

/-- X.HOUT (R424). -/
def execXHout (a d : BitVec 4) (l : BitVec 3) (q c : BitVec 4) (v : Bool) (s : State) : Host.Outcome State Fault Refusal :=
  rowsWord (.xHout a d l q c v) (fun x y _ => x.badLen || !y.plain) (fun x _ => x.rowlen) (fun _ _ => 0) (fun _ t => t) s

/-- Unit t of X.HOUT (R424). -/
def unitHout (r : CopyRun) : M PUnit := do
  let va := hostRow r.dst r.unit
  hostChecks va .write
  let bs ← readRow r r.srcVa r.src.rowlen
  hostGo r writeKinds
  let f ← freshNat
  trapIf (Config.hostFails f) .uncorr
  modify fun (s : State) => { s with host := putBytes s.host va.toNat bs }
  nextUnit r

/-- X.HDEC (R425). -/
def execXHdec (a d : BitVec 4) (l : BitVec 3) (q c : BitVec 4) (v : Bool) (s : State) : Host.Outcome State Fault Refusal :=
  rowsWord (.xHdec a d l q c v)
    (fun x y t => !x.plain || x.badLen || y.kind != 0 || decide (2 ^ 64 < y.aux.toNat + t))
    (fun x _ => x.rowlen) (fun _ _ => 0) (fun _ t => t) s

/-- The destination frames of a row, each once. -/
def framesOf (ps : List (Nat × Nat)) : List Nat := (ps.map fun p => p.1 / 2 ^ 19).eraseDups

/-- A frame becomes plaintext of a context (R425, 08 R262). -/
def State.markPlain (s : State) (ctx f : Nat) : State :=
  let e := (s.dword (frameAt s f)).toNat
  s.writeWord (frameAt s f) (ftPack (ftCount e) (ftPins e) (ftFreeq e) (ftRingq e) true ctx e)

/-- Unit t of X.HDEC (R425, R426). -/
def unitHdec (r : CopyRun) : M PUnit := do
  let va := hostRow r.src r.unit
  let n := r.src.rowlen
  let count := r.dst.aux.toNat + r.unit
  hostChecks va .read
  let ctx := (← here).job.ctx
  let k := (← get).ctx ctx
  trapIf (!k.keyok) .operand
  trapIf (decide (count ≤ k.rxhigh.toNat)) .idetag
  let ds ← destParts r (r.rowVa r.dst none n r.unit) n
  trapIf (ds.any fun d => place d.loc != Place.dram) .operand
  hostGo r readKinds
  goParts r (ds.map (·.part)) writeKinds
  let s : State ← get
  match ds.find? fun d =>
      let e := (s.dword (frameAt s (d.loc / 2 ^ 19))).toNat
      ftPlain e && ftOwner e != ctx with
  | some d => xfail ⟨.protect, 4, 8⟩ .write .x (word d.va)
  | none => pure ()
  let bs ← hostRead va (n + 16)
  match gcmOpen k.key (beBytes 4 k.salt.toNat ++ beBytes 8 count) (bs.take n) (bs.drop n) with
  | none => trap .idetag
  | some text =>
    verifyParts (partly ds)
    modify fun (s : State) =>
      (framesOf (ds.map (·.part))).foldl (fun t f => t.markPlain ctx f) (s.setCtx ctx { k with rxhigh := word count })
    storeRow ds text
    nextUnit r

end Sys2Proof.Machine
end

