-- ==== Sys2Proof/Machine/BankWords.lean ====
section
/-! DEFINITION. The copy words that drive the bank units: X.IRED (10 R313), X.BANKP (R299), X.BANKT (R300-R302) and
X.BANKGO (R303, R305). -/

namespace Sys2Proof.Machine

/-! ## Indexed reduce (R313) -/

/-- X.IRED (R313). -/
def execXIred (a d : BitVec 4) (l : BitVec 3) (c : BitVec 4) (v w : Bool) (s : State) : Host.Outcome State Fault Refusal :=
  rowsWord (.xIred a d l c v w)
    (fun x y _ => !x.plain || !y.plain || decide (1 < x.etype) || y.etype != 2
      || decide (x.rowlen < etypeSize x.etype) || decide (4096 < x.rowlen) || x.rowlen % etypeSize x.etype != 0
      || y.rowlen != 4 * (x.rowlen / etypeSize x.etype))
    (fun _ _ => 0) (fun _ _ => 0) (fun _ t => t) s

/-- The rows of the bag that begins at index position p, and the position behind it; an array that ends within a bag
raises OPERAND. -/
def readBag (r : CopyRun) (aux : Word) : Nat → Nat → M (List Nat × Nat)
  | 0, _ => trap .operand
  | left + 1, p => do
    let k ← readIndex r (aux + word (4 * p))
    if bit k 31 then return ([fld k 0 31], p + 1)
    else
      let (ks, e) ← readBag r aux left (p + 1)
      return (fld k 0 31 :: ks, e)

/-- A table row as its bank unit reads it: within one page of DRAM; its channel and its parts. -/
def bagRow (a : CDesc) (k : Nat) : M (Nat × List (Nat × Nat)) := do
  trapIf (a.nrows != 0 && decide (a.nrows ≤ k)) .operand
  let va := a.addr + BitVec.ofInt 64 (k * a.pitch)
  trapIf (isPad va) .operand
  let (first, size, pa) ← pageOf va .read
  trapIf (decide (first + size < va.toNat + a.rowlen) || place pa != Place.dram) .operand
  let ps ← rangeParts va a.rowlen .read
  return (channelOf pa, ps)

/-- The rows of a bag pass what holds them, and their homes. -/
def bagGo (r : CopyRun) (rows : List (Nat × List (Nat × Nat))) : M PUnit := do
  for p in rows.flatMap (·.2) do
    accessGo (← r.acc p.1 p.2 readKinds)
    orderHome p.1 p.2

/-- The rows of a bag are read, one toll each. -/
def bagLoad (rows : List (Nat × List (Nat × Nat))) : M (List (List Byte)) :=
  rows.mapM fun (p : Nat × List (Nat × Nat)) => do
    modify fun (s : State) => s.chargeStack p.1 1
    loadParts p.2

/-- The sums of a bag's rows, mod 2^32. -/
def bagSums (e n : Nat) (rows : List (List Byte)) : List Nat :=
  (List.range n).map fun j =>
    (BitVec.ofInt 32 (rows.map fun r => sext (8 * e) (elemAt e r j)).sum).toNat

/-- A unit of X.IRED, one bag (R313); `aux` of the run is the index position at which the bag begins. -/
def unitIred (r : CopyRun) : M PUnit := do
  let a := r.src
  let t := r.loop.trips
  let dva := r.rowVa r.dst none r.dst.rowlen r.unit
  if dva.toNat % 4 ≠ 0 then xfail ⟨.align, 0, 9⟩ .both .x dva
  let (ks, e) ← readBag r a.aux (t - r.aux) r.aux
  let rows ← ks.mapM (bagRow a)
  let n := a.rowlen / etypeSize a.etype
  addRow r 2 dva (4 * n) (rows.flatMap (·.2)) (bagGo r rows) do
    let bs ← bagLoad rows
    return ((bagSums (etypeSize a.etype) n bs).map fun v => leBytes 4 v).flatten
  nextUnit { r with units := if e = t then r.unit + 1 else r.unit + 2, aux := e }

/-! ## Move programs (R295, R299) -/

/-- Ports that can be read and ports that can be written (Table 102). -/
def portReads (p : Nat) : Bool :=
  decide (p ≤ 0x0B) || [0x0E, 0x11, 0x14, 0x17, 0x1A, 0x1D, 0x23, 0x24, 0x25, 0x26, 0x27].contains p
def portWrites (p : Nat) : Bool :=
  decide (p ≤ 0x22) && !([0x14, 0x17, 0x1A, 0x1D].contains p)

/-- Whether a word of an image is a move word that the upload admits (R299). -/
def moveOk (w : BitVec 32) : Bool :=
  match decodeBank w with
  | .instr (.move _ d p) => portWrites d.toNat && portReads p.toNat
  | .instr (.moveImm _ d _) => portWrites d.toNat
  | .instr (.claspMove _) => true
  | _ => false

/-- Whether a move word is a clasp move, and the label it carries. -/
def claspLabel (w : BitVec 32) : Option (BitVec 16) :=
  match decodeBank w with
  | .instr (.claspMove l) => some l
  | _ => none

/-- Whether an entry word obeys R299 for a store. -/
def entryOk (store : List (BitVec 32)) (w : BitVec 32) : Bool :=
  w == 0x80000000 ||
    (fld w.toNat 8 24 == 0 && match store[w.toNat]? with | some x => (claspLabel x).isSome | none => false)

/-- The 32-bit words that bytes spell. -/
def words32 (bs : List Byte) : List (BitVec 32) :=
  (List.range (bs.length / 4)).map fun i => BitVec.ofNat 32 (leNat ((bs.drop (4 * i)).take 4))

/-- X.BANKP (R299). -/
def execXBankp (a d : BitVec 4) (l : BitVec 3) (c : BitVec 4) (v : Bool) (s : State) : Host.Outcome State Fault Refusal :=
  rowsWord (.xBankp a d l c v)
    (fun x y _ => !x.plain || y.kind != 0 || x.rowlen % 4 != 0 || decide (x.rowlen < 68) || decide (1088 < x.rowlen))
    (fun _ _ => 0) (fun _ _ => 0) (fun _ t => t) s

/-- Unit t of X.BANKP: the image is checked and joins the commands of its bank unit (R299). -/
def unitBankp (r : CopyRun) : M PUnit := do
  let pa ← locate (r.rowVa r.dst none 0 r.unit) .both .x
  trapIf (place pa != Place.dram) .operand
  let ws := words32 (← readRow r (r.rowVa r.src none r.src.rowlen r.unit) r.src.rowlen)
  let store := ws.drop 16
  trapIf (!store.all moveOk || !(ws.take 16).all (entryOk store)) .operand
  modify fun (s : State) =>
    let u := s.unit (unitOf pa)
    let before := ((s.stack (channelOf pa / 8)).waiting.filter fun q => q.unit == unitOf pa).length
    s.setUnit (unitOf pa) { u with uploads := u.uploads ++ [(before, ws)] }
  nextUnit r

/-! ## Timetables (R300-R302) -/

/-- The fields of a timetable entry (Table 106). -/
def entryKind (w : Word) : Nat := fld w.toNat 60 4
def entryGroups (w : Word) : Nat := fld w.toNat 52 8
def entryStart (w : Word) : Nat := fld w.toNat 48 4
def entryKeep (w : Word) : Bool := bit w.toNat 40
def entryLine (w : Word) : Nat := fld w.toNat 16 24
def entryDur (w : Word) : Nat := fld w.toNat 0 16

/-- Whether an entry breaks Table 106 or R301. -/
def entryBad (w : Word) : Bool :=
  decide (2 < entryKind w) || fld w.toNat 41 7 != 0 || entryDur w == 0
    || (if entryKind w = 1 then entryGroups w == 0 else entryGroups w != 0)
    || entryKind w == 2 && decide (entryDur w < 96)

/-- The nominal starts of the REFRESH entries from `at_` on. -/
def refreshStarts : Nat → List Word → List Nat
  | _, [] => []
  | at_, w :: ws =>
    if entryKind w = 2 then at_ :: refreshStarts (at_ + entryDur w) ws else refreshStarts (at_ + entryDur w) ws

/-- Whether a timetable has refreshes close enough together around its loop (R301). -/
def refreshOk (ws : List Word) : Bool :=
  match refreshStarts 0 ws with
  | [] => false
  | a :: rest =>
    let round := (ws.map entryDur).sum
    ((a :: rest).zip (rest ++ [a + round])).all fun p => decide (p.2 - p.1 ≤ 3120)

/-- X.BANKT (R302). -/
def execXBankt (a d : BitVec 4) (l : BitVec 3) (c : BitVec 4) (v : Bool) (s : State) : Host.Outcome State Fault Refusal :=
  rowsWord (.xBankt a d l c v)
    (fun x y _ => !x.plain || y.kind != 0 || x.rowlen % 8 != 0 || x.rowlen == 0 || decide (8192 < x.rowlen)
      || y.aux == 0 || y.aux.toNat % 2 ^ 19 != 0)
    (fun _ _ => 0) (fun _ _ => 0) (fun _ t => t) s

/-- n pages of 512 KiB from an address, each translated with R and W: virtual and physical addresses (R302). -/
def windowFrames : Nat → Word → M (List (Nat × Nat))
  | 0, _ => pure []
  | n + 1, va => do
    let pa ← locate va .both .x
    return (va.toNat, pa) :: (← windowFrames n (va + 0x80000))

/-- Unit t of X.BANKT: a timetable and its windows are loaded into a channel (R302, R306). -/
def unitBankt (r : CopyRun) : M PUnit := do
  let va := r.rowVa r.dst none 0 r.unit
  if va.toNat % 2 ^ 19 ≠ 0 then xfail ⟨.align, 0, 9⟩ .both .x va
  let fs ← windowFrames (r.dst.aux.toNat / 2 ^ 19) va
  let ch := channelOf ((fs.map (·.2)).headD 0)
  trapIf (fs.any fun p => place p.2 != Place.dram || channelOf p.2 != ch) .operand
  let n := r.src.rowlen
  let ws := wordsOf (← readRow r (r.rowVa r.src none n r.unit) n) (n / 8)
  let k := (← get).chan ch
  trapIf (ws.any entryBad || !refreshOk ws || k.st == ChanState.armed || k.st == ChanState.running) .operand
  let ctx := (← here).job.ctx
  modify fun (s : State) => s.setChan ch { k with
    st := .loaded, table := ws, window := fs, ctx := ctx, revoked := false, group := 0, cause := 0, slip := 0, forced := 0
    owner := none, stopping := false, began := none }
  nextUnit r

/-! ## Starting and stopping (R303, R305) -/

/-- Words 2 and 3 of the descriptor that X.BANKGO names: PASSES, STOP, the start tick (R303). -/
def CopyRun.goWord (r : CopyRun) (n : Nat) : Nat := (r.words.getD n 0).toNat
def CopyRun.goPasses (r : CopyRun) : Nat := fld (r.goWord 2) 32 32
def CopyRun.goStop (r : CopyRun) : Bool := bit (r.goWord 2) 0

/-- The name under which an X.BANKGO owns the channels it arms: its task and its walk index. -/
def State.goOwner (s : State) (r : CopyRun) : Nat × Nat := (s.here.job.inst * 512 + s.cur, r.walk)

/-- X.BANKGO (R303): that every named channel is LOADED is checked at unit 0, behind the words before it. -/
def execXBankgo (a c : BitVec 4) (s : State) : Host.Outcome State Fault Refusal :=
  finish .x s ((do
    let r ← copyReady (.xBankgo a c)
    trapIf (r.channels.isEmpty || fld (r.goWord 2) 1 31 != 0 || !r.goStop && r.goPasses == 0) .operand
    startCopy r (if r.goStop then 1 else 2) false false).run s)

/-- Unit 0 of a starting X.BANKGO arms every channel before its start tick (R303); of a stopping one asks the running
ones to stop. Its channels' accesses are its own (R308). -/
def unitBankgo (r : CopyRun) : M PUnit := do
  let chs := r.channels
  let s : State ← get
  if r.goStop then
    set (chs.foldl (fun (t : State) n =>
      let k := t.chan n
      if k.st = .running then t.setChan n { k with stopping := true } else t) s)
  else
    let start := r.goWord 3
    trapIf (!chs.all fun n => (s.chan n).st == ChanState.loaded) .operand
    trapIf (decide (start ≤ s.stamp)) .schedmiss
    set (chs.foldl (fun (t : State) n => t.setChan n { (t.chan n) with
      st := .armed, passes := 0, start := start, goal := r.goPasses, owner := some (s.goOwner r), cls := r.cls
      who := s.whoOf s.cur, stopping := false }) s)
  onHere fun c => { c with lastIssue := s.stamp }
  setRun { r with unit := 1 }

/-- X.BANKGO completes once its channels have stopped; where one of them has faulted the word retires and raises REMOTE (R303,
R305). -/
def endBankgo (r : CopyRun) : M PUnit := do
  let chs := r.channels
  let s : State ← get
  if r.goStop then
    needs (chs.all fun n => !((s.chan n).st == ChanState.running && (s.chan n).stopping))
    dropRun r
  else
    let mine := chs.filter fun n => (s.chan n).owner == some (s.goOwner r)
    needs (mine.all fun n => (s.chan n).st != ChanState.armed && (s.chan n).st != ChanState.running && !s.waveBusy n)
    dropRun r
    if mine.any fun n => (s.chan n).st == ChanState.fault then throw (Stop.trapNext { cause := .remote })

/-- BANKGO_COMPLETE: the first X.BANKGO in flight that waits for its channels completes when they have stopped. -/
def execBankgoComplete (s : State) : Host.Outcome State Fault Refusal :=
  finish .x s ((do
    let c ← here
    taskReady c
    match c.cpy.runs.find? fun (r : CopyRun) => r.passed with
    | some r => endBankgo r
    | none => await).run s)

end Sys2Proof.Machine
end

