-- ==== Sys2Proof/Machine/Search.lean ====
section
/-! DEFINITION. Searches of the vector index, merges of its log, and streams of attention blocks (11 R335-R354, 12 R442). -/

namespace Sys2Proof.Machine

/-! ## Accesses of the units that act for a waybill (12 R361, 14 R406) -/

/-- The unit that serves entry e fails at an address: its waybill takes the fault (12 R442). -/
def unitFails {α : Type} (c : Cause) (va : Word) : M α := throw (.trap { cause := c, fault := some (va, 0) })

/-- The place of an address in a context, for such a unit (08 R257). -/
def unitPlace (ctx : Nat) (va : Word) (n : Need) : M Nat := do
  match (← get).translate ctx va.toNat n with
  | .ok pa => return pa
  | .error f =>
    modify fun (s : State) => match badTable s ctx va.toNat with | some a => s.countFound f.cause (some a) | none => s
    unitFails f.cause va

/-- An access of n bytes at pa, logged or gated under the launching task's mode, and charged (14 R406, R410, 10 R311). -/
def unitGo (who : LogWho) (e pa n : Nat) : M PUnit := do
  let s : State ← get
  needs (s.logRoom who pa n)
  match s.ordered who pa n with
  | some t => set ((t.passGate (entryGate e) pa).chargeDram pa n)
  | none => throw (.gate pa)

/-- Bytes within one grain read by such a unit: verified, what it meets counted (14 R418). -/
def unitLoad (who : LogWho) (e pa n : Nat) (va : Word) : M (List Byte) := do
  unitGo who e pa n
  match (readAt pa n).run (← get) with
  | .ok bs t =>
    set t
    return bs
  | .error (.trap x) t =>
    set (t.countFound x.cause (some pa))
    unitFails x.cause va
  | .error _ _ => unitFails .uncorr va

/-- Bytes of a context read by such a unit, grain by grain. -/
def unitLoads (who : LogWho) (e ctx : Nat) (va : Word) (n : Nat) : M (List Byte) :=
  (grainParts va.toNat n).foldlM (fun acc p => do
    let pa ← unitPlace ctx (word p.1) .read
    return acc ++ (← unitLoad who e pa p.2 (word p.1))) []

/-- Bytes within one grain written by such a unit; a bad grain covered in part stays so and is counted (14 R417). -/
def unitStore (who : LogWho) (e pa : Nat) (bs : List Byte) : M PUnit := do
  unitGo who e pa bs.length
  modify fun (s : State) => s.countMet pa bs.length
  writeAt pa bs

/-- A search or a stream ends with a fault: it is put on record, the action of its context decides whether a header is
forwarded, the waybill ends KILLED (12 R442, 14 R409). -/
def State.failDevice (s : State) (e : Nat) (why : Cause) (fault : Word) : State :=
  let c := s.score e
  let a := s.actionEntry c.wb.ctx why.code
  let status := statusWord 0 0 3 why.code 0
  let header : List Word := [status, handleOf e c, 0, 0, fault, 0, if c.wb.kind = 2 then c.wb.addr else 0, 0]
  let mode := match c.search with | some x => x.who.mode | none => c.mode
  let s := s.recordAction e mode status
  let s := if actionOk a ∧ fld a 62 2 = 3 ∧ s.registered (fld a 32 12) c.wb.ctx then
      s.post { serai := fld a 32 12, source := 4, payload := header }
    else s
  let s := (s.dropPins e).leaveGates (entryGate e)
  (s.setScore e { (s.score e) with killed := some why }).endWaybill e

/-- How an action of the unit that serves entry e ends the step. -/
def finishDevice (e : Nat) (s : State) (r : EStateM.Result Stop State PUnit) : Host.Outcome State Fault Refusal :=
  let fail := fun (t : State) (x : Trap) => did (t.failDevice e x.cause (match x.fault with | some f => f.1 | none => 0))
  match r with
  | .ok _ t => did t
  | .error (.trap x) t => fail t x
  | .error (.trapAfter x) t => fail t x
  | .error (.trapNext x) t => fail t x
  | .error (.trapTile _) _ => idle s
  | .error .wait _ => idle s
  | .error .waitWith t => did t
  | .error (.gate loc) _ => if s.atGate (entryGate e) loc then idle s else did (s.waitGate (entryGate e) loc)
  | .error (.fault f) _ => .fault f

/-! ## Records and scores (R336, R337) -/

/-- The signed elements of a vector. -/
def signedElems (e : Nat) (bs : List Byte) : List Int :=
  (List.range (bs.length / e)).map fun i => sext (8 * e) (leNat ((bs.drop (e * i)).take e))

/-- The score of a stored vector against a query, exact (R337). -/
def scoreOf (l2 : Bool) (q x : List Int) : Int :=
  let ps := q.zip x
  if l2 then -((ps.map fun p => (p.1 - p.2) * (p.1 - p.2)).sum) else (ps.map fun p => p.1 * p.2).sum

/-- Rank order: greater score, then lower id (R337). -/
def rankBefore (a b : Int × Nat) : Bool := decide (b.1 < a.1) || decide (a.1 = b.1) && decide (a.2 < b.2)
def insertRank (a : Int × Nat) : List (Int × Nat) → List (Int × Nat)
  | [] => [a]
  | b :: l => if rankBefore a b then a :: b :: l else b :: insertRank a l
def ranked (l : List (Int × Nat)) : List (Int × Nat) := l.foldr insertRank []

/-- Byte offset in a region of record v of an area, and the page that holds it (R336). -/
def IndexHead.recOff (h : IndexHead) (first v : Nat) : Nat := first * pageBytes + v * 2 ^ h.reclog
def IndexHead.recPage (h : IndexHead) (first v : Nat) : Nat := h.recOff first v / pageBytes

/-- What a merge has made of an id, if one has touched it (R340). -/
def Version.find (v : Version) (id : Nat) : Option (Option (List Byte)) := (v.changed.find? fun p => p.1 == id).map (·.2)

/-- The vector of an id of a GRAPH index in a version; a removed id has none (R336, R340). -/
def State.nodeVector (s : State) (r : Region) (h : IndexHead) (v : Nat) : Option (List Int) :=
  match r.cur.find v with
  | some x => x.map (signedElems h.e)
  | none => if v < h.n then some (signedElems h.e (s.flashBytes r (h.recOff h.nodepg v) (h.dim * h.e))) else none

/-- The neighbours of a node in a version: those of its record, then what each merge has chosen (R336, R340, log 14). -/
def State.neighbours (s : State) (r : Region) (h : IndexHead) (u : Nat) : List Nat :=
  let base := match r.cur.find u with
    | some _ => []
    | none => ((List.range h.degree).map fun i => s.flashNat r (h.recOff h.nodepg u + h.dim * h.e + 4 * i) 4).filter (· < h.n)
  let all := r.cur.choices.foldl (fun l c => (Config.mergeNeighbours c u l).take h.degree) base
  all.filter fun v => v != 0xFFFFFFFF && (s.nodeVector r h v).isSome

/-- The members of list l in a version, as pairs of vector and id (R336, R340). -/
def State.listMembers (s : State) (r : Region) (h : IndexHead) (l : Nat) : List (List Int × Nat) :=
  let t := h.listpg * pageBytes + 16 * l
  let first := s.flashNat r t 8
  let count := s.flashNat r (t + 8) 4
  let base := (List.range (min count (h.n - first))).map fun i =>
    let o := h.recOff h.nodepg (first + i)
    (signedElems h.e (s.flashBytes r o (h.dim * h.e)), s.flashNat r (o + h.dim * h.e) 4)
  let moved := r.cur.changed.filterMap fun p =>
    match p.2 with
    | some bs => if Sparse.get h.entry r.cur.moved p.1 = l then some (signedElems h.e bs, p.1) else none
    | none => none
  (base.filter fun m => (r.cur.find m.2).isNone) ++ moved

/-- The centroids of a LISTS index in rank order against a query (R338). -/
def State.centroids (s : State) (r : Region) (h : IndexHead) (q : List Int) : List (Int × Nat) :=
  ranked ((List.range h.entry).map fun c =>
    (scoreOf h.l2 q (signedElems h.e (s.flashBytes r (h.recOff h.centpg c) (h.dim * h.e))), c))

/-! ## SEARCH (R342-R347) -/

/-- The fields of a SEARCH descriptor that break Table 126. -/
def searchBad (d : List Word) : Bool :=
  let f := fun (i lo n : Nat) => fld (d.getD i 0).toNat lo n
  f 0 8 56 != 0 || f 2 48 16 != 0 || f 4 13 51 != 0 || f 5 8 56 != 0 || (d.drop 6).any (· != 0)
    || f 2 32 16 == 0 || f 2 16 16 == 0 || decide (256 < f 2 16 16) || f 2 0 16 == 0 || decide (256 < f 2 0 16)
    || f 3 0 8 != 0 || f 4 12 1 == 0 && f 4 0 12 != 0

/-- The 64 bytes of a slot header (Table 128). -/
def slotHeader (status cause count seq requeues hops version logseq : Nat) (slot : Word) : List Word :=
  [word (status * 2 ^ 60 + cause * 2 ^ 52 + count), word seq, word (requeues % 2 ^ 32 * 2 ^ 32 + hops), word version, word logseq,
   slot, 0, 0]

/-- The doublewords of a list, little-endian. -/
def dwordBytes (ws : List Word) : List Byte := (ws.map fun (w : Word) => leBytes 8 w.toNat).flatten

/-- The index as a version number of a region stands, if it is readable: the current one, or one that a search in flight holds
(R341). -/
def State.readable (s : State) (no v : Nat) : Option Region :=
  let r := s.region no
  if r.version = v then some r
  else (s.liveScores.filterMap fun p => match p.2.search with
    | some x => if x.region = no ∧ x.version = v ∧ !x.stale then some { x.reg with log := r.log, logpos := r.logpos } else none
    | none => none).head?

/-- The snapshot a search takes: version, log position, the index it searches (none when the version is retired), and in replay
the record it consumes (R346, 14 R411). -/
def State.snapshot (s : State) (no : Nat) (key : Word) : Option (Nat × Nat × Option Region × Option Nat) :=
  let r := s.region no
  if s.here.job.recmode = 2 ∧ !s.records.released then
    (s.nextRecord r.die fun t b => t == 11 && b.getD 0 0 == key).bind fun x =>
      let v := (x.2.2.getD 1 0).toNat
      let l := (x.2.2.getD 2 0).toNat
      if r.version < v ∨ r.logpos < l then none else some (v, l, s.readable no v, some x.1)
  else some (r.version, r.logpos, some r, none)

/-- Every page of n bytes from an address translates (R346). -/
def checkPages (need : Need) : Nat → Word → M PUnit
  | 0, _ => pure ()
  | n + 1, va => do
    let _ ← locate va need .s
    checkPages need n (word (va.toNat / 2 ^ 19 * 2 ^ 19 + 2 ^ 19))

/-- SEARCH (R342-R347). -/
def execSearch (a : BitVec 5) (c : BitVec 4) (s : State) : Host.Outcome State Fault Refusal :=
  leavingWord (.search a c) (do
    let va ← item a
    let cls := c.toNat
    aligned va 128 .read .s
    let d := wordsOf (← readVa va 128 cls) 16
    let f := fun (i lo n : Nat) => fld (d.getD i 0).toNat lo n
    trapIf (searchBad d) .operand
    let s0 : State ← get
    let ctx := s0.here.job.ctx
    let no := f 0 0 8
    let r := s0.region no
    trapIf (!r.valid || !r.index) .operand
    trapIf (r.ctx != ctx || !r.r) .protect
    let post := f 4 12 1 == 1
    trapIf (post && !s0.registered (f 4 0 12) ctx) .operand
    let ring := d.getD 3 0
    trapIf ring.msb .operand
    let h := wordsOf (← readVa ring 64 cls) 8
    let claim := (h.getD 0 0).toNat
    let cons := (h.getD 1 0).toNat
    let geo := (h.getD 2 0).toNat
    let m := fld geo 36 12 + 1
    let slotg := fld geo 0 8
    trapIf (decide (claim < cons) || decide (m < claim - cons) || fld geo 48 16 != 0 || fld geo 8 28 != 0
      || (h.drop 3).any (· != 0)) .qfault
    trapIf (decide (256 * slotg < 64 + 16 * f 2 0 16)) .operand
    let x := s0.indexHead r
    let qva := d.getD 1 0
    trapIf (qva.toNat % x.e != 0) .operand
    let q ← readVa qva (x.dim * x.e) cls
    let first := ring + 256
    checkPages .write ((first.toNat % 2 ^ 19 + 256 * slotg * m + 2 ^ 19 - 1) / 2 ^ 19) first
    needs (decide (claim - cons < m))
    let slot := ring + word (256 + 256 * slotg * (claim % m))
    let head ← locate ring .write .s
    mayGo cls head 16 { w := true }
    passHome head 8
    writeChecked head (leBytes 8 (claim + 1))
    let loc ← locate slot .write .s
    mayGo cls loc 64 { w := true }
    passHome loc 64
    writeChecked loc (dwordBytes (slotHeader 0 0 0 claim 0 0 0 0 slot))
    let s : State ← get
    let key := launchKey s.cur s.here
    let mode := s.here.job.recmode
    let w : Waybill := { kind := 1, ctx := ctx, prio := f 5 0 8, record := mode != 0 }
    accessGo { walk := s.here.sc.ctr.walk, cls := cls, home := some (.region no r.die) }
    let die := if bit s.sched.fenced.toNat r.die then s.sched.master else r.die
    let e ← enterScore w die
    match s.snapshot no key with
    | none => await
    | some (v, l, src, k) =>
      let search : Search := {
        region := no, reg := src.getD r, stale := src.isNone, version := v, logseq := l, query := q, hopsMax := f 2 32 16
        beam := f 2 16 16, k := f 2 0 16, slot := slot, claim := claim, post := if post then some (f 4 0 12) else none
        cls := cls, who := ⟨mode, 0x188 + r.channels.headD 0 / 16, 0⟩ }
      modify fun (t : State) =>
        let t := t.setScore e { (t.score e) with st := .running, search := some search, after := none, live := mode == 1 }
        let t := if mode = 1 then t.dispatch r.die 11 [key, word v, word l] else t
        match k with | some k => t.takeRecord r.die k | none => t
    return { items := [word claim] }) s

/-! ## Hops (R338) -/

/-- Whether a search has no expansion left to make. -/
def Search.spent (x : Search) (graph : Bool) : Bool :=
  x.stale || x.begun && (!graph || decide (x.hopsMax ≤ x.hops) || !x.pool.any fun p => !x.expanded.contains p.2)

/-- The first member of the pool that is not expanded (R338); the pool stands in rank order. -/
def Search.nextNode (x : Search) : Option Nat := (x.pool.find? fun p => !x.expanded.contains p.2).map (·.2)

/-- Hops that a search has made. -/
def Search.progress (x : Search) : Nat := x.hops + x.begun.toNat

/-- The pages of the region that a hop of a search reads (R336). -/
def State.hopPages (s : State) (x : Search) (h : IndexHead) : List Nat :=
  let r := x.reg
  let page := fun (v : Nat) => if (r.cur.find v).isSome ∨ h.n ≤ v then [] else [h.recPage h.nodepg v]
  if h.graph then
    if !x.begun then page h.entry
    else match x.nextNode with
      | some u => page u ++ (s.neighbours r h u).flatMap page
      | none => []
  else
    let q := signedElems h.e x.query
    let lists := ((s.centroids r h q).take x.beam).map (·.2)
    (List.range h.entry).map (h.recPage h.centpg) ++
      lists.flatMap fun l =>
        let t := h.listpg * pageBytes + 16 * l
        let first := s.flashNat r t 8
        t / pageBytes :: (List.range (min (s.flashNat r (t + 8) 4) (h.n - first))).map fun i => h.recPage h.nodepg (first + i)

/-- A hop of a search made (R338): the start of the pool, one expansion, or the whole of a LISTS search. -/
def State.hop (s : State) (x : Search) (h : IndexHead) : Search :=
  let r := x.reg
  let q := signedElems h.e x.query
  let score := fun (v : Nat) => (s.nodeVector r h v).map fun vec => (scoreOf h.l2 q vec, v)
  if !h.graph then
    let lists := ((s.centroids r h q).take x.beam).map (·.2)
    { x with begun := true, pool := lists.flatMap fun l => (s.listMembers r h l).map fun m => (scoreOf h.l2 q m.1, m.2) }
  else if !x.begun then { x with begun := true, pool := (score h.entry).toList, seen := [h.entry] }
  else
    match x.nextNode with
    | none => x
    | some u =>
      let new := (s.neighbours r h u).eraseDups.filter fun v => !x.seen.contains v
      let pool := (ranked (x.pool ++ new.filterMap score)).take (max x.beam x.k)
      { x with pool := pool, seen := x.seen ++ new, expanded := x.expanded ++ [u], hops := x.hops + 1 }

/-- REQUEUE records of the retries of one hop, in record mode (R330, 14 Table 156). -/
def State.requeue (s : State) (key : Word) (x : Search) : Nat → State
  | 0 => s
  | n + 1 => ((if x.who.mode = 1 then s.dispatch x.reg.die 3 [key, word x.hops] else s).requeue key x n)

/-- The result entries of a slot, zero from COUNT on (R345). -/
def resultBytes (k : Nat) (l : List (Int × Nat)) : List Byte :=
  (List.range k).flatMap fun i => match l[i]? with
    | some p => leBytes 8 (BitVec.ofInt 64 p.1).toNat ++ leBytes 8 (p.2 % 2 ^ 32)
    | none => leBytes 16 0

/-- A search is over: its slot is to be written, the entries first and then the header (R346, R347). -/
def State.beginEnd (s : State) (e : Nat) (x : Search) (status : Nat) (why : Option (Cause × Word)) (l : List (Int × Nat)) : State :=
  let cause := match why with | some w => w.1.code | none => 0
  let header := slotHeader status cause l.length x.claim x.requeues x.hops x.version x.logseq x.slot
  let results := resultBytes x.k l
  let at_ := x.slot.toNat + 64
  let parts := (grainParts at_ results.length).map fun p => (word p.1, (results.drop (p.1 - at_)).take p.2)
  let d : Ending := { why := why, header := header, parts := parts ++ [(x.slot, dwordBytes header)] }
  s.setScore e { (s.score e) with search := some { x with ending := some d } }

/-- The end of a search whose slot is written: its post, and the end of its waybill (R346). -/
def State.closeSearch (s : State) (e : Nat) (x : Search) (d : Ending) : State :=
  let t := match x.post with
    | some n => s.post { serai := n, source := 2, payload := d.header }
    | none => s
  match d.why with
  | some w => t.failDevice e w.1 w.2
  | none => t.endWaybill e

/-- The next part of a search's slot is written; a slot that can no longer be written ends the search with the fault (R346). -/
def slotPart (e : Nat) (x : Search) (d : Ending) : M PUnit :=
  match d.parts with
  | [] => modify fun (s : State) => s.closeSearch e x d
  | p :: ps => do
    let pa ← unitPlace ((← get).score e).wb.ctx p.1 .write
    unitStore x.who e pa p.2
    modify fun (s : State) =>
      let d' := { d with parts := ps }
      let t := s.setScore e { (s.score e) with search := some { x with ending := some d' } }
      if ps.isEmpty then t.closeSearch e x d' else t

/-- The flash controller at which the next hop of a search waits (R334, R338): that of the first page it reads. -/
def State.hopAt (s : State) (x : Search) (h : IndexHead) : Nat :=
  match s.hopPages x h with
  | p :: _ => x.reg.pageKey p / 14000000 / 16
  | [] => x.reg.channels.headD 0 / 16

/-- The hops queued at a controller: entry, launch, hops made before (R348). -/
def State.hopsQueued (s : State) (ctrl : Nat) : List (Nat × Nat × Nat) :=
  s.liveScores.filterMap fun p => p.2.search.bind fun x =>
    let h := s.indexHead x.reg
    if x.ending.isNone ∧ !x.spent h.graph ∧ s.hopAt x h = ctrl then some (p.1, p.2.seq, x.progress) else none

/-- Whether both traversal cores of a controller run functions, behind which a hop waits (R348). -/
def State.hopBlocked (s : State) (ctrl : Nat) : Bool :=
  (s.core (traversalKey (2 * ctrl))).runner.isSome && (s.core (traversalKey (2 * ctrl + 1))).runner.isSome

/-- SEARCH_HOP (R330, R338, R348): `fails` reads of the hop's pages failed before they succeeded, at most seven of each; a
page that cannot be read ends the search, and is counted where it lies (14 R418). -/
def execSearchHop (search fails : Nat) (s : State) : Host.Outcome State Fault Refusal :=
  match (s.score search).search with
  | none => idle s
  | some x =>
    let h := s.indexHead x.reg
    if x.ending.isSome ∨ x.spent h.graph ∨ 7 * (s.hopPages x h).length < fails ∨ s.hopBlocked (s.hopAt x h) then idle s
    else
      match (s.hopPages x h).findSome? fun p => ((s.page (x.reg.pageKey p)).fault).map fun c => (c, p) with
      | some (c, p) =>
        did ((s.countBad x.reg.die c).beginEnd search x 2 (some (c, word (x.region * 2 ^ 42 + p * pageBytes))) [])
      | none =>
        let t := s.requeue (s.score search).key x fails
        did (t.setScore search { (t.score search) with search := some { (s.hop x h) with requeues := x.requeues + fails } })

/-- The greatest score of each id (R339). -/
def bestOf (l : List (Int × Nat)) : List (Int × Nat) :=
  (ranked l).foldl (fun acc p => if acc.any fun q => q.2 == p.2 then acc else acc ++ [p]) []

/-- The log entries of a snapshot applied to the candidates (R339). -/
def applyLog (h : IndexHead) (q : List Int) (cand : List (Int × Nat)) (log : List (List Byte)) : List (Int × Nat) :=
  log.foldl (fun acc g =>
    let id := leNat (g.take 4)
    let rest := acc.filter fun p => p.2 != id
    if fld (leNat ((g.drop 4).take 4)) 0 1 = 1 then rest
    else rest ++ [(scoreOf h.l2 q (signedElems h.e (g.drop 8)), id)]) cand

/-- What a search finds: the log of its snapshot applied to its pool, the first K in rank order (R339). -/
def State.found (s : State) (x : Search) : List (Int × Nat) :=
  let h := s.indexHead x.reg
  let log := (x.reg.log.take x.logseq).drop x.reg.merged
  (ranked (applyLog h (signedElems h.e x.query) (bestOf x.pool) log)).take x.k

/-- SEARCH_DONE (R339, R346): the traversal is over, or a part of its slot is written. -/
def execSearchDone (search : Nat) (s : State) : Host.Outcome State Fault Refusal :=
  match (s.score search).search with
  | none => idle s
  | some x =>
    match x.ending with
    | some d => finishDevice search s ((slotPart search x d).run s)
    | none =>
      if !x.spent (s.indexHead x.reg).graph then idle s
      else did (s.beginEnd search x (if x.stale then 3 else 1) none (if x.stale then [] else s.found x))

/-! ## Merges (R340) -/

/-- INDEX_MERGE_START (R340): a merge of the entries published so far begins, with its region's pages where they lie now
(R328). -/
def execIndexMergeStart (region : Nat) (s : State) : Host.Outcome State Fault Refusal :=
  let r := s.region region
  if r.index ∧ !r.hold ∧ r.merged < r.logpos ∧ r.merging.isNone then
    did (s.setRegion region { r with merging := some ⟨r.logpos, r.ctrl, r.base, r.pages⟩ })
  else idle s

/-- One log entry applied to an index (R340). -/
def State.mergeOne (s : State) (r : Region) (h : IndexHead) (v : Version) (g : List Byte) : Version :=
  let id := leNat (g.take 4)
  if fld (leNat ((g.drop 4).take 4)) 0 1 = 1 then { v with changed := v.changed.put id none, moved := v.moved.drop id }
  else
    let vec := g.drop 8
    let list := match s.centroids r h (signedElems h.e vec) with | c :: _ => c.2 | [] => 0
    { v with changed := v.changed.put id (some vec), moved := if h.graph then v.moved else v.moved.put id list }

/-- INDEX_MERGE_DONE (R340): version V + 1 stands, in one step. -/
def execIndexMergeDone (region : Nat) (s : State) : Host.Outcome State Fault Refusal :=
  let r := s.region region
  match r.merging with
  | none => idle s
  | some m =>
    let g := { r with ctrl := m.ctrl, base := m.base, pages := m.pages }
    let h := s.indexHead g
    let v := ((r.log.take m.upto).drop r.merged).foldl (fun v e => s.mergeOne g h v e) r.cur
    let v := { v with choices := v.choices ++ [s.fresh] }
    did { (s.setRegion region { r with version := r.version + 1, merged := m.upto, cur := v, merging := none }) with
          fresh := s.fresh + 1 }

/-! ## Streams (R351-R354) -/

/-- Whether a stream record breaks Table 130, or its queue Table 72 (R219, R351). -/
def streamBad (d : List Word) : Bool :=
  let f := fun (i lo n : Nat) => fld (d.getD i 0).toNat lo n
  f 0 0 4 != 0 || f 1 48 16 != 0 || f 1 16 16 != 0 || f 1 32 16 == 0 || f 1 0 16 == 0 || f 4 4 60 != 0 || (d.drop 5).any (· != 0)
    || (d.getD 3 0).msb || !geomOk (d.getD 2 0) (d.getD 3 0)

/-- The crew of D2's cluster holds a stream's queue: the place of one of its bytes, and its address. -/
def streamPad (off : Nat) : Nat := padLoc 8 off
def padVa (off : Nat) : Word := word (2 ^ 63 + off)

/-- Entry e's stream becomes x. -/
def State.setStream (s : State) (e : Nat) (x : Stream) : State := s.setScore e { (s.score e) with stream := some x }
def setStream (e : Nat) (x : Stream) : M PUnit := modify fun (s : State) => s.setStream e x

/-- The start of a stream: its record is read and checked, and its queue as QSET without INIT does (R351, 07 R219). -/
def startStream (e : Nat) (c : Score) : M PUnit := do
  let who : LogWho := ⟨c.mode, 0x181, 0⟩
  modify fun (s : State) => s.setScore e { (s.score e) with st := .running }
  let d := wordsOf (← unitLoads who e c.wb.ctx c.wb.entry 64) 8
  if streamBad d then unitFails .operand 0
  let ctl := fld (d.getD 2 0).toNat 0 26
  let geom := word (leNat (← unitLoad who e (streamPad (ctl + 16)) 8 (padVa (ctl + 16))))
  if geom != d.getD 3 0 || geom == 0 then unitFails .qfault 0
  setStream e {
    table := d.getD 0 0, tbytes := fld (d.getD 1 0).toNat 32 16, nent := fld (d.getD 1 0).toNat 0 16
    q := ⟨0, ctl, geom⟩, cls := fld (d.getD 4 0).toNat 0 4, who := who }

/-- STREAM_START (R351): a READY stream waybill starts while D2's crew is resident, behind the accesses that its launch orders
first (12 R363). -/
def execStreamStart (stream : Nat) (s : State) : Host.Outcome State Fault Refusal :=
  let c := s.score stream
  if c.st ≠ .ready ∨ c.wb.kind ≠ 2 ∨ (s.crew 8).resident.isNone ∨ s.sched.electing ∨ !s.launchClear c then idle s
  else finishDevice stream s ((startStream stream c).run s)

/-- Where a block in memory lies: translated whole, within one page, with R; and its frame when it needs a pin (R352). -/
def State.blockPlace (s : State) (ctx va n : Nat) : Option (Nat × Option Nat) :=
  match walk s ctx va with
  | .error _ => none
  | .ok l =>
    match leafCheck s (fillEntry s ctx va l) ctx va .read with
    | .error _ => none
    | .ok pa =>
      if va % l.2.1 + n ≤ l.2.1 then some (pa, if place pa = .dram ∧ l.2.1 = 2 ^ 19 then some (pa / 2 ^ 19) else none) else none

/-- A stream pin of a frame is taken: none while it has to wait, and whether the frame refuses it (08 R268). -/
def State.takePin (s : State) (f : Nat) : Option (Bool × State) :=
  let ft := (s.dword (frameAt s f)).toNat
  if ftCount ft = 0 ∨ ftFreeq ft then some (false, s)
  else if ftPins ft = 255 then none
  else some (true, s.writeWord (frameAt s f)
    (ftPack (ftCount ft) (ftPins ft + 1) false (ftRingq ft) (ftPlain ft) (ftOwner ft) ft))

/-- A stream reaches its next entry: it is pinned and checked in one action, its block is translated, its frame pinned (R352,
08 R268). -/
def pinEntry (e : Nat) (x : Stream) : M PUnit := do
  let ctx := ((← get).score e).wb.ctx
  let va := x.table + word (16 * x.entry)
  let pa ← unitPlace ctx va .both
  let bs ← unitLoad x.who e pa 16 va
  let a := word (leNat (bs.take 8))
  let b := word (leNat (bs.drop 8))
  let w := fld a.toNat 62 2
  let live := w == 1 || w == 2
  needs (!(live && fld b.toNat 24 8 == 255))
  let y := { x with held := if live then some (a, b) else none, copied := [] }
  if live then writeAt (pa + 8) (leBytes 8 (b + 0x1000000).toNat)
  setStream e y
  if !live || fld b.toNat 0 16 == 0 || fld a.toNat 52 10 != 0 || fld b.toNat 16 8 != 0 then unitFails .operand va
  let s : State ← get
  if w = 2 then setStream e { y with reg := some (s.region (fld a.toNat 42 8)) }
  else
    match s.blockPlace ctx (fld a.toNat 0 52) (fld b.toNat 0 16 * x.tbytes) with
    | none => unitFails .operand va
    | some (at_, none) => setStream e { y with block := at_ }
    | some (at_, some f) =>
      match s.takePin f with
      | none => await
      | some (true, t) => set (t.setStream e { y with block := at_, frame := some f })
      | some (false, _) => unitFails .protect va

/-- The bytes of a piece of a block in flash, page by page; a failing page or a refused address ends the stream (R329, R330,
R352). -/
def flashPiece (ctx : Nat) (r : Region) (a : Word) (done n : Nat) : M (List Byte) := do
  let off := fld a.toNat 0 42 + done
  let at_ := word (fld a.toNat 0 52)
  if !r.valid then unitFails .operand at_
  if r.ctx != ctx || !r.r then unitFails .protect at_
  if fld a.toNat 50 2 != 0 || decide ((if r.index then r.pages else min r.pages r.fill) ≤ (off + n - 1) / pageBytes) then
    unitFails .operand at_
  let s : State ← get
  let pages := (List.range ((off + n - 1) / pageBytes - off / pageBytes + 1)).map (· + off / pageBytes)
  match pages.findSome? fun p => ((s.page (r.pageKey p)).fault).map fun c => (c, p) with
  | some (c, p) =>
    set (s.countBad r.die c)
    unitFails c (word (fld a.toNat 42 8 * 2 ^ 42 + p * pageBytes))
  | none => return (List.range n).map fun i =>
      Sparse.get (0 : Byte) (s.page (r.pageKey ((off + i) / pageBytes))).bytes ((off + i) % pageBytes)

/-- The next bytes of a piece of which n are missing: those of a grain of the block in memory, or all from flash. -/
def pieceBytes (e : Nat) (x : Stream) (a : Word) (n : Nat) : M (List Byte) := do
  let done := x.copied.length + x.got.length
  match x.reg with
  | some r => flashPiece ((← get).score e).wb.ctx r a done n
  | none => unitLoad x.who e (x.block + done) (min n (256 - (x.block + done) % 256)) (word (fld a.toNat 0 52 + done))

/-- A stream claims a producer slot of its queue (07 R220). -/
def claimPiece (e : Nat) (x : Stream) : M PUnit := do
  let p := leNat (← unitLoad x.who e (streamPad x.q.ctl) 8 (padVa x.q.ctl))
  let c := leNat (← unitLoad x.who e (streamPad (x.q.ctl + 8)) 8 (padVa (x.q.ctl + 8)))
  if p < c ∨ geomSlots x.q.geom < p - c then unitFails .qfault 0
  needs (decide (p - c < geomSlots x.q.geom))
  setStream e { x with claim := some p }

/-- A piece whose slot is written is published; the last one of a block is checked first (R352, R354). -/
def publishPiece (e : Nat) (x : Stream) (a b : Word) (p : Nat) : M PUnit := do
  let all := x.copied ++ x.got
  let last := decide (fld b.toNat 0 16 * x.tbytes ≤ all.length)
  if last && (crc32c all).toNat != fld b.toNat 32 32 then unitFails .hallmark (word (fld a.toNat 0 52))
  unitStore x.who e (streamPad x.q.ctl) (leBytes 8 (p + 1))
  setStream e { x with claim := none, got := [], put := 0, copied := all }

/-- A block is published whole: its pins drop, the entry's in one action at its home, and the stream goes on to the next (R352,
R353). -/
def unpinEntry (e : Nat) (x : Stream) : M PUnit := do
  let s : State ← get
  match s.translate (s.score e).wb.ctx (x.table.toNat + 16 * x.entry + 8) .write with
  | .ok pa => unitGo x.who e pa 8
  | .error _ => pure ()
  modify fun (t : State) =>
    (t.dropPins e).setStream e { x with entry := x.entry + 1, held := none, frame := none, reg := none, copied := [] }

/-- The pinned entry's block goes on: a slot is claimed, a grain of the piece read, a grain of the slot written with its tail
zero, the piece published, at the end the pins dropped (R352). -/
def copyPiece (e : Nat) (x : Stream) (a b : Word) : M PUnit :=
  let slot := geomBytes x.q.geom
  let n := fld b.toNat 0 16 * x.tbytes
  let size := min slot (n - x.copied.length)
  match x.claim with
  | none => if n ≤ x.copied.length then unpinEntry e x else claimPiece e x
  | some p =>
    if x.got.length < size then do
      let bs ← pieceBytes e x a (size - x.got.length)
      setStream e { x with got := x.got ++ bs }
    else if x.put < slot then do
      let bs := (x.got.drop x.put).take 256
      unitStore x.who e (streamPad (geomBase x.q.geom + p % geomSlots x.q.geom * slot + x.put))
        (bs ++ List.replicate (256 - bs.length) 0)
      setStream e { x with put := x.put + 256 }
    else publishPiece e x a b p

/-- STREAM_ENTRY: the walker pins its next entry, goes on with the pinned one's block, or has come to the end (R352, R354). -/
def execStreamEntry (stream : Nat) (s : State) : Host.Outcome State Fault Refusal :=
  match (s.score stream).stream with
  | none => idle s
  | some x =>
    match x.held with
    | some (a, b) => finishDevice stream s ((copyPiece stream x a b).run s)
    | none =>
      if x.nent ≤ x.entry then did ((s.leaveGates (entryGate stream)).endWaybill stream)
      else finishDevice stream s ((pinEntry stream x).run s)

end Sys2Proof.Machine
end

