-- ==== Sys2Proof/Machine/Calls.lean ====
section
/-! DEFINITION. Remote calls on their way: what a target decides of a call, starting it, answers and refusals, the reply
caches and the slots (10 R314-R326, 14 R411). -/

namespace Sys2Proof.Machine

/-! ## Slots (R314, R322, R325) -/

/-- The STATE code of a slot (Table 118). -/
def SlotState.code : SlotState → Nat
  | .free => 0 | .pending => 1 | .done => 2 | .fault => 3 | .refused => 4 | .lost => 5

/-- The call status item (Table 118). -/
def CallSlot.status (c : CallSlot) : Word :=
  if c.st = .free then 0
  else word (c.id * 2 ^ 44 + c.cause * 2 ^ 36 + c.count * 2 ^ 16 + c.sat.toNat * 2 ^ 8 + c.cached.toNat * 2 ^ 7 + c.st.code)

/-- y0 to y7 of a reply (R322). -/
def CallSlot.values (c : CallSlot) : List Word := (List.range 8).map fun i => if i < c.count then c.items.getD i 0 else 0

/-- The acknowledgement that consuming a slot sends (R320, R322). -/
def CallSlot.ack (c : CallSlot) : Option (Nat × Nat × Nat) :=
  if c.st = .done ∨ c.st = .fault ∨ c.st = .refused then some (c.target, c.ctx, c.id) else none

/-- A slot of a worker's task, wherever the task stands. -/
def State.slotAt (s : State) (core inst n : Nat) : Option CallSlot :=
  (s.workerOf core inst).map fun c => Sparse.get {} c.slots n

/-- A slot gets its outcome; one that asked for a serai is posted, and freed by the delivery (R325). -/
def State.settleSlot (s : State) (core inst n : Nat) (c : CallSlot) : State :=
  let s := s.mapSlot core inst n fun _ => c
  match c.serai with
  | some k => s.post {
      serai := k, source := 3, payload := c.status :: c.values, slot := some (inst * 512 + core, n), ack := c.ack }
  | none => s

/-! ## Targets -/

/-- The die whose ring a call's CALLSTART record stands in (14 R409). -/
def Call.die (c : Call) : Nat :=
  if c.kind = 0 then dieOfChannel (c.target / 8) else if c.kind = 1 then (if c.target < 8 then 0 else 1) else dieOf c.target

/-- The chunks of a call's CALLSTART record (14 Table 156). -/
def Call.chunks (c : Call) : List Word :=
  [word (c.kind * 2 ^ 62 + (if c.kind = 1 then c.target / 2 else c.target) * 2 ^ 52), word (c.id * 2 ^ 44 + c.ctx)]

/-- The call with a number. -/
def State.callAt (s : State) (id : Nat) : Option Call := (s.remote.calls.find? fun p => p.1 == id).map (·.2)

/-- The entry of a call's key in its target's reply cache (R320). -/
def State.cacheOf (s : State) (c : Call) : Option CacheEntry :=
  s.remote.cache.find? fun x => x.target == c.place && x.ctx == c.ctx && x.id == c.id

/-- Whether a bank unit is between commands and owes no upload (R299, R307). -/
def BankUnit.turns (b : BankUnit) : Bool := b.run.isNone && match b.uploads with | (0, _) :: _ => false | _ => true

/-- A command leaves the queue of stack k: the uploads of its unit that arrived after it have one command less before them
(R299). -/
def State.leaveStack (s : State) (k : Nat) (q : BankCmd) : State :=
  let st := s.stack k
  let i := (st.waiting.filter fun p => p.unit == q.unit).idxOf q
  let u := s.unit q.unit
  (s.setStack k { st with waiting := st.waiting.erase q }).setUnit q.unit
    { u with uploads := u.uploads.map fun p => (if i < p.1 then p.1 - 1 else p.1, p.2) }

/-- A call waits at no stack any longer. -/
def State.leaveQueue (s : State) (id : Nat) : State :=
  s.banks.stackTab.foldl (fun t p => match p.2.waiting.find? fun q => q.call == some id with
    | some q => t.leaveStack p.1 q
    | none => t) s

/-- A call holds nothing of its caller's behind it any more (R324). -/
def State.callDone (s : State) (id : Nat) (c : Call) : State :=
  s.mapWorker c.caller c.inst fun x =>
    ({ x with req := { x.req with path := x.req.path.filter fun p => p.act != .call id } } : Core).trimFences

/-- A call leaves: it is no longer held or waiting anywhere. -/
def State.dropCall (s : State) (id : Nat) : State :=
  let s := match s.callAt id with | some c => s.callDone id c | none => s
  let s := s.leaveQueue id
  { s with remote := { s.remote with calls := s.remote.calls.drop id } }

/-- A reply that no function made (R319, R320): a refusal, an answer from the cache, a fault before the first word. -/
def State.answer (s : State) (id : Nat) (c : Call) (st : SlotState) (cause : Nat) (sat cached : Bool) (items : List Word) : State :=
  let r : Reply := {
    caller := c.caller, slot := c.slot, inst := c.inst, id := c.id, stamp := c.stamp, st := st, cause := cause, sat := sat,
    cached := cached, items := items, count := items.length, sent := s.stamp, target := c.place }
  let s := s.dropCall id
  { s with remote := { s.remote with replies := s.remote.replies.put s.remote.next r, next := s.remote.next + 1 } }

/-- A call's entry in its target's reply cache (R320). -/
def State.cacheCall (s : State) (c : Call) (reply : Option (SlotState × Nat × Bool × List Word × Nat)) : State :=
  let x : CacheEntry := { target := c.place, ctx := c.ctx, id := c.id, reply := reply, stamp := c.stamp }
  { s with remote := { s.remote with cache := x :: s.remote.cache } }

/-- The latest attempt found the entry of its key (R320). -/
def State.touchCache (s : State) (c : Call) : State :=
  let cache := s.remote.cache.map fun x =>
    if x.target == c.place && x.ctx == c.ctx && x.id == c.id then { x with stamp := max x.stamp c.stamp } else x
  { s with remote := { s.remote with cache := cache } }

/-! ## What a target decides (R317-R320) -/

/-- What a call meets at its target. -/
inductive Plan where
  | wait
  | discard
  | found
  | cached (x : SlotState × Nat × Bool × List Word × Nat)
  | refuse (why : Nat)
  | fault (c : Cause)
  | bank (entry : Nat)
  | text (va : Word) (page size : Nat)
deriving DecidableEq, Repr

/-- The function of a call at a bank unit (R317). -/
def State.planBank (s : State) (c : Call) : Plan :=
  let u := s.unit c.target
  match u.entries.getD c.func none with
  | none => .refuse 1
  | some e => if ((u.store[e]?).bind claspLabel) = some (BitVec.ofNat 16 c.label) then .bank e else .refuse 2

/-- The first word of a function at a traversal core or a core (R317, R318). -/
def State.planWord (s : State) (c : Call) (va : Nat) : Plan × State :=
  match s.translate c.ctx va .exec, walk s c.ctx va with
  | .error f, _ => (.fault f.cause, s)
  | _, .error f => (.fault f.cause, s)
  | .ok pa, .ok l =>
    match s.unitRead pa 4 with
    | (.error f, t) => (.fault f.cause, t)
    | (.ok bs, t) =>
      match decode (wordOfBytes bs) with
      | .instr (.clasp x) => (if x.toNat = c.label then .text (word va) (va / l.2.1 * l.2.1) l.2.1 else .refuse 2, t)
      | _ => (.refuse 2, t)

/-- The function of a call at a traversal core or a core, by its context's table (R317), and the state after the reads. -/
def State.planText (s : State) (c : Call) : Plan × State :=
  let k := s.ctx c.ctx
  if k.rftCount ≤ c.func then (.refuse 1, s)
  else
    match s.devRead c.ctx (k.rftBase.toNat * 8 + 8 * c.func) with
    | (.error f, t) => (.fault f.cause, t)
    | (.ok e, t) => if !e.msb then (.refuse 1, t) else t.planWord c (fld e.toNat 0 52)

/-- The key of the core that runs a function (R317). -/
def Call.runner (c : Call) : Nat := if c.kind = 1 then traversalKey c.target else runnerKey c.target

/-- Whether the target can turn to a call now: the unit is between commands, no function runs on the core, its worker is
between scalar words (R307, R317). -/
def State.targetFree (s : State) (c : Call) : Bool :=
  if c.kind = 0 then (s.unit c.target).turns
  else (s.core c.runner).runner.isNone && (c.kind == 1 || (s.core c.target).sc.pend.isNone)

/-- What the dispatch records say of a recorded call in replay (14 R411): it is the one that its die's next CALLSTART names, the
ring holds none, or another one is named. -/
inductive CallRecord where
  | free
  | next (k : Nat)
  | empty
  | other
deriving DecidableEq, Repr

def State.callRecord (s : State) (c : Call) : CallRecord :=
  if c.who.mode ≠ 2 ∨ s.records.released then .free
  else
    match s.nextRecord c.die fun t _ => t == 8 with
    | none => .empty
    | some (k, _, b) => if b = c.chunks then .next k else .other

/-- Whether an earlier access of its caller still holds a call back (R324). -/
def State.callWaits (s : State) (id : Nat) (c : Call) : Bool :=
  match s.withWorker c.caller c.inst with
  | some t => t.callHeld c.caller id
  | none => false

/-- Whether a call is at its target: nothing of its caller's holds it, the acknowledgements that its worker sent before have
arrived, and no search hop that was queued before it waits (R320, R324, 11 R348). -/
def State.callHere (s : State) (id : Nat) (c : Call) : Bool :=
  c.started.isNone && !s.callWaits id c && !(s.remote.acks.any fun p => p.2.1 == c.place) &&
    !(c.behind.any fun b => (s.hopsQueued (c.target / 2)).contains b)

/-- Whether the target may no longer start a call (R319). -/
def State.callOver (s : State) (c : Call) : Bool := decide (c.stamp + 16384 < s.stamp)

/-- What call c meets at its target now, and the state after the target's reads (R317-R320): a key found is not run again, and
waits for the reply of a first attempt that runs. -/
def State.plan (s : State) (id : Nat) (c : Call) : Plan × State :=
  if !s.callHere id c then (.wait, s)
  else
    match s.cacheOf c with
    | some x => (match x.reply with | some r => .cached r | none => if x.stamp < c.stamp then .found else .wait, s)
    | none =>
      let r := s.callRecord c
      if r = .other then (.discard, s)
      else if r = .empty ∨ s.callOver c ∨ !s.targetFree c then (.wait, s)
      else if c.kind = 2 ∧ ((s.core c.target).run = .idle ∨ (s.core c.target).job.ctx ≠ c.ctx) then (.refuse 4, s)
      else if 256 ≤ (s.remote.cache.filter fun x => x.target == c.place).length then (.refuse 3, s)
      else if c.kind = 0 then (s.planBank c, s)
      else s.planText c

/-! ## Starting (R307, R317) -/

/-- A call that starts takes its entry in the reply cache; the start is recorded, or consumes its record (R320, 14 R409,
R411). -/
def State.callStarts (s : State) (id : Nat) (c : Call) : State :=
  let s := (s.cacheCall c none).callDone id c
  let s := if c.who.mode = 1 then s.dispatch c.die 8 c.chunks else s
  let s := match s.callRecord c with
    | .next k => s.takeRecord c.die k
    | _ => s
  { s with remote := { s.remote with calls := s.remote.calls.put id { c with started := some s.stamp } } }

/-- A call starts on its bank unit with fresh state; the unit's own state is set aside (R307, R316, R317). -/
def State.startBank (s : State) (id : Nat) (c : Call) (entry : Nat) : State :=
  let s := s.callStarts id c
  let u := s.unit c.target
  let h0 : BitVec 512 := BitVec.ofNat 512 (leNat ((c.payload.map fun (w : Word) => leBytes 8 w.toNat).flatten))
  let line : BitVec 24 := BitVec.ofNat 24 (fld c.pa 6 24)
  s.setUnit c.target { u with
    st := { h := (List.replicate 8 0).set 0 h0, rcur := line, wcur := line }
    aside := some u.st, sat := false, pc := entry, rep := none
    run := some { started := s.stamp, window := [c.page], call := some id, cls := c.cls, who := c.who } }

/-- The upper half of a traversal core's memory reads as zero for the first call of another context (11 R348). -/
def State.freshTraversal (s : State) (t ctx : Nat) : State :=
  if (Sparse.get {} s.remote.traversal t).lastCtx = some ctx then s
  else
    let inHalf := fun (a : Nat) => decide (travLoc t 0x20000 ≤ a) && decide (a < travLoc t 0x40000)
    let mem := s.mem.filter fun p => !inHalf p.1
    let grains := s.grains.filter fun p => !inHalf (256 * p.1)
    { s with mem := mem, grains := grains,
             remote := { s.remote with traversal := s.remote.traversal.put t { lastCtx := some ctx } } }

/-- A call starts on a traversal core or a core (R317, R318). -/
def State.startText (s : State) (id : Nat) (c : Call) (va : Word) (page size : Nat) : State :=
  let s := s.callStarts id c
  let s := if c.kind = 1 then s.freshTraversal c.target c.ctx else s
  let k : Counter := { addr := va }
  s.setCore c.runner {
    run := .running, job := { ctx := c.ctx }, lastIssue := s.stamp, tlb := (s.core c.runner).tlb
    sc := { ctr := k, strand := c.payload }
    runner := some { call := id, page := page, size := size, started := s.stamp } }

/-- The entry of a call that ended before its first word holds its reply (R317). -/
def State.touchReply (s : State) (c : Call) (x : Cause) : State :=
  let cache := s.remote.cache.map fun y =>
    if y.target == c.place && y.ctx == c.ctx && y.id == c.id then { y with reply := some (.fault, x.code, false, [], 0) } else y
  { s with remote := { s.remote with cache := cache } }

/-- A call meets its target as plan p says; none when it waits. -/
def State.meet (s : State) (id : Nat) (c : Call) : Plan → Option State
  | .wait => none
  | .discard => some (s.dropCall id)
  | .found => some (s.touchCache c)
  | .cached r => some ((s.touchCache c).answer id c r.1 r.2.1 r.2.2.1 true r.2.2.2.1)
  | .refuse why => some (s.answer id c .refused why false false [])
  | .fault x => some (((s.callStarts id c).touchReply c x).answer id c .fault x.code false false [])
  | .bank e => some ((s.startBank id c e).leaveQueue id)
  | .text va p n => some (s.startText id c va p n)

end Sys2Proof.Machine
end

