-- ==== Sys2Proof/Machine/Bank.lean ====
section
/-! DEFINITION. Bank units: move words and trigger ports, commands and their ends (10 R293-R299, R307, R308), the issue of
commands at a stack (R310-R312), and timetables (R300-R306). -/

namespace Sys2Proof.Machine

/-! ## Ends of commands (R296, R305, R321) -/

/-- The command of unit u is over: the state a call set aside comes back; a timetable's channel notes the tick (R304,
R307). -/
def State.clearUnit (s : State) (u : Nat) : State :=
  let b := s.unit u
  match b.run with
  | none => s
  | some r =>
    let s := (s.setUnit u { b with run := none, rep := none, aside := none, st := b.aside.getD b.st }).leaveGates (unitGate u)
    if r.call.isSome then s else s.setChan (u / 8) { s.chan (u / 8) with doneAt := max (s.chan (u / 8)).doneAt s.stamp }

/-- The command of unit u faults: a call answers FAULT, a timetable's channel goes to FAULT (R296, R305). -/
def State.faultCommand (s : State) (u : Nat) (why : Cause) : State :=
  match (s.unit u).run with
  | none => s
  | some r =>
    match r.call with
    | some id => (s.sendReply id .fault why.code (s.unit u).sat []).clearUnit u
    | none =>
      let s := s.clearUnit u
      let c := s.chan (u / 8)
      if c.st = .running then
        (s.setChan (u / 8) { c with st := .fault, cause := why.code, group := u % 8 }).stopPeers c.owner
      else s

/-- How long a command may run: one that a call started, and a timetable's (R296, R319); whether it has run longer. -/
def UnitRun.limit (r : UnitRun) : Nat := if r.call.isSome then 32768 else 65536
def State.ranOver (s : State) (r : UnitRun) : Bool := decide (r.limit < s.stamp - r.started)

/-- The command of unit u ends at RET with value v (R294, R321); beyond its limit it faults (R296, R319). -/
def State.endCommand (s : State) (u : Nat) (v : BitVec 512) : State :=
  match (s.unit u).run with
  | none => s
  | some r =>
    if s.ranOver r then s.faultCommand u .watchdog
    else
    match r.call with
    | some id =>
      let items := (List.range 8).map fun i => v.extractLsb' (64 * i) 64
      (s.sendReply id .done 0 (s.unit u).sat items).clearUnit u
    | none => s.clearUnit u

/-! ## Lanes (R294, R297) -/

/-- Lane width, lanes of a value and a value of lanes in a MODE. -/
def laneSize (mode : Bool) : Nat := if mode then 16 else 8
def lanesIn (mode : Bool) (v : BitVec 512) : List Nat :=
  (List.range (if mode then 32 else 64)).map fun l => fld v.toNat (laneSize mode * l) (laneSize mode)
def fromLanes (mode : Bool) (xs : List Nat) : BitVec 512 :=
  BitVec.ofNat 512 ((xs.zip (List.range xs.length)).foldl (fun acc p => acc + p.1 % 2 ^ laneSize mode * 2 ^ (laneSize mode * p.2)) 0)

/-- An integer as the bits of a lane. -/
def toLane (n : Nat) (x : Int) : Nat := (BitVec.ofInt n x).toNat

/-- A result of two values, lane by lane, on signed lanes. -/
def laneWise (mode : Bool) (f : Int → Int → Int) (o v : BitVec 512) : BitVec 512 :=
  let n := laneSize mode
  fromLanes mode (((lanesIn mode o).zip (lanesIn mode v)).map fun p => toLane n (f (sext n p.1) (sext n p.2)))

/-- An arithmetic shift right by an unbounded amount (R297). -/
def shiftDown (x : Int) (a n : Nat) : Int := x / 2 ^ min a n

/-- Every product of a MAC added into its lane, clamped to 32 bits; and whether one was clamped (R297). -/
def macLanes (mode : Bool) (acc : List (BitVec 32)) (o v : BitVec 512) : List (BitVec 32) × Bool :=
  let n := laneSize mode
  let sums := ((lanesIn mode o).zip (lanesIn mode v)).zip acc |>.map fun p => sext n p.1.1 * sext n p.1.2 + p.2.toInt
  let out := sums.map fun x => clamp (-(2 ^ 31)) (2 ^ 31 - 1) x
  (out.map (BitVec.ofInt 32) ++ acc.drop sums.length, out != sums)

/-- Every lane of ACC shifted and clamped to the lane width; and whether one was clamped (R297). -/
def packLanes (mode : Bool) (acc : List (BitVec 32)) (a : Nat) : BitVec 512 × Bool :=
  let n := laneSize mode
  let xs := (acc.take (if mode then 32 else 64)).map fun x => shiftDown x.toInt a 32
  let out := xs.map fun x => clamp (-(2 ^ (n - 1))) (2 ^ (n - 1) - 1) x
  (fromLanes mode (out.map (toLane n)), out != xs)

/-! ## Ports (R294, R298) -/

/-- The unit whose turn it is, and a change to it. -/
def unitHere : M BankUnit := do
  let s : State ← get
  return s.unit s.curUnit
def onUnit (f : BankUnit → BankUnit) : M PUnit := modify fun (s : State) => s.setUnit s.curUnit (f (s.unit s.curUnit))
def onUnitState (f : UnitState → UnitState) : M PUnit := onUnit fun b => { b with st := f b.st }

/-- Whether the accesses of the X.BANKGO that owns channel ch, of kinds ks at loc, must wait for accesses of its worker that come
before it (R308, 09 R275). -/
def State.chanHeld (s : State) (ch loc len : Nat) (ks : Kinds) : Bool :=
  let c := s.chan ch
  match c.owner with
  | none => false
  | some (task, walk) =>
    let k := task % 512
    match s.withWorker k (task / 512) with
    | none => false
    | some t =>
      let run := ((t.core k).cpy.runs.find? fun (r : CopyRun) => r.walk == walk && r.passed).map (·.id)
      run.any fun n => t.held k {
        walk := walk, eng := .x, cls := c.cls, kinds := ks, home := some (.channel ch), loc := loc, len := len, run := n }

/-- Line U of the unit, for a COL access of kinds ks: inside the command's window, behind the accesses of its X.BANKGO's worker
that come first, logged and gated under the worker it acts for (R298, R308, 14 R406). A unit waits for room in its ring (14
R408). -/
def colLine (u : BitVec 24) (ks : Kinds) : M Nat := do
  let s : State ← get
  match (s.unit s.curUnit).run with
  | none => throw (.fault .noCommand)
  | some r =>
    let pa := s.curUnit * 2 ^ 30 + u.toNat * 64
    trapIf (!r.window.any fun w => decide (w.1 ≤ pa) && decide (pa < w.1 + w.2)) .protect
    needs (r.call.isSome || !s.chanHeld (s.curUnit / 8) pa 64 ks)
    needs (s.logRoom r.who pa 64)
    match s.ordered r.who pa 64 with
    | some t => set (t.passGate (unitGate s.curUnit) pa)
    | none => throw (.gate pa)
    return pa

/-- COL read: the whole grain is verified, and the cursor goes on (R298). -/
def colRead : M (BitVec 512) := do
  let b ← unitHere
  let pa ← colLine b.st.rcur readKinds
  let s : State ← get
  match s.verify pa 64 with
  | some c =>
    modify fun (s : State) => s.countBad (dieOfChannel (channelOf pa)) c
    trap c
  | none =>
    onUnitState fun x => { x with rcur := x.rcur + 1 }
    return BitVec.ofNat 512 (leNat (s.bytes pa 64))

/-- COL write: the line lands; a bad or poisoned grain stays so and then faults the command (R298). -/
def colWrite (v : BitVec 512) : M PUnit := do
  let b ← unitHere
  let pa ← colLine b.st.wcur writeKinds
  let s : State ← get
  set (s.write pa (leBytes 64 v.toNat))
  onUnitState fun x => { x with wcur := x.wcur + 1 }
  match s.verify pa 64 with
  | some c =>
    modify fun (s : State) => s.countBad (dieOfChannel (channelOf pa)) c
    trap c
  | none => pure ()

/-- A port that holds a value: an operand or a result. -/
def UnitState.port (x : UnitState) (p : Nat) : BitVec 512 := Sparse.get 0 x.ports p
def UnitState.setPort (x : UnitState) (p : Nat) (v : BitVec 512) : UnitState := { x with ports := Sparse.putD 0 x.ports p v }

/-- The value of a port (Table 102); the upload refuses a word that reads any other. -/
def portRead (p : Nat) : M (BitVec 512) := do
  let x := (← unitHere).st
  if p < 8 then return x.h.getD p 0
  else
    match p with
    | 0x08 => colRead
    | 0x09 => return x.rcur.setWidth 512
    | 0x0A => return x.wcur.setWidth 512
    | 0x0B => return x.k.setWidth 512
    | 0x0E => return BitVec.ofNat 512 x.mode.toNat
    | 0x11 => return BitVec.ofNat 512 x.g.toNat
    | _ =>
      if 0x24 ≤ p ∧ p < 0x28 then
        return BitVec.ofNat 512 (leNat (((x.acc.drop (16 * (p - 0x24))).take 16).map fun (a : BitVec 32) => leBytes 4 a.toNat).flatten)
      else return x.port p

/-- Where a command goes after a word: on, to a store word, on with repeats of the next word, or to its end. -/
inductive Flow where
  | next
  | jump (pc : Nat)
  | again (n : Nat)
  | ret (v : BitVec 512)
deriving DecidableEq, Repr

/-- A write to KDEC (Table 102). -/
def portKdec : M Flow := do
  onUnitState fun x => { x with k := x.k - 1, g := x.k - 1 != 0 }
  return .next

/-- A write to MODE (Table 102, R296). -/
def portMode (v : BitVec 512) : M Flow := do
  trapIf (decide (1 < fld v.toNat 0 32)) .operand
  onUnitState fun x => { x with mode := fld v.toNat 0 32 == 1 }
  return .next

/-- Writes to the trigger ports of Table 104; each result is in its R port for the next word. -/
def portAdd (v : BitVec 512) : M Flow := do
  onUnitState fun x => x.setPort 0x14 (laneWise x.mode (· + ·) (x.port 0x12) v)
  return .next
def portMax (v : BitVec 512) : M Flow := do
  onUnitState fun x => x.setPort 0x17 (laneWise x.mode max (x.port 0x15) v)
  return .next
def portCmp (v : BitVec 512) : M Flow := do
  onUnitState fun x =>
    let n := laneSize x.mode
    let o := x.port 0x18
    { (x.setPort 0x1A (laneWise x.mode (fun a b => if a < b then -1 else 0) o v)) with
      g := decide (sext n (fld o.toNat 0 n) < sext n (fld v.toNat 0 n)) }
  return .next
def portShf (v : BitVec 512) : M Flow := do
  onUnitState fun x =>
    let a := fld (x.port 0x1B).toNat 0 16
    x.setPort 0x1D (laneWise x.mode (fun _ b => shiftDown b a (laneSize x.mode)) v v)
  return .next
def portMac (v : BitVec 512) : M Flow := do
  onUnit fun b =>
    let r := macLanes b.st.mode b.st.acc (b.st.port 0x1E) v
    { b with st := { b.st with acc := r.1 }, sat := b.sat || r.2 }
  return .next
def portAccz : M Flow := do
  onUnitState fun x => { x with acc := List.replicate 64 0 }
  return .next
def portPak : M Flow := do
  onUnit fun b =>
    let r := packLanes b.st.mode b.st.acc (fld (b.st.port 0x21).toNat 0 16)
    { b with st := b.st.setPort 0x23 r.1, sat := b.sat || r.2 }
  return .next

/-- A value written to a port (Table 102); the upload refuses a word that writes any other. -/
def portWrite (p : Nat) (v : BitVec 512) : M Flow := do
  if p < 8 then
    onUnitState fun x => { x with h := x.h.set p v }
    return .next
  else
    match p with
    | 0x08 =>
      colWrite v
      return .next
    | 0x09 =>
      onUnitState fun x => { x with rcur := v.setWidth 24 }
      return .next
    | 0x0A =>
      onUnitState fun x => { x with wcur := v.setWidth 24 }
      return .next
    | 0x0B =>
      onUnitState fun x => { x with k := v.setWidth 32 }
      return .next
    | 0x0C => portKdec
    | 0x0D => return .jump (fld v.toNat 0 8)
    | 0x0E => portMode v
    | 0x0F => return .ret v
    | 0x10 => return .again (fld v.toNat 0 16)
    | 0x11 =>
      onUnitState fun x => { x with g := fld v.toNat 0 32 != 0 }
      return .next
    | 0x13 => portAdd v
    | 0x16 => portMax v
    | 0x19 => portCmp v
    | 0x1C => portShf v
    | 0x1F => portMac v
    | 0x20 => portAccz
    | 0x22 => portPak
    | _ =>
      onUnitState fun x => x.setPort p v
      return .next

/-! ## Words (R295, R296) -/

/-- How a word of the unit's program ends the step: a fault keeps what the word did before it (R296, R298). -/
def finishUnit (s : State) (r : EStateM.Result Stop State PUnit) : Host.Outcome State Fault Refusal :=
  match r with
  | .ok _ t => did t
  | .error (.fault f) _ => .fault f
  | .error (.trap x) t => did (t.faultCommand s.curUnit x.cause)
  | .error (.trapAfter x) t => did (t.faultCommand s.curUnit x.cause)
  | .error (.trapNext x) t => did (t.faultCommand s.curUnit x.cause)
  | .error (.trapTile _) _ => idle s
  | .error .wait _ => idle s
  | .error .waitWith t => did t
  | .error (.gate loc) _ => if s.atGate (unitGate s.curUnit) loc then idle s else did (s.waitGate (unitGate s.curUnit) loc)

/-- The destinations that a REP must not precede (R296). -/
def steers (p : Nat) : Bool := p == 0x0D || p == 0x0F || p == 0x10

/-- One word of the unit's program (R294-R296): `ctl` says that a REP must not precede it, `holds` its guard. -/
def unitWord (ctl : Bool) (holds : UnitState → Bool) (act : M Flow) (s : State) : Host.Outcome State Fault Refusal :=
  finishUnit s ((do
    let b ← unitHere
    if b.run.isNone then throw (Stop.fault .noCommand)
    trapIf (b.rep.isSome && ctl) .operand
    let f ← if b.rep = some 0 ∨ !holds b.st then pure Flow.next else act
    match f with
    | .next =>
      onUnit fun x =>
        match b.rep with
        | some (n + 2) => { x with rep := some (n + 1) }
        | _ => { x with rep := none, pc := x.pc + 1 }
    | .jump pc => onUnit fun x => { x with rep := none, pc := pc }
    | .again n => onUnit fun x => { x with rep := some n, pc := x.pc + 1 }
    | .ret v => modify fun (t : State) => t.endCommand t.curUnit v).run s)

/-- Whether a guard holds (Table 103). -/
def guardHolds (g : BitVec 2) (x : UnitState) : Bool :=
  match g.toNat with
  | 0 => true
  | 1 => x.g
  | _ => !x.g

/-- The value of an immediate (R295). -/
def moveValue (i : BitVec 16) : BitVec 512 := (i.signExtend 32).setWidth 512

/-- MOVE (R295): the source is read before the destination is written. -/
def execMove (g : BitVec 2) (d src : BitVec 6) (s : State) : Host.Outcome State Fault Refusal :=
  unitWord (steers d.toNat) (guardHolds g) (do portWrite d.toNat (← portRead src.toNat)) s

/-- MOVE_IMM (R295). -/
def execMoveImm (g : BitVec 2) (d : BitVec 6) (i : BitVec 16) (s : State) : Host.Outcome State Fault Refusal :=
  unitWord (steers d.toNat) (guardHolds g) (portWrite d.toNat (moveValue i)) s

/-- CLASP_MOVE (R295): it moves nothing. -/
def execClaspMove (_l : BitVec 16) (s : State) : Host.Outcome State Fault Refusal :=
  unitWord true (fun _ => true) (pure .next) s

/-- A write of v to a port, as the word at the unit's PC makes it (R294, R297, R298). -/
def portWord (p : Nat) (act : M Flow) (s : State) : Host.Outcome State Fault Refusal := unitWord (steers p) (fun _ => true) act s

/-- COL_WRITE (R298). -/
def execColWrite (v : BitVec 512) (s : State) : Host.Outcome State Fault Refusal :=
  portWord 0x08 (do
    colWrite v
    return .next) s
/-- KDEC (R294). -/
def execKdec (_v : BitVec 512) (s : State) : Host.Outcome State Fault Refusal := portWord 0x0C portKdec s
/-- PC_WRITE (R294). -/
def execPcWrite (v : BitVec 512) (s : State) : Host.Outcome State Fault Refusal :=
  portWord 0x0D (pure (.jump (fld v.toNat 0 8))) s
/-- MODE_WRITE (R294). -/
def execModeWrite (v : BitVec 512) (s : State) : Host.Outcome State Fault Refusal := portWord 0x0E (portMode v) s
/-- RET (R296). -/
def execRet (v : BitVec 512) (s : State) : Host.Outcome State Fault Refusal := portWord 0x0F (pure (.ret v)) s
/-- REP (R294). -/
def execRep (v : BitVec 512) (s : State) : Host.Outcome State Fault Refusal := portWord 0x10 (pure (.again (fld v.toNat 0 16))) s
/-- ADD.T (R297). -/
def execAddT (v : BitVec 512) (s : State) : Host.Outcome State Fault Refusal := portWord 0x13 (portAdd v) s
/-- MAX.T (R297). -/
def execMaxT (v : BitVec 512) (s : State) : Host.Outcome State Fault Refusal := portWord 0x16 (portMax v) s
/-- CMP.T (R297). -/
def execCmpT (v : BitVec 512) (s : State) : Host.Outcome State Fault Refusal := portWord 0x19 (portCmp v) s
/-- SHF.T (R297). -/
def execShfT (v : BitVec 512) (s : State) : Host.Outcome State Fault Refusal := portWord 0x1C (portShf v) s
/-- MAC.T (R297). -/
def execMacT (v : BitVec 512) (s : State) : Host.Outcome State Fault Refusal := portWord 0x1F (portMac v) s
/-- ACCZ (R294). -/
def execAccz (_v : BitVec 512) (s : State) : Host.Outcome State Fault Refusal := portWord 0x20 portAccz s
/-- PAK.T (R297). -/
def execPakT (_v : BitVec 512) (s : State) : Host.Outcome State Fault Refusal := portWord 0x22 portPak s

/-- BANK_IMAGE_LOAD: the oldest upload of the unit replaces its store and its entry table, between commands and after the
commands that arrived before it (R299). -/
def execBankImageLoad (s : State) : Host.Outcome State Fault Refusal :=
  let b := s.unit s.curUnit
  match b.run, b.uploads with
  | none, (0, ws) :: rest =>
    did (s.setUnit s.curUnit { b with
      store := ws.drop 16, uploads := rest
      entries := (ws.take 16).map fun w => if w = 0x80000000 then none else some w.toNat })
  | _, _ => idle s

/-- BANK_CMD_WATCHDOG: a timetable's command that has run for more than 65,536 ticks faults (R296). -/
def execBankCmdWatchdog (s : State) : Host.Outcome State Fault Refusal :=
  match (s.unit s.curUnit).run with
  | some r => if r.call.isNone ∧ s.ranOver r then did (s.faultCommand s.curUnit .watchdog) else idle s
  | none => idle s

/-- What a turn of unit u comes to (R296). -/
def State.unitDue (s : State) (u : Nat) : Due :=
  let s := { s with curUnit := u }
  let b := s.unit u
  match b.run with
  | none => .run .bankImageLoad s
  | some r =>
    if s.ranOver r then .run (match r.call with | some id => .callWatchdog id | none => .bankCmdWatchdog) s
    else
      match b.store[b.pc]? with
      | none => (s.faultCommand u .illword).moved
      | some w =>
        match decodeBank w with
        | .instr i => .run i s
        | _ => (s.faultCommand u .illword).moved

/-! ## Issuing commands (R310-R312) -/

/-- Units of a channel that run a command (R312). -/
def State.activeUnits (s : State) (ch : Nat) : Nat := ((List.range 8).filter fun g => (s.unit (8 * ch + g)).run.isSome).length

/-- Whether a waiting command has arrived: a call has when nothing on its way to the unit holds it, and takes no place there
when its key stands in the reply cache (R320, R324). -/
def State.cmdArrived (s : State) (q : BankCmd) : Bool :=
  match q.call with
  | none => true
  | some id => match s.callAt id with
    | some c => s.callHere id c && (s.cacheOf c).isNone && s.callRecord c != .empty && s.callRecord c != .other
    | none => false

/-- Whether a command may be served when its turn comes: its unit is between commands and owes no upload, a call's target would
run it, and its channel has issued none at this tick (R299, R304, R307). -/
def State.cmdReady (s : State) (q : BankCmd) : Bool :=
  (s.unit q.unit).turns &&
    match q.call with
    | none => (s.chan (q.unit / 8)).lastCmd != some s.stamp
    | some id => match s.callAt id with
      | some c => (match (s.plan id c).1 with | .bank _ => true | _ => false)
      | none => false

/-- The PERMIT in force: limited mode lowers it to 16 (13 R403). -/
def State.permitNow (s : State) (st : Stack) : Nat := if s.cool.limit then min st.permit 16 else st.permit

/-- The command that a stack serves next, the first to have arrived, if it may issue (R312). -/
def State.nextCmd (s : State) (k : Nat) : Option BankCmd :=
  let st := s.stack k
  match st.waiting.find? s.cmdArrived with
  | none => none
  | some q =>
    if s.cmdReady q ∧ ((q.toll : Int) ≤ st.level ∨ (st.level = st.cap ∧ st.cap < q.toll)) ∧
        s.activeUnits (q.unit / 8) < s.permitNow st / 4 then
      some q
    else none

/-- The toll of a command is taken and the command waits no longer. -/
def State.takeCmd (s : State) (k : Nat) (q : BankCmd) : State :=
  let st := s.stack k
  (s.setStack k { st with level := st.level - q.toll }).leaveStack k q

/-- A timetable's command starts on its unit (R296, R304, R307); an entry that names no store word faults at once. -/
def State.startCmd (s : State) (q : BankCmd) : State :=
  let b := s.unit q.unit
  let line : BitVec 24 := BitVec.ofNat 24 q.line
  let st := if q.keep then b.st else { b.st with rcur := line, wcur := line }
  let entry := b.entries.getD q.entry none
  let s := s.setUnit q.unit { b with
    st := st, sat := false, pc := entry.getD 0, rep := none
    run := some { started := s.stamp, window := q.window, call := none, cls := q.cls, who := q.who } }
  let s := s.setChan (q.unit / 8) { s.chan (q.unit / 8) with lastCmd := some s.stamp }
  if entry.isNone then s.faultCommand q.unit .illword else s

/-- The next command of a stack issues (R312). -/
def State.issueCmd (s : State) (k : Nat) : Option State :=
  (s.nextCmd k).map fun q =>
    match q.call with
    | none => (s.takeCmd k q).startCmd q
    | some id =>
      match s.callAt id with
      | some c => ((s.takeCmd k q).meet id c (s.plan id c).1).getD s
      | none => s

/-- BANK_CMD_ISSUE (R312). -/
def execBankCmdIssue (stack : Nat) (s : State) : Host.Outcome State Fault Refusal :=
  match s.issueCmd stack with
  | some t => did t
  | none => idle s

/-! ## Timetables (R300-R306) -/

/-- TIMETABLE_START: at their start tick the channels that one X.BANKGO armed begin to run (R303); `run` is one of them. The
time since the last refresh counts from here (log 44). -/
def execTimetableStart (run : Nat) (s : State) : Host.Outcome State Fault Refusal :=
  let c := s.chan run
  if c.st = .armed ∧ c.start ≤ s.stamp then
    let cs := s.banks.chans.map fun p =>
      (p.1, if p.2.st = .armed ∧ p.2.owner = c.owner then
        { p.2 with st := .running, entry := 0, nominal := c.start, began := none, ended := c.start, lastRefresh := c.start }
      else p.2)
    did { s with banks := { s.banks with chans := cs } }
  else idle s

/-- The commands of a RUN entry in ascending group order (R304). -/
def runCmds (ch : Nat) (c : Chan) (w : Word) : List BankCmd :=
  ((List.range 8).filter fun g => bit (entryGroups w) g).map fun g =>
    { unit := 8 * ch + g, toll := (entryDur w + 3) / 4, entry := entryStart w, keep := entryKeep w, line := entryLine w,
      call := none, cls := c.cls, who := c.who
      window := (c.window.filter fun p => p.2 / 2 ^ 30 == 8 * ch + g).map fun p => (p.2, 2 ^ 19) }

/-- An entry of a running channel begins (R304): at the later of its nominal start plus the slip and the end of the one
before. -/
def State.beginEntry (s : State) (ch : Nat) : State :=
  let c := s.chan ch
  let w := c.table.getD c.entry 0
  let now := max (c.nominal + c.slip) c.ended
  let s := s.setChan ch { c with began := some now, doneAt := 0, lastRefresh := if entryKind w = 2 then now else c.lastRefresh }
  let k := s.stack (ch / 8)
  if entryKind w = 1 then s.setStack (ch / 8) { k with waiting := k.waiting ++ runCmds ch c w }
  else if entryKind w = 2 then s.chargeStack ch 8
  else s

/-- An entry of a running channel has ended (R304, R306, R309): the slip grows, and the channel goes on, starts a new pass, or
stops. -/
def State.finishEntry (s : State) (ch began : Nat) : State :=
  let c := s.chan ch
  let w := c.table.getD c.entry 0
  let stop := max (began + entryDur w) c.doneAt
  let grow := stop - (c.nominal + entryDur w)
  let last := decide (c.table.length ≤ c.entry + 1)
  let passes := if last then c.passes + 1 else c.passes
  let c' := { c with slip := c.slip + grow, ended := stop, nominal := c.nominal + entryDur w, began := none, passes := passes }
  let s := if c.who.mode = 1 ∧ grow ≠ 0 then s.dispatch (dieOfChannel ch) 9 [word ch, word grow] else s
  if c.revoked then (s.setChan ch { c' with st := .fault, cause := Cause.protect.code, group := 0 }).stopPeers c.owner
  else if c.stopping ∨ (last ∧ c.goal ≤ passes) then s.setChan ch { c' with st := .loaded, stopping := false }
  else s.setChan ch { c' with entry := if last then 0 else c.entry + 1 }

/-- TIMETABLE_ENTRY: the current entry of a running channel begins, or ends once its time is over and every command of its
wave has ended (R304). -/
def execTimetableEntry (chan : Nat) (s : State) : Host.Outcome State Fault Refusal :=
  let c := s.chan chan
  if c.st ≠ .running then idle s
  else
    match c.began with
    | none => if max (c.nominal + c.slip) c.ended ≤ s.stamp then did (s.beginEntry chan) else idle s
    | some t =>
      if t + entryDur (c.table.getD c.entry 0) ≤ s.stamp ∧ !s.waveBusy chan then did (s.finishEntry chan t) else idle s

/-- FORCED_REFRESH: a running channel whose slip has put off its refresh for more than 24,960 ticks refreshes at once (R301);
the time this takes is a free value (log 4). -/
def execForcedRefresh (chan : Nat) (s : State) : Host.Outcome State Fault Refusal :=
  let c := s.chan chan
  if c.st = .running ∧ 24960 < s.stamp - c.lastRefresh then
    did { (s.setChan chan { c with
      lastRefresh := s.stamp, forced := c.forced + 1, slip := c.slip + Config.refreshTicks s.fresh }) with fresh := s.fresh + 1 }
  else idle s

end Sys2Proof.Machine
end

