-- ==== Sys2Proof/Machine/Copy.lean ====
section
/-! DEFINITION. The copy words that move data inside a package as they issue, and the copy engine's waits, advances, nests
and seals (07 R234-R247). -/

namespace Sys2Proof.Machine

/-! ## Words of rows (R237-R241) -/

/-- X.COPY (R237). -/
def execXCopy (a d : BitVec 4) (l : BitVec 3) (q c : BitVec 4) (v : Bool) (s : State) : Host.Outcome State Fault Refusal :=
  rowsWord (.xCopy a d l q c v) (fun x _ _ => x.badLen) (fun x _ => x.rowlen) (fun x _ => x.rowlen) (fun _ t => t) s

/-- X.GATH (R237). -/
def execXGath (a d : BitVec 4) (l : BitVec 3) (q c : BitVec 4) (s : State) : Host.Outcome State Fault Refusal :=
  rowsWord (.xGath a d l q c) (fun x _ _ => x.badLen || !x.plain) (fun x _ => x.rowlen) (fun x _ => x.rowlen) (fun _ t => t) s

/-- X.SCAT (R237). -/
def execXScat (a d : BitVec 4) (l : BitVec 3) (q c : BitVec 4) (s : State) : Host.Outcome State Fault Refusal :=
  rowsWord (.xScat a d l q c) (fun x y _ => x.badLen || !y.plain) (fun x _ => x.rowlen) (fun x _ => x.rowlen) (fun _ t => t) s

/-- X.SADD (R238). -/
def execXSadd (a d : BitVec 4) (l : BitVec 3) (q c : BitVec 4) (w : Bool) (s : State) : Host.Outcome State Fault Refusal :=
  rowsWord (.xSadd a d l q c w)
    (fun x y _ => x.badLen || !y.plain || x.etype != y.etype || decide (6 < x.etype) || x.rowlen != y.rowlen
      || x.rowlen % etypeSize x.etype != 0)
    (fun x _ => x.rowlen) (fun _ y => y.rowlen) (fun _ t => t) s

/-- X.TRANS (R239). -/
def execXTrans (a d : BitVec 4) (l : BitVec 3) (q c : BitVec 4) (s : State) : Host.Outcome State Fault Refusal :=
  rowsWord (.xTrans a d l q c)
    (fun x y t => x.badLen || y.badLen || !y.plain || x.badType || x.etype != y.etype
      || y.rowlen != t * etypeSize x.etype || x.rowlen % etypeSize x.etype != 0)
    (fun x _ => x.rowlen) (fun _ y => y.rowlen) (fun x _ => x.rowlen / etypeSize x.etype) s

/-- X.PAD (R240). -/
def execXPad (a d : BitVec 4) (l : BitVec 3) (q c : BitVec 4) (s : State) : Host.Outcome State Fault Refusal :=
  rowsWord (.xPad a d l q c)
    (fun x y _ => x.badLen || y.badLen || y.badType || decide (y.rowlen < x.rowlen)
      || x.rowlen % etypeSize y.etype != 0 || y.rowlen % etypeSize y.etype != 0)
    (fun x _ => x.rowlen) (fun _ y => y.rowlen) (fun _ t => t) s

/-- X.META (R241). -/
def execXMeta (a d : BitVec 4) (l : BitVec 3) (q c : BitVec 4) (s : State) : Host.Outcome State Fault Refusal :=
  rowsWord (.xMeta a d l q c)
    (fun x y t => x.badLen || !y.plain || y.addr.toNat % 8 != 0 || decide (98304 < y.addr.toNat + t * x.rowlen))
    (fun x _ => x.rowlen) (fun _ _ => 0) (fun _ t => t) s

/-- X.CHECK (R243). -/
def execXCheck (a : BitVec 4) (l : BitVec 3) (q c : BitVec 4) (s : State) : Host.Outcome State Fault Refusal :=
  finish .x s ((do
    let r ← copyReady (.xCheck a l q c)
    let t := r.loop.trips
    trapIf (decide (2 ^ 32 < t) || r.src.badAddr || r.src.badLen) .operand
    sideCheck r r.src t r.src.rowlen
    startCopy r t (r.src.kind == 1) false).run s)

/-! ## Tag slots (R242) -/

/-- X.FILL and X.EVICT: virtual and scratchpad address, the tag check, 256 grains (R242). A scratchpad ADDR that breaks R208
names no entry of the tag table: OPERAND is raised, not R208's PROTECT at a unit (log 48). -/
def slotWord (i : Instr) (mem pad : CopyRun → CDesc) (s : State) : Host.Outcome State Fault Refusal :=
  finish .x s ((do
    let r ← copyReady i
    let va := (mem r).addr
    let p := (pad r).addr
    let tags := ((← get).crew (clusterOf (← get).cur)).tags
    trapIf (isPad va || !isPad p || fld p.toNat 26 37 != 0 || va.toNat % 0x10000 != 0 || p.toNat % 0x10000 != 0) .operand
    let entry := tags.find? fun (e : Nat × BitVec 36) => e.1 == fld p.toNat 16 10
    trapIf (!entry.any fun (e : Nat × BitVec 36) => e.2.toNat == fld va.toNat 16 36) .operand
    trapIf (fld va.toNat 52 12 != 0) .operand
    startCopy r 256 false false).run s)

/-- X.FILL (R242). -/
def execXFill (a d c : BitVec 4) (v : Bool) (s : State) : Host.Outcome State Fault Refusal :=
  slotWord (.xFill a d c v) (·.src) (·.dst) s

/-- X.EVICT (R242). -/
def execXEvict (a d c : BitVec 4) (v : Bool) (s : State) : Host.Outcome State Fault Refusal :=
  slotWord (.xEvict a d c v) (·.dst) (·.src) s

/-! ## Waits, advances, nests, seals (R244-R247) -/

/-- A copy word that makes no unit: it issues once every earlier copy word of a class in the mask has completed. -/
def waitingCopy (i : Instr) (mask : BitVec 16) (body : M PUnit) (s : State) : Host.Outcome State Fault Refusal :=
  engineWord .x i (do
    needs ((← here).copiesDone fun c => mask.getLsbD c)
    body) s

/-- X.WAIT (R244). -/
def execXWait (m : BitVec 16) (s : State) : Host.Outcome State Fault Refusal := waitingCopy (.xWait m) m (pure ()) s

/-- X.QADV (R245). A producer advance is a release of the engine's earlier accesses, which have performed (R221). -/
def execXQadv (h : BitVec 4) (sd : Bool) (n : BitVec 13) (s : State) : Host.Outcome State Fault Refusal :=
  waitingCopy (.xQadv h sd n) (BitVec.allOnes 16) (do
    let c ← here
    let q ← heldHandle c.cpy.handles h.toNat
    let w := (c.at_ .x).1
    let loc := padLoc (clusterOf (← get).cur) q.ctl
    ownSide .x h.toNat q.gen sd w
    engineMayGo .x w 0 loc 64 { cw := true }
    passHome loc 1
    advanceFree q h.toNat sd n.toNat) s

/-- X.NEST (R246). -/
def execXNest (b : BitVec 6) (l : BitVec 3) (s : State) : Host.Outcome State Fault Refusal :=
  nestWord .x (.xNest b l) b l 0 s

/-- X.GIVE (R247). -/
def execXGive (p : BitVec 2) (n : BitVec 4) (s : State) : Host.Outcome State Fault Refusal :=
  waitingCopy (.xGive p n) (BitVec.allOnes 16) (giveSeals .x (engineOf p) n.toNat) s

/-- X.TAKE (R247): it waits for its seals alone. -/
def execXTake (p : BitVec 2) (n : BitVec 4) (s : State) : Host.Outcome State Fault Refusal :=
  engineWord .x (.xTake p n) (takeSeals .x (engineOf p) n.toNat) s

end Sys2Proof.Machine
end

