-- ==== Sys2Proof/Machine/CopyWork.lean ====
section
/-! DEFINITION. COPY_UNIT: the copy engine does the next unit of its word (07 R233, R235). -/

namespace Sys2Proof.Machine

/-- The next unit of a run. -/
def copyUnit (r : CopyRun) : M PUnit :=
  match r.word with
  | .xCopy .. => unitCopy r
  | .xGath .. => unitGath r
  | .xScat .. => unitScat r
  | .xSadd .. => unitSadd r
  | .xTrans .. => unitTrans r
  | .xPad .. => unitPad r
  | .xMeta .. => unitMeta r
  | .xFill .. => unitGrain r
  | .xEvict .. => unitGrain r
  | .xCheck .. => unitCheck r
  | .xFread .. => unitFread r
  | .xFapp .. => unitFapp r
  | .xKv .. => unitKv r
  | .xHin .. => unitHin r
  | .xHout .. => unitHout r
  | .xHdec .. => unitHdec r
  | .xIred .. => unitIred r
  | .xBankp .. => unitBankp r
  | .xBankt .. => unitBankt r
  | .xBankgo .. => unitBankgo r
  | _ => dropRun r

/-- Whether a word may do units before those in flight before it have passed their checks: all it does waits in the request path
(07 R232, R233). -/
def CopyRun.early (r : CopyRun) : Bool :=
  match r.word with
  | .xCopy .. | .xGath .. | .xScat .. | .xTrans .. | .xPad .. | .xFill .. | .xEvict .. | .xCheck .. => true
  | _ => false

/-- A turn of run n of those in flight (07 R232, R233): claims that a stop dropped are made again, then the next unit is done; a
word whose units are done ends. -/
def copyTurn (n : Nat) : M PUnit := do
  let c ← here
  taskReady c
  match c.cpy.runs[n]? with
  | none => await
  | some r =>
    needs (!r.passed && (c.firstRun r || r.early && c.job.recmode == 0) && (c.cpy.runs.take n).all (·.claimed))
    if !r.claimed then setRun (← r.claim)
    else if r.unit < r.units then copyUnit r
    else
      needs (c.firstRun r)
      endRun r

/-- COPY_UNIT (07 R232, R233): the picked word of those in flight goes on. Its traps wait until those before it have passed their
checks. An X.BANKGO whose channels run has no unit left to do here. -/
def execCopyUnit (s : State) : Host.Outcome State Fault Refusal :=
  let c := s.here
  let r := c.cpy.runs[s.pick]?
  finish .x s ((copyTurn s.pick).run s) (hold := !r.all c.firstRun)
    (pos := match r with | some r => (r.walk, r.addr) | none => c.at_ .x)

end Sys2Proof.Machine
end

