-- ==== Sys2Proof/Machine/Pages.lean ====
section
/-! DEFINITION. Changing translations (08 R259-R268): PGSHARE, PGDROP, the end of an invalidation; and the writes that
system software makes to the device registers (01 R18, 08 R250, R261, R267). -/

namespace Sys2Proof.Machine

/-! ## PGSHARE and PGDROP (R264-R266) -/

/-- The checks of an address that PGSHARE or PGDROP names (R264). -/
def pageName (va : Word) : M PUnit := do
  if va.toNat % 2 ^ 19 ≠ 0 then xfail ⟨.align, 0, 9⟩ .both .s va
  else if fld va.toNat 52 12 ≠ 0 then xfail ⟨.protect, 0, 3⟩ .both .s va
  else pure ()

/-- A walk of PGSHARE or PGDROP: a bad table entry traps, any other failure is none (R265). -/
def softWalk {α : Type} (va : Word) (r : Except XFault α) : M (Option α) :=
  match r with
  | .ok x => pure (some x)
  | .error f => if f.cause = .hallmark ∨ f.cause = .uncorr then xfail f .both .s va else pure none

/-- Where a walk for a level-3 entry ends: at the entry's address, or at a 1 GiB leaf (R265). -/
def walkTable (s : State) (ctx va : Nat) : Except XFault (Option Nat) :=
  match walkZero s ctx va with
  | some f => .error f
  | none =>
    match walkLevel s va ((s.ctx ctx).root.toNat * 2 ^ 14) 1 with
    | .error f => .error f
    | .ok (.inl _) => .ok none
    | .ok (.inr t) =>
      match walkLevel s va t 2 with
      | .error f => .error f
      | .ok (.inl _) => .ok none
      | .ok (.inr t) =>
        let a := t + 8 * walkIndex va 3
        match s.verify a 8 with
        | some c => .error ⟨c, 3, 11⟩
        | none => .ok (some a)

/-- The status item of PGSHARE and PGDROP (Table 82). -/
def pageStatus (count frame status : Nat) : Drop := { items := [word (count * 2 ^ 48 + frame * 2 ^ 4 + status)] }

/-- COUNT of a frame-table entry becomes n. -/
def State.setCount (s : State) (f n : Nat) : State :=
  let e := (s.dword (frameAt s f)).toNat
  s.writeWord (frameAt s f) (ftPack n (ftPins e) (ftFreeq e) (ftRingq e) (ftPlain e) (ftOwner e) e)

/-- PGSHARE (R265). -/
def execPgshare (a b : BitVec 5) (m : BitVec 3) (s : State) : Host.Outcome State Fault Refusal :=
  leavingWord (.pgshare a b m) (do
    let dst ← item a
    let src ← item b
    pageName dst
    pageName src
    pathEmpty
    let s : State ← get
    let ctx := s.here.job.ctx
    match ← softWalk src (walk s ctx src.toNat) with
    | none => return pageStatus 0 0 2
    | some (pa, size, r, w, x) =>
      if size = 2 ^ 30 then return pageStatus 0 0 5
      else if place pa ≠ .dram then return pageStatus 0 0 6
      else
        let f := pa / 2 ^ 19
        let n := ftCount (s.dword (frameAt s f)).toNat
        match ← softWalk dst (walkTable s ctx dst.toNat) with
        | none => return pageStatus n f 3
        | some none => return pageStatus n f 4
        | some (some e) =>
          if (s.dword e).msb then return pageStatus n f 4
          else if n = 0 then return pageStatus n f 7
          else if n = 65535 then return pageStatus n f 1
          else
            let leaf := word (2 ^ 63 + 2 ^ 62 + (r && m.getLsbD 2).toNat * 2 ^ 56 + (w && m.getLsbD 1).toNat * 2 ^ 57
              + (x && m.getLsbD 0).toNat * 2 ^ 58 + pa)
            set ((s.writeWord e leaf).setCount f (n + 1))
            return pageStatus (n + 1) f 0) s

/-- Whether a translation held by a TLB falls under an invalidation (R261). -/
def Inval.covers (i : Inval) (t : TlbEntry) : Bool := i.coversPage t.ctx t.va t.size

/-- Covered translations leave every TLB. -/
def State.purge (s : State) (i : Inval) : State :=
  let keep := fun (ts : List TlbEntry) => ts.filter fun t => !i.covers t
  { s with
    cores := s.cores.map fun p => (p.1, { p.2 with tlb := keep p.2.tlb })
    crews := s.crews.map fun p => (p.1, { p.2 with tlb := keep p.2.tlb }) }

/-- Whether an access made for a context through a covered page is still to perform: one held in a request path, whether its
task runs, is parked or is checkpointed, or a bank call that waits or runs (R261, 10 R316). -/
def State.heldUnder (s : State) (i : Inval) : Bool :=
  let item := fun (ctx : Nat) (p : PathItem) => p.acc.page.2 != 0 && i.coversPage ctx p.acc.page.1 p.acc.page.2
  let core := fun (c : Core) => c.req.path.any (item c.job.ctx)
  s.cores.any (fun p => core p.2) ||
    s.liveScores.any (fun p => p.2.insts.any fun n => match n.saved with
      | some (cs, _) => cs.any fun q => core q.2
      | none => false) ||
    s.sched.late.any (item (i.ctx.getD 0)) ||
    s.remote.calls.any fun p => p.2.kind == 0 &&
      i.coversPage p.2.ctx (p.2.va.toNat / p.2.page.2 * p.2.page.2) p.2.page.2

/-- PGDROP (R266). -/
def execPgdrop (a : BitVec 5) (s : State) : Host.Outcome State Fault Refusal :=
  leavingWord (.pgdrop a) (do
    let va ← item a
    pageName va
    pathEmpty
    let s : State ← get
    let ctx := s.here.job.ctx
    match ← softWalk va (walk s ctx va.toNat) with
    | none => return pageStatus 0 0 10
    | some (pa, size, _, _, _) =>
      if size = 2 ^ 30 then return pageStatus 0 0 5
      else if place pa ≠ .dram then return pageStatus 0 0 6
      else
        let f := pa / 2 ^ 19
        let e := (s.dword (frameAt s f)).toNat
        let n := ftCount e
        if n = 0 then return pageStatus 0 f 7
        else
          let i : Inval := { seq := 0, ctx := some ctx, range := some (va.toNat, va.toNat + 2 ^ 19) }
          if s.windowRuns i && !s.windowTold i then
            set (s.revoke i)
            throw .waitWith
          needs (!s.heldUnder i && !s.windowRuns i)
          let entry := match walkTable s ctx va.toNat with | .ok (some x) => x | _ => 0
          let t := (((s.writeWord entry 0).setCount f (n - 1)).purge i).revoke i
          if 1 < n then
            set t
            return pageStatus (n - 1) f 0
          else if ftPins e = 0 then
            set (t.freeFrame f)
            return pageStatus 0 f 8
          else
            set (t.writeWord (frameAt t f) (ftPack 0 (ftPins e) true (ftRingq e) (ftPlain e) (ftOwner e) e))
            return pageStatus 0 f 9) s

/-! ## Invalidations (R261) -/

/-- INVAL_COMPLETE: the oldest invalidation completes; a held INVCMD takes effect (R261). -/
def execInvalComplete (s : State) : Host.Outcome State Fault Refusal :=
  match s.pages.invals with
  | [] => idle s
  | i :: rest =>
    if s.heldUnder i || s.windowRuns i then idle s
    else
      let t := s.purge i
      let t := { t with pages := { t.pages with invals := rest, invdone := i.seq } }
      match t.pages.heldInv with
      | [] => did t
      | v :: vs => did ({ t with pages := { t.pages with heldInv := vs } }.startInval v)

/-! ## Register writes of system software -/

/-- TOLL_CAP_WRITE (06 R188). -/
def execTollCapWrite (cluster off : Nat) (v : BitVec 64) (s : State) : Host.Outcome State Fault Refusal :=
  regEvent (decide (cluster < 9) && decide (off < 0x40)) (0x10000 + 0x40 * cluster + off) v s

/-- STACK_BUCKET_WRITE (10 R310). -/
def execStackBucketWrite (stack off : Nat) (v : BitVec 64) (s : State) : Host.Outcome State Fault Refusal :=
  regEvent (decide (stack < 16) && decide (off < 0x40)) (0x30000 + 0x40 * stack + off) v s

/-- CONTEXT_WRITE (08 R250). -/
def execContextWrite (ctx : Nat) (v : BitVec 64) (s : State) : Host.Outcome State Fault Refusal :=
  regEvent (decide (ctx < 64)) (0x20000 + 16 * ctx) v s

/-- INVCMD (08 R261). -/
def execInvcmd (v : BitVec 64) (s : State) : Host.Outcome State Fault Refusal := regEvent true 0x20450 v s

/-- FREECONS_WRITE (08 R267). -/
def execFreeconsWrite (v : BitVec 64) (s : State) : Host.Outcome State Fault Refusal := regEvent true 0x20420 v s

/-- REGION_WRITE (11 R328). -/
def execRegionWrite (region : Nat) (v : BitVec 64) (s : State) : Host.Outcome State Fault Refusal :=
  regEvent (decide (region < 256)) (0x40000 + 0x40 * region) v s

/-- REGION_FILL_WRITE (11 R328). -/
def execRegionFillWrite (region : Nat) (v : BitVec 64) (s : State) : Host.Outcome State Fault Refusal :=
  regEvent (decide (region < 256)) (0x40018 + 0x40 * region) v s

/-- COOL_REARM (13 R401). -/
def execCoolRearm (zone : Nat) (v : BitVec 64) (s : State) : Host.Outcome State Fault Refusal :=
  regEvent (decide (zone < 36)) (0x60000 + 0x20 * zone) v s

/-- COOL_FLOOR_WRITE (13 R397). -/
def execCoolFloorWrite (zone : Nat) (v : BitVec 64) (s : State) : Host.Outcome State Fault Refusal :=
  regEvent (decide (zone < 36)) (0x60010 + 0x20 * zone) v s

/-- COOL_LIMITS_WRITE (13 R397). -/
def execCoolLimitsWrite (v : BitVec 64) (s : State) : Host.Outcome State Fault Refusal := regEvent true 0x60800 v s

/-- RECCTL_WRITE (14 R404). -/
def execRecctlWrite (v : BitVec 64) (s : State) : Host.Outcome State Fault Refusal := regEvent true 0x70000 v s

/-- KEYCTX (14 R421). -/
def execKeyctx (v : BitVec 64) (s : State) : Host.Outcome State Fault Refusal := regEvent true 0x72020 v s

/-- HXGO (14 R427). -/
def execHxgo (v : BitVec 64) (s : State) : Host.Outcome State Fault Refusal := regEvent true 0x72418 v s

/-- REG_WRITE: a write to a register that no other step names (01 R18, 00 R6). -/
def execRegWrite (off : Nat) (v : BitVec 64) (s : State) : Host.Outcome State Fault Refusal :=
  regEvent (decide (off < 0x80000) && decide (off % 8 = 0)) off v s

end Sys2Proof.Machine
end

