-- ==== Sys2Proof/Machine/Remote.lean ====
section
/-! DEFINITION. The remote-call words RCALL, RPOLL and RRET, and the steps of calls on their way (10 R315-R326, 14 R411). -/

namespace Sys2Proof.Machine

/-! ## RCALL (R315, R316) -/

/-- The fields of a target item that must be zero are, and it names a place (Table 113). -/
def targetOk (x : Nat) : Bool :=
  match fld x 62 2 with
  | 0 => decide (fld x 52 10 = 0)
  | 1 => decide (fld x 4 58 = 0)
  | 2 => decide (fld x 9 53 = 0) && decide (fld x 0 9 < Config.cores)
  | _ => false

/-- The home at which a call performs (R324). -/
def State.callHome (s : State) (kind target : Nat) : Home :=
  if kind = 0 then .channel (target / 8) else if kind = 1 then s.home (travLoc target 0) else .crew (clusterOf target)

/-- Physical address, page and page size of a bank unit's target (R316). -/
def bankTarget (va : Word) : M (Nat × Nat × Nat) := do
  let pa ← locate va .both .s
  trapIf (place pa != Place.dram) .operand
  let c ← here
  match c.tlb.find? (·.covers c.job.ctx va.toNat) with
  | some t => return (pa, t.pa, t.size)
  | none => return (pa, pa / 2 ^ 19 * 2 ^ 19, 2 ^ 19)

/-- A call leaves; at a bank unit it joins the commands of its stack (R312, R316). -/
def State.sendCall (s : State) (c : Call) : State :=
  let id := s.remote.next
  let s := { s with remote := { s.remote with calls := s.remote.calls.put id c, next := id + 1 } }
  if c.kind = 0 then
    let k := s.stack (c.target / 64)
    let q : BankCmd := { unit := c.target, toll := 32, entry := 0, keep := false, line := 0, call := some id }
    s.setStack (c.target / 64) { k with waiting := k.waiting ++ [q] }
  else s

/-- RCALL (R315, R316): a W access in the request path until its function starts, or it is refused (R324). -/
def execRcall (t k f : BitVec 5) (n c : BitVec 4) (l : Bool) (s : State) : Host.Outcome State Fault Refusal :=
  leavingWord (.rcall t k f n c l) (do
    let x := (← item t).toNat
    let y := (← item k).toNat
    let payload ← (List.range n.toNat).mapM fun i => item (f + BitVec.ofNat 5 i)
    trapIf (!targetOk x) .operand
    let s : State ← get
    let ctx := s.here.job.ctx
    let slot := fld y 0 6
    trapIf (bit y 18 || !bit y 19 && fld y 6 12 != 0 || bit y 19 && !s.registered (fld y 6 12) ctx) .operand
    trapIf ((Sparse.get {} s.here.slots slot).st != SlotState.free) .operand
    let kind := fld x 62 2
    let va := word (fld x 0 52)
    let (pa, page, size) ← if kind = 0 then bankTarget va else pure (0, 0, 0)
    let target := if kind = 0 then unitOf pa else if kind = 1 then fld x 0 4 else fld x 0 9
    let st := s.stamp
    let call : Call := {
      caller := s.cur, slot := slot, inst := s.here.job.inst, ctx := ctx, id := fld y 44 20, label := fld y 28 16
      func := fld y 20 8, stamp := st, payload := payload, cls := c.toNat, kind := kind, target := target, va := va, pa := pa
      page := (page, size), who := s.whoOf s.cur
      behind := if kind = 1 then s.hopsQueued (target / 2) else [] }
    let held : CallSlot := {
      st := .pending, id := call.id, stamp := st, serai := if bit y 19 then some (fld y 6 12) else none
      target := call.place, ctx := ctx }
    onHere fun z => { z with slots := z.slots.put slot held }
    let a ← scalarAcc c.toNat 0 0 { w := true } (if l then some 3 else none)
    enqueue { a with home := some (s.callHome kind target), page := if kind = 0 then s.here.pageOf va else (0, 0) }
      (.call s.remote.next)
    modify fun (s : State) => s.sendCall call
    return { items := [word st] }) s

/-! ## RPOLL (R322, R323, 14 R411) -/

/-- The next REPLY record of the current worker: its place, slot and status item (14 R411). -/
def State.nextReply (s : State) : Option (Nat × Nat × Word) :=
  let key := coordinate s.cur * 2 ^ 20 + s.here.job.tseq
  (s.nextRecord (dieOf s.cur) fun t b => t == 7 && fld (b.getD 0 0).toNat 35 29 == key).map fun r =>
    (r.1, fld (r.2.2.getD 0 0).toNat 0 6, r.2.2.getD 1 0)

/-- A slot as it stands now: one that is PENDING 65,536 ticks after its call is LOST (R319). -/
def State.slotNow (s : State) (n : Nat) : CallSlot :=
  let c : CallSlot := Sparse.get {} s.here.slots n
  if c.st = .pending ∧ c.stamp + 65536 ≤ s.stamp then { c with st := .lost } else c

/-- The slot as an RPOLL drops it: its status item and y0 to y7, with its state (R322). In replay they are the record's, and
a recorded DONE or FAULT takes the items of the live reply (14 R411). -/
def polled (n : Nat) (w : Bool) : M (Word × List Word × SlotState) := do
  let s : State ← get
  let c := s.slotNow n
  trapIf (c.st != SlotState.free && c.serai.isSome) .operand
  if s.here.job.recmode = 2 ∧ !s.records.released then
    match s.nextReply with
    | none => await
    | some (k, m, status) =>
      trapIf (m != n) .diverge
      let st := fld status.toNat 0 4
      let zero := List.replicate 8 (0 : Word)
      if st = 2 ∨ st = 3 then
        needs (c.st == SlotState.done || c.st == SlotState.fault)
        set (s.takeRecord (dieOf s.cur) k)
        return (status, c.values, if st = 2 then .done else .fault)
      else
        set (s.takeRecord (dieOf s.cur) k)
        return (status, zero, if st = 4 then .refused else if st = 5 then .lost else if st = 1 then .pending else .free)
  else
    needs (!(w && c.st == SlotState.pending))
    if s.here.job.recmode = 1 then
      set (s.dispatch (dieOf s.cur) 7 [word (coordinate s.cur * 2 ^ 55 + s.here.job.tseq * 2 ^ 35 + n), c.status])
    return (c.status, c.values, c.st)

/-- RPOLL (R322, R323): an outcome frees its slot, and orders the function's accesses before the later scalar ones
(R324). -/
def execRpoll (a : BitVec 5) (w : Bool) (s : State) : Host.Outcome State Fault Refusal :=
  finish .s s ((do
    scalarReady (.rpoll a w)
    let s0 : State ← get
    let x ← item a
    trapIf (decide (64 ≤ x.toNat)) .operand
    let (status, ys, st) ← polled x.toNat w
    let ended := st == SlotState.done || st == SlotState.fault || st == SlotState.refused || st == SlotState.lost
    if ended then
      let c : CallSlot := Sparse.get {} s0.here.slots x.toNat
      onHere fun z => { z with slots := z.slots.put x.toNat {} }
      if st != SlotState.lost then modify fun (t : State) => t.sendAck (c.target, c.ctx, c.id)
      emptyOrdinary
    checkLeaving s0
    retire { items := ys.reverse ++ [status] }
    if !s0.here.sc.k.rctl then
      if st == SlotState.fault || st == SlotState.refused then throw (Stop.trapNext { cause := .remote })
      if st == SlotState.lost then throw (Stop.trapNext { cause := .remlost })).run s)

/-! ## RRET (R321) -/

/-- RRET (R321): every access of the function has performed when it is reached; beyond its limit it ends with WATCHDOG
(R319). -/
def execRret (a : BitVec 5) (n : BitVec 4) (s : State) : Host.Outcome State Fault Refusal :=
  finish .s s ((do
    scalarReady (.rret a n)
    let c ← here
    trapIf c.runner.isNone .operand
    let items ← (List.range n.toNat).mapM fun i => item (a + BitVec.ofNat 5 i)
    modify fun (t : State) =>
      if c.overrun t.stamp then t.endRunner t.cur .fault Cause.watchdog.code []
      else t.endRunner t.cur .done 0 items).run s)

/-! ## Steps of calls (R317-R325) -/

/-- CALL_START (R317, R319, R320): a call meets its target; at a bank unit it starts as its stack's next command. -/
def execCallStart (call : Nat) (s : State) : Host.Outcome State Fault Refusal :=
  match s.callAt call with
  | none => idle s
  | some c =>
    match s.plan call c with
    | (.bank _, _) =>
      match s.nextCmd (c.target / 64) with
      | some q =>
        if q.call = some call then
          match s.issueCmd (c.target / 64) with
          | some t => did t
          | none => idle s
        else idle s
      | none => idle s
    | (p, t) => match t.meet call c p with | some t => did t | none => idle s

/-- CALL_LATE: a target that could not start a call in time refuses it (R319); one whose key it holds waits for that reply
(R320). -/
def execCallLate (call : Nat) (s : State) : Host.Outcome State Fault Refusal :=
  match s.callAt call with
  | some c =>
    if c.started.isNone ∧ s.callOver c ∧ (s.cacheOf c).isNone then did (s.answer call c .refused 5 false false []) else idle s
  | none => idle s

/-- CALL_WATCHDOG: a function that runs beyond its limit ends with FAULT WATCHDOG (R296, R319). -/
def execCallWatchdog (call : Nat) (s : State) : Host.Outcome State Fault Refusal :=
  match s.callAt call with
  | some c =>
    match c.started with
    | some t =>
      if s.stamp ≤ t + 32768 then idle s
      else if c.kind = 0 then did (s.faultCommand c.target .watchdog)
      else did (s.endRunner c.runner .fault Cause.watchdog.code [])
    | none => idle s
  | none => idle s

/-- A reply is no longer on its way. -/
def State.dropReply (s : State) (r : Nat) : State :=
  { s with remote := { s.remote with replies := s.remote.replies.drop r } }

/-- REPLY_ARRIVAL: a reply within its lifetime fills the slot that still waits for it; any other is discarded (R319,
R326). -/
def execReplyArrival (reply : Nat) (s : State) : Host.Outcome State Fault Refusal :=
  match (s.remote.replies.find? fun p => p.1 == reply).map (·.2) with
  | none => idle s
  | some r =>
    if r.sent + 16384 < s.stamp then idle s
    else
      let t := s.dropReply reply
      match s.slotAt r.caller r.inst r.slot with
      | some c =>
        if c.st = .pending ∧ c.id = r.id ∧ c.stamp = r.stamp ∧ s.stamp < r.stamp + 65536 then
          did (t.settleSlot r.caller r.inst r.slot { c with
            st := r.st, cause := r.cause, sat := r.sat, cached := r.cached, items := r.items, count := r.count })
        else did t
      | none => did t

/-- REPLY_EXPIRE: a reply older than its lifetime is discarded where it stands (R319). -/
def execReplyExpire (reply : Nat) (s : State) : Host.Outcome State Fault Refusal :=
  match (s.remote.replies.find? fun p => p.1 == reply).map (·.2) with
  | some r => if r.sent + 16384 < s.stamp then did (s.dropReply reply) else idle s
  | none => idle s

/-- CALL_LOST: a slot still PENDING 65,536 ticks after its call becomes LOST (R319). A slot's number is
(instance * 512 + core) * 64 + slot. -/
def execCallLost (slot : Nat) (s : State) : Host.Outcome State Fault Refusal :=
  let n := slot % 64
  let core := slot / 64 % 512
  let inst := slot / 64 / 512
  match s.slotAt core inst n with
  | some c =>
    if c.st = .pending ∧ c.stamp + 65536 ≤ s.stamp then did (s.settleSlot core inst n { c with st := .lost }) else idle s
  | none => idle s

/-- CALL_ACK: an acknowledgement reaches its target and frees the entry of its key, whose reply is stored (R320). -/
def execCallAck (ack : Nat) (s : State) : Host.Outcome State Fault Refusal :=
  match (s.remote.acks.find? fun p => p.1 == ack).map (·.2) with
  | some (target, ctx, id) =>
    let cache := s.remote.cache.filter fun x => !(x.target == target && x.ctx == ctx && x.id == id && x.reply.isSome)
    did { s with remote := { s.remote with acks := s.remote.acks.drop ack, cache := cache } }
  | none => idle s

/-- REPLY_CACHE_EXPIRE: entries of a target whose latest attempt lies 8,454,144 ticks back are freed (R320). -/
def execReplyCacheExpire (target : Nat) (s : State) : Host.Outcome State Fault Refusal :=
  let old := fun (x : CacheEntry) => x.target == target && decide (x.stamp + 8454144 ≤ s.stamp)
  if s.remote.cache.any old then
    did { s with remote := { s.remote with cache := s.remote.cache.filter fun x => !old x } }
  else idle s

end Sys2Proof.Machine
end

