-- ==== Sys2Proof/Machine/Deadlock.lean ====
section
/-! DEFINITION. Deadlock and the watchdog (02 R41, 12 R388). -/

namespace Sys2Proof.Machine

/-- The lowest-tagged engine that has not stopped (02 R41). -/
def Core.firstEngine (c : Core) : Option Engine := [Engine.s, .v, .m, .x].find? fun e => !(c.ctr e).stop

/-- The next word of the walk that concerns an engine behind, as far as the walk is known. -/
def Core.nextWord (c : Core) (e : Engine) : Option (Nat × Trail) :=
  c.hand.trail.find? fun p => decide ((c.ctr e).walk ≤ p.1) && p.2.concerns e

/-- Walk index and address of the word an engine waits on. -/
def Core.waitsAt (c : Core) (e : Engine) : Nat × Word :=
  match e, c.nest e, c.nextWord e with
  | .s, _, _ => c.at_ .s
  | _, none, some (w, _) => (w, (c.ctr e).addr + word (4 * (w - (c.ctr e).walk)))
  | _, _, _ => c.at_ e

/-- The word at the scalar counter, if its text can be read. -/
def State.scalarWord (s : State) : Option (BitVec 32) :=
  match (fetchText s.here.sc.ctr.addr).run s with
  | .ok w _ => some w
  | .error _ _ => none

/-- Whether another engine of the worker that has not passed walk index w keeps engine e from owning a queue side
(07 R222). -/
def Core.sideWaits (c : Core) (e : Engine) (h : Nat) (q : Option Handle) (prod : Bool) (w : Nat) : Bool :=
  q.any fun x => (c.side h x.gen prod).isNone && !c.abovePlace e w

/-- Whether the claim with which a word of engine e at walk index w opens a slot of port n waits so (05 R152, 07 R222). -/
def Core.portWaits (c : Core) (e : Engine) (n w : Nat) : Bool :=
  match c.vec.ports.getD n none with
  | some p => p.row == 0 && c.sideWaits e p.h (some p.q) p.write w
  | none => false

/-- Whether a claim of a copy word in flight waits so (07 R235, R222). -/
def Core.runWaits (c : Core) (r : CopyRun) : Bool :=
  !r.claimed && (r.srcSide && c.sideWaits .x r.h r.q false r.walk || r.dstSide && c.sideWaits .x r.h r.q true r.walk)

/-- Whether access a, behind what stands in `path` before it, waits for an access that another engine of the worker must still
make: of a word ahead, of a copy word in flight, of a load, or of an item of the path that itself waits so (02 R41,
09 R279). -/
def State.accInside (s : State) (path : List PathItem) (a : Acc) : Nat → Bool
  | 0 => false
  | fuel + 1 =>
    let c := s.here
    let hold := fun (q : Acc) => q.holds s.cur c.req.fences a
    (c.wordsAhead s.cur).any (fun q => q.eng != a.eng && decide (q.walk < a.walk) && hold q) ||
      (a.eng != .x && c.copiesAhead.any fun q => decide (q.walk < a.walk) && hold q) ||
      (a.run != 0 && c.cpy.runs.any fun r => decide (r.id < a.run) && !r.passed) ||
      (s.loadsAhead s.cur).any (fun q => decide (q.walk < a.walk) && hold q && (a.eng != .s || s.accInside path q fuel)) ||
      (List.range path.length).any fun n => match path[n]? with
        | some p => !p.acc.later a && (match p.act with
            | .seals .. => false
            | _ => p.acc.holds s.cur c.req.fences a && s.accInside (path.take n) p.acc fuel)
        | none => false

/-- Whether access a of the current core waits so; whether item n of the path does. -/
def State.inside (s : State) (a : Acc) : Bool :=
  let path := s.here.req.path
  s.accInside path a (path.length + s.here.sc.loads.length + 2)
def State.itemInside (s : State) (n : Nat) : Bool :=
  let path := s.here.req.path
  match path[n]? with
  | some p =>
    (match p.act with
      | .seals t k => decide (15 < s.here.sealCount p.acc.eng t + k)
      | _ => s.accInside (path.take n) p.acc (path.length + s.here.sc.loads.length + 2))
  | none => false

/-- Whether an item of the path that p accepts waits so, one of seals also for an access of its engine before it. -/
def State.anyItem (s : State) (p : PathItem → Bool) : Bool :=
  let path := s.here.req.path
  (List.range path.length).any fun n => match path[n]? with
    | some x => p x && (s.itemInside n || match x.act with
        | .seals .. => (List.range n).any fun m => (path[m]?).any (fun y => y.acc.eng == x.acc.eng) && s.itemInside m
        | _ => false)
    | none => false

/-- Whether accesses below walk index w that p accepts are still to be made, and wait for another engine. -/
def State.owedInside (s : State) (w : Nat) (p : Acc → Bool) : Bool :=
  let c := s.here
  let due := fun (a : Acc) => decide (a.walk < w) && p a
  (c.wordsAhead s.cur ++ c.copiesAhead).any due || (s.loadsAhead s.cur).any (fun a => due a && s.inside a)
    || s.anyItem fun x => due x.acc

/-- Whether a TAKE of n seals by engine e waits on engine g: for seals it has not given, or for seals that held accesses keep
back (02 R41, 09 R279). -/
def State.takeWaits (s : State) (g e : Engine) (n : Nat) : Bool :=
  let c := s.here
  decide (c.sealCount g e < n) && (decide (c.sealCount g e + c.sealsDue g e < n) || s.anyItem fun x =>
    x.acc.eng == g && match x.act with | .seals t _ => t == e | _ => false)

/-- Whether a word makes its engine wait. -/
def waits : Host.Outcome State Fault Refusal → Bool
  | .next t => t.stalled
  | _ => false

/-- The scalar engine's word, executed, where its waiting may be on another engine of the worker. -/
def State.scalarTry (s : State) (i : Instr) : Host.Outcome State Fault Refusal :=
  match i with
  | .take p n => execTake p n s
  | .give p n => execGive p n s
  | .br t b n => execBr t b n s
  | .call b => execCall b s
  | .rets => execRets s
  | .jtb a b n => execJtb a b n s
  | .fmtq a => execFmtq a s
  | .stmpq a => execStmpq a s
  | .prmw a f n => execPrmw a f n s
  | .qset a b h => execQset a b h s
  | .setk a k => execSetk a k s
  | .qinfo sd h => execQinfo sd h s
  | .qwait a sd h => execQwait a sd h s
  | .fence p q sc m => execFence p q sc m s
  | .fencea p q sc => execFencea p q sc s
  | .axch a b k o sz => execAxch a b k o sz s
  | .acas a b d k o sz => execAcas a b d k o sz s
  | .aadd a b k o sz => execAadd a b k o sz s
  | .aand a b k o sz => execAand a b k o sz s
  | .aor a b k o sz => execAor a b k o sz s
  | .axor a b k o sz => execAxor a b k o sz s
  | .amin a b k o sz => execAmin a b k o sz s
  | .amax a b k o sz => execAmax a b k o sz s
  | .aminn a b k o sz => execAminn a b k o sz s
  | .amaxn a b k o sz => execAmaxn a b k o sz s
  | .st a v k sz l o => execSt a v k sz l o s
  | .trig a => execTrig a s
  | .tret a => execTret a s
  | .tlaunch a => execTlaunch a s
  | .sreg a => execSreg a s
  | .sbind a b => execSbind a b s
  | .spost a b n => execSpost a b n s
  | .waitSerai a => execWaitSerai a s
  | .search a c => execSearch a c s
  | .pgshare a b m => execPgshare a b m s
  | .pgdrop a => execPgdrop a s
  | _ => .next s

/-- The access of a scalar word of a class and kinds, wherever it goes, behind every earlier one with `rel`. -/
def State.scalarInsideAcc (s : State) (cls : Nat) (ks : Kinds) (rel : Bool := false) : Bool :=
  s.inside { walk := s.here.sc.ctr.walk, cls := cls, kinds := ks, rel := if rel then some 3 else none }

/-- The condition, of those that another engine of the worker satisfies, that the scalar word i may wait for (02 R41,
09 R279). -/
def State.scalarNeeds (s : State) (i : Instr) : Bool :=
  let c := s.here
  let w := c.sc.ctr.walk
  let rd : Kinds := { r := true }
  let rw : Kinds := { r := true, w := true }
  let atom := fun (k : BitVec 4) (o : BitVec 2) => s.scalarInsideAcc k.toNat rw (o.getLsbD 1)
  let fenced := fun (p : BitVec 6) (sc : BitVec 3) (m : BitVec 16) =>
    s.owedInside w fun a => fenceWaits s.cur (kindsOf p) sc.toNat m a
  let routes := decide (64 ≤ c.hand.route.length)
  match i with
  | .take p n => s.takeWaits (engineOf p) .s n.toNat
  | .give p n =>
    decide (15 < c.sealCount .s (engineOf p) + c.sealsDue .s (engineOf p) + n.toNat)
  | .br .. | .call .. | .rets | .jtb .. => routes
  | .fmtq _ => decide (64 ≤ c.hand.fmtq.length)
  | .stmpq _ => decide (64 ≤ c.hand.stampq.length)
  | .prmw _ f _ =>
    let e := if f.toNat < 8 ∨ f.toNat = 40 then Engine.v else if f.toNat < 16 then .m else .x
    decide (32 ≤ (c.params e).length)
  | .qset .. => decide (32 ≤ c.hand.pv.length) || decide (32 ≤ c.hand.px.length) || s.scalarInsideAcc 0 rw
  | .setk _ k =>
    let n := k.toNat
    (decide (0x100 ≤ n) && decide (n ≤ 0x103) || n == 0x011) && decide (32 ≤ c.hand.pv.length)
      || (n == 0x200 || n == 0x020 || n == 0x011) && decide (32 ≤ c.hand.pm.length)
  | .qinfo .. | .qwait .. | .sbind .. | .tlaunch .. | .waitSerai .. => s.scalarInsideAcc 0 rd
  | .fence p _ sc m => fenced p sc (match c.sc.strand[m.toNat]? with | some v => v.setWidth 16 | none => 0)
  | .fencea p _ sc => fenced p sc (BitVec.allOnes 16)
  | .axch _ _ k o _ | .acas _ _ _ k o _ | .aadd _ _ k o _ | .aand _ _ k o _ | .aor _ _ k o _ | .axor _ _ k o _
  | .amin _ _ k o _ | .amax _ _ k o _ | .aminn _ _ k o _ | .amaxn _ _ k o _ => atom k o
  | .st _ _ k _ l _ => s.scalarInsideAcc k.toNat rw l
  | .trig a => (match c.sc.strand[a.toNat]? with | some x => s.owedInside w (fun q => bit x.toNat q.cls) | none => false)
  | .tret _ => s.scalarInsideAcc 0 rd || s.owedInside w fun _ => true
  | .sreg _ | .pgshare .. | .pgdrop _ => s.scalarInsideAcc 0 rw || s.owedInside w fun q => q.eng == .s
  | .spost .. => s.scalarInsideAcc 0 rw true
  | .search _ k => s.scalarInsideAcc k.toNat rw
  | _ => false

/-- Whether the oldest load of the current core, or advance, waits only on another engine of its worker. -/
def State.loadInside (s : State) : Bool :=
  let c := s.here
  match c.sc.loads with
  | [] => false
  | l :: _ =>
    let side := match l.kind with | .advance h q p _ => c.sideWaits .s h (some q) p l.walk | _ => false
    (side || s.inside (l.acc (s.home l.loc))) && waits (execLoadReturn { s with pick := 0 })

/-- Whether the scalar engine waits only on another engine of its worker (02 R41): a barrier is no such wait. -/
def State.scalarInside (s : State) : Bool :=
  let c := s.here
  if !c.slipOk then true
  else if c.sc.pend.isSome then
    (c.convoyBehind c.sc.ctr.walk || match c.sc.pend with
      | some p => s.scalarInsideAcc p.ref.cls { r := true, w := true } p.rel.isSome
      | none => false) && waits (execConvoyApply s)
  else if !c.sc.arrivedBy c.sc.beat then s.loadInside
  else
    match s.scalarWord with
    | none => false
    | some x =>
      let i := instrOf x
      if engineOfWord x ≠ .s then
        if c.sc.landing then false
        else if isReturn x then (if c.hand.ret.isNone then true else s.loadInside)
        else !(captureOf x).isEmpty && c.wantsCapture c.sc.ctr.walk && decide (32 ≤ c.hand.descq.length)
      else if !c.sc.loads.isEmpty && !undoable i then s.loadInside
      else s.scalarNeeds i && waits (s.scalarTry i)

/-- Whether engine e goes on in the walk without executing a word: up to its next word or to the scalar counter, past a route
outcome, or to TEXIT (02 R31, R34, R42). -/
def Core.walksOn (c : Core) (e : Engine) : Bool :=
  let k := c.ctr e
  let top := match c.nextWord e with | some p => p.1 | none => c.sc.ctr.walk
  decide (k.walk < top) || (c.hand.route.any fun r => decide (k.walk ≤ r.walk) && decide (r.walk ≤ top) && !r.taken e) ||
    match c.nextWord e with | some (_, .texit) => true | _ => false

/-- Whether an engine behind, at word x, waits only on another engine of its worker (02 R41); the copy engine's words in
flight are looked at beside it. -/
def State.wordInside (s : State) (e : Engine) (x : BitVec 32) : Bool :=
  let c := s.here
  let i := instrOf x
  let w := (c.at_ e).1
  let copies := decide (c.cpy.runs.length ≠ 0) || s.anyItem fun p => p.acc.run != 0
  !c.stands w ||
  (isReturn x && c.hand.ret.isSome) ||
  (match i with
    | .vTake p n | .mTake p n | .xTake p n => s.takeWaits (engineOf p) e n.toNat
    | .vGive p n | .mGive p n => decide (15 < c.sealCount e (engineOf p) + c.sealsDue e (engineOf p) + n.toNat)
    | .xGive p n => decide (15 < c.sealCount e (engineOf p) + c.sealsDue e (engineOf p) + n.toNat) || copies
    | .xWait _ => copies
    | .xQadv h sd _ => c.sideWaits e h.toNat (c.cpy.handles.getD h.toNat none) sd w || copies
    | _ => e == .x && !c.cpy.runs.all (·.claimed)) ||
  ((List.range 4).any fun n => namesPort i n && c.portWaits e n w) ||
  match accessOf i with
  | some (cls, ks) => e != .x && s.inside { walk := w, eng := e, cls := cls, kinds := ks }
  | none => false

/-- Whether the copy words in flight go no further, the first of them only for want of another engine of the worker (07 R232,
02 R41, 09 R279). -/
def State.copiesInside (s : State) : Bool :=
  let runs := s.here.cpy.runs
  (List.range runs.length).all (fun n => waits (execCopyUnit { s with pick := n })) &&
    match runs.find? fun (r : CopyRun) => !r.passed with
    | none => runs.isEmpty
    | some r => s.here.runWaits r ||
        s.inside { walk := r.walk, eng := .x, cls := r.cls, kinds := { cr := true, cw := true }, run := r.id }

/-- Whether an engine behind waits only on another engine of its worker (02 R41): at a word of its own, or for the scalar
engine to show it the walk. -/
def State.engineInside (s : State) (e : Engine) : Bool :=
  let c := s.here
  match (c.ctr e).next, c.nest e with
  | some p, _ => decide (c.sc.ctr.walk < p.1)
  | none, some n => (match n.body[n.pos]? with | some w => !n.stale && s.wordInside e w | none => false)
  | none, none =>
    !c.walksOn e &&
      match c.nextWord e with
      | some (_, .word x _) => s.wordInside e x
      | some (_, .again _) => false
      | some (_, .texit) => false
      | none =>
        match s.scalarWord with
        | some w => engineOfWord w != e || c.sc.landing || s.wordInside e w
        | none => true

/-- Whether the worker of the current core is deadlocked (02 R41). -/
def State.deadlocked (s : State) : Bool :=
  let c := s.here
  c.run == .running && !c.gated && !c.deferred && c.firstEngine.isSome && (s.core (runnerKey s.cur)).runner.isNone
    && (c.sc.ctr.stop || s.scalarInside)
    && (c.cpy.runs.isEmpty || s.copiesInside)
    && [Engine.v, .m, .x].all fun e => (c.ctr e).stop || s.engineInside e

/-- The task of the current core stops at the word its first engine waits on (02 R41, 12 R388). -/
def State.stopWaiting (s : State) (why : Cause) : Host.Outcome State Fault Refusal :=
  match s.here.firstEngine with
  | some e => did (s.takeTrap s.cur e (s.here.waitsAt e) { cause := why })
  | none => idle s

/-- SEALFAULT (02 R41). -/
def execSealfault (s : State) : Host.Outcome State Fault Refusal := if s.deadlocked then s.stopWaiting .sealfault else idle s

/-- WATCHDOG (12 R388). -/
def execWatchdog (s : State) : Host.Outcome State Fault Refusal :=
  let c := s.here
  let rests := !c.sc.ctr.stop && match s.scalarWord.map instrOf with
    | some (.waitTick _) => true
    | some (.waitSerai _) => true
    | some (.tret _) => true
    | _ => false
  if c.run = .running ∧ !c.gated ∧ !c.deferred ∧ s.sched.wdlimit.toNat ≤ s.stamp - c.lastIssue ∧ !rests then
    s.stopWaiting .watchdog
  else idle s

end Sys2Proof.Machine
end

