-- ==== Sys2Proof/Machine/Agenda.lean ====
section
/-! DEFINITION. Which agent moves (log 1): the agenda's head, or with an empty agenda a default schedule; and placing a
word where the next step fetches it (log 9). -/

namespace Sys2Proof.Machine

/-! ## The agenda -/

/-- A body word of an empty matrix nest pops what it would (06 R198): what that turn comes to. -/
def State.emptyDue (s : State) : Option Due :=
  match s.here.mat.nest with
  | some n =>
    if n.trips ≠ 0 ∨ n.stale ∨ s.here.run ≠ .running then none
    else (n.body[n.pos]?).map fun w => match popWord w s with | .next t => .done t | _ => s.stall
  | none => none

/-- A turn of word n of the copy words in flight: its next unit, or the end of an X.BANKGO (07 R233, 10 R303). -/
def State.copyDue (s : State) (n : Nat) : Due :=
  match s.here.cpy.runs[n]? with
  | some r => .run (if r.passed then .bankgoComplete else .copyUnit) { s with pick := n }
  | none => s.stall

/-- What one place of the agenda comes to. -/
def State.dueOf (s : State) (x : Slot) : Due :=
  let s := { s with cur := x.core, stamp := s.stamp + x.dt }
  match x.turn with
  | .engine .s => s.scalarDue
  | .engine .m => s.emptyDue.getD (s.engineDue .m)
  | .engine e => s.engineDue e
  | .copy n => s.copyDue n
  | .load n => .run .loadReturn { s with pick := n }
  | .unit u => s.unitDue u
  | .event i => .run i s

/-! ## The default schedule (log 1) -/

/-- Events of the device as a whole, in the place of the current core. -/
def State.eventsAt (s : State) (is : List Instr) : List Slot := is.map fun i => { core := s.cur, dt := 0, turn := .event i }

/-- Keys of a table. -/
def keysOf {α : Type} (l : Sparse α) : List Nat := l.map (·.1)

/-- Keys in rotation: those above n first. -/
def rotate (n : Nat) (l : List Nat) : List Nat := (l.filter fun k => decide (n < k)) ++ l.filter fun k => decide (k ≤ n)

/-- Boot, the master, waybills, serais, coolant and pages: what the device does by itself. -/
def State.deviceEvents (s : State) : List Instr :=
  (if s.trust.powered && !s.trust.released && !s.trust.recovery then [Instr.fosynBoot] else []) ++
  (if s.sched.electing then [Instr.masterElection] else []) ++
  (if s.banks.refilled < s.stamp / 16 then [Instr.tollRefill] else []) ++
  (s.buckets.filter fun p => !p.2.waiting.isEmpty).map (fun p => Instr.tollGrant p.1) ++
  (s.sched.posts.map (·.serai)).eraseDups.map Instr.devicePostDeliver ++
  (s.sched.serais.filter fun p => p.2.bound.isSome && p.2.running.isNone).map (fun p => Instr.handlerLaunch p.1) ++
  (if s.liveScores.any fun p => p.2.st == .held then [Instr.coolGrant] else []) ++
  (if s.liveScores.any fun p => p.2.selectable then [Instr.instanceIssue, Instr.preemptDecision] else []) ++
  (if s.pages.invals.isEmpty then [] else [Instr.invalComplete]) ++
  (if s.trust.moves.isEmpty then [] else [Instr.hostTransferDone]) ++
  (if s.cool.valved.all fun t => decide (t + 800 ≤ s.stamp) then [Instr.valveUpdate] else []) ++
  [Instr.limitEnter, Instr.limitExit] ++
  (keysOf s.cool.zones).flatMap fun z =>
    [Instr.tripUngate z, .dryCloseValve z, .dryPurge z, .dryRefill z, .dryVerify z, .dryRelease z]

/-- Remote calls, the pending ones among them by instance, core and slot (log 1). -/
def State.callEvents (s : State) : List Instr :=
  let pending := fun (inst core : Nat) (c : Core) =>
    (c.slots.filter fun p => p.2.st == .pending).map fun p => Instr.callLost ((inst * 512 + core) * 64 + p.1)
  (keysOf s.remote.calls).flatMap (fun c => [Instr.callLate c, .callWatchdog c, .callStart c]) ++
  (keysOf s.remote.replies).flatMap (fun r => [Instr.replyExpire r, .replyArrival r]) ++
  (keysOf s.remote.acks).map Instr.callAck ++
  (s.remote.cache.map (·.target)).eraseDups.map Instr.replyCacheExpire ++
  s.cores.flatMap (fun p => pending p.2.job.inst p.1 p.2) ++
  s.liveScores.flatMap fun p => p.2.insts.flatMap fun i => match i.saved with
    | some (cores, _) => cores.flatMap fun q => pending i.id q.1 q.2
    | none => []

/-- Searches, merges, streams, stacks and timetables. -/
def State.memoryEvents (s : State) : List Instr :=
  (s.liveScores.filter fun p => p.2.wb.kind == 1).flatMap (fun p => [Instr.searchHop p.1 0, .searchDone p.1]) ++
  (keysOf s.flash.regions).flatMap (fun r => [Instr.indexMergeDone r, .indexMergeStart r]) ++
  (s.liveScores.filter fun p => p.2.wb.kind == 2).flatMap (fun p => [Instr.streamStart p.1, .streamEntry p.1]) ++
  (s.banks.stackTab.filter fun p => !p.2.waiting.isEmpty).map (fun p => Instr.bankCmdIssue p.1) ++
  (keysOf s.banks.chans).flatMap fun c => [Instr.timetableStart c, .forcedRefresh c, .timetableEntry c]

/-- The loads whose data is awaited on a core, its held accesses, and the end of its task. -/
def coreEvents (k : Nat) (c : Core) : List Slot :=
  let is := (List.range c.req.path.length).flatMap (fun n => [Instr.heldAccessPerform n, .orderGateMatch n]) ++ [Instr.taskEnd]
  ((List.range c.sc.loads.length).map Turn.load ++ is.map Turn.event).map fun t => { core := k, dt := 0, turn := t }

/-- The turns of a core's engines and of its copy words in flight. -/
def coreTurns (k : Nat) (c : Core) : List Slot :=
  let scalar : Slot := { core := k, dt := 1, turn := .engine .s }
  if k < 512 then
    (List.range c.cpy.runs.length).map (fun n => { core := k, dt := 0, turn := .copy n }) ++
    [{ core := k, dt := 0, turn := .engine .x }, { core := k, dt := 0, turn := .engine .m },
     { core := k, dt := 0, turn := .engine .v }, scalar]
  else [scalar]

/-- Cores on which an access is held, in rotation: held accesses perform also while the task is stopped (09 R441). -/
def State.holding (s : State) : List Nat :=
  rotate s.cur (keysOf (s.cores.filter fun p => p.2.run == .running || !p.2.req.path.isEmpty))

/-- Register writes that ended tasks have left, behind the path of the current core (09 R441). -/
def State.lateEvents (s : State) : List Instr :=
  (List.range s.sched.late.length).map fun n => .heldAccessPerform (s.here.req.path.length + n)

/-- Cores whose task may issue, in rotation. -/
def State.awake (s : State) : List Nat :=
  rotate s.cur (keysOf (s.cores.filter fun p => p.2.run == .running && !p.2.gated && !p.2.deferred))

/-- The turns of bank units at work, in rotation. -/
def State.unitTurns (s : State) : List Slot :=
  (rotate s.curUnit (keysOf (s.banks.units.filter fun p => p.2.run.isSome || !p.2.uploads.isEmpty))).map fun u =>
    { core := s.cur, dt := 1, turn := .unit u }

/-- The turns the default schedule offers, in its order: it takes the first that is not held up. Engines and bank units
come first in turn, by the parity of the stamp. -/
def State.offers (s : State) : List Slot :=
  let engines := s.awake.flatMap fun k => coreTurns k (s.core k)
  let late := s.awake.flatMap fun k =>
    [{ core := k, dt := 0, turn := .event .sealfault }, { core := k, dt := 0, turn := .event .watchdog }]
  s.eventsAt (s.deviceEvents ++ s.callEvents ++ s.memoryEvents ++ s.lateEvents) ++
    s.holding.flatMap (fun k => coreEvents k (s.core k)) ++
    (if s.stamp % 2 = 0 then engines ++ s.unitTurns else s.unitTurns ++ engines) ++ late

/-! ## Stamped words (06 R187) -/

/-- The tick at which the stamped word that core c's matrix engine stands before is to issue, from `now` on. -/
def Core.stampTick (c : Core) (now : Nat) : Option Nat :=
  match c.nextWord .m with
  | some (w, .word x _) =>
    if c.run = .running ∧ !c.gated ∧ !c.deferred ∧ isProduct x ∧ fieldOf x 3 1 = 1 ∧ !c.mat.release then
      match c.hand.stampq with
      | h :: _ => if h.walk < w ∧ now ≤ h.val.toNat then some h.val.toNat else none
      | [] => none
    else none
  | _ => none

/-- Pairs put in order of their first parts. -/
def insertTick (a : Nat × Nat) : List (Nat × Nat) → List (Nat × Nat)
  | [] => [a]
  | b :: l => if a.1 ≤ b.1 then a :: b :: l else b :: insertTick a l

/-- The ticks at which stamped words are to issue, with their cores, soonest first: no turn goes beyond one that is ready. -/
def State.stampTicks (s : State) : List (Nat × Nat) :=
  (s.cores.filterMap fun p => (p.2.stampTick s.stamp).map fun t => (t, p.1)).foldr insertTick []

/-! ## Placing a word (log 9) -/

/-- Core 0 as a task's core at walk index 0, its text page held in the TLB at the frame at 0x80000. -/
def Core.placed (c : Core) : Core :=
  { c with
    run := .running, gated := false, deferred := false, runner := none
    sc := { c.sc with ctr := {}, pend := none, loads := [], landing := false }
    vec := { c.vec with ctr := {}, nest := none }
    mat := { c.mat with ctr := {}, nest := none }
    cpy := { c.cpy with ctr := {}, nest := none, runs := [] }
    hand := { c.hand with route := [], trail := [] }
    tlb := { ctx := c.job.ctx, va := 0, size := 2 ^ 19, pa := 0x80000, r := true, w := true, x := true, plain := [] } :: c.tlb }

/-- A word of Gyfen as the text at which core 0 stands, captured for if it is a matrix word that names descriptors (02 R38);
the agenda's head is its engine. -/
def State.placeWord (s : State) (w : BitVec 32) : State :=
  let caps := captureOf w
  let c := (s.core 0).placed
  let queued : List Capture := [{ walk := 0, items := caps.map fun n => c.sc.strand[n]? }]
  let c := if caps.isEmpty then c else { c with hand := { c.hand with descq := queued } }
  let s := s.setCore 0 c
  let s := s.write 0x80000 (bytesOfWord w)
  { s with cur := 0, agenda := { core := 0, dt := 0, turn := .engine (engineOfWord w) } :: s.agenda,
           trust := { s.trust with released := true } }

/-- A move word as the store of bank unit 0, which runs a command without a window; the agenda's head is the unit. -/
def State.placeMove (s : State) (w : BitVec 32) : State :=
  let r : UnitRun := { started := s.stamp, window := [], call := none, cls := 0, who := ⟨0, 0, 0⟩ }
  let s := s.setUnit 0 { (s.unit 0) with run := some r, pc := 0, rep := none, store := [w] }
  { s with agenda := { core := s.cur, dt := 0, turn := .unit 0 } :: s.agenda, trust := { s.trust with released := true } }

/-- A table word placed as its decoder reads it: program text, or what that refuses as a move word (log 22). -/
def State.placeTable (s : State) (w : BitVec 32) : State :=
  match decode w, decodeBank w with
  | .instr _, _ => s.placeWord w
  | _, .instr _ => s.placeMove w
  | _, _ => s.placeWord w

end Sys2Proof.Machine
end

