-- ==== Sys2Proof/Machine/Scalar.lean ====
section
/-! DEFINITION. Integer work on the strand (04 R114-R122), NOP and ILL (02 R59, R60). -/

namespace Sys2Proof.Machine

/-! ## Values of R115-R121 (04) -/

/-- A function of two operands in the 64-bit or, with w, the 32-bit form; the whole item of the second operand is the shift
amount (04 R114). -/
def binary (w : Bool) (f : (n : Nat) → BitVec n → BitVec n → Nat → BitVec n) (x y : Word) : Word :=
  if w then (f 32 (x.setWidth 32) (y.setWidth 32) y.toNat).signExtend 64 else f 64 x y y.toNat

/-- Multiplication, high parts (04 Table 50). -/
def mulHigh (n : Nat) (x y : BitVec n) : BitVec n := BitVec.ofInt n (x.toInt * y.toInt / 2 ^ n)
def mulHighN (n : Nat) (x y : BitVec n) : BitVec n := BitVec.ofNat n (x.toNat * y.toNat / 2 ^ n)

/-- Division and remainder (04 Table 50). -/
def divS (n : Nat) (x y : BitVec n) : BitVec n := if y = 0 then BitVec.allOnes n else BitVec.ofInt n (x.toInt.tdiv y.toInt)
def divU (n : Nat) (x y : BitVec n) : BitVec n := if y = 0 then BitVec.allOnes n else BitVec.ofNat n (x.toNat / y.toNat)
def remS (n : Nat) (x y : BitVec n) : BitVec n := if y = 0 then x else BitVec.ofInt n (x.toInt.tmod y.toInt)
def remU (n : Nat) (x y : BitVec n) : BitVec n := if y = 0 then x else BitVec.ofNat n (x.toNat % y.toNat)

/-- Shifts and rotates by an unbounded amount (04 Table 50). -/
def shiftL (n : Nat) (x : BitVec n) (k : Nat) : BitVec n := if n ≤ k then 0 else x <<< k
def shiftR (n : Nat) (x : BitVec n) (k : Nat) : BitVec n := if n ≤ k then 0 else x >>> k
def shiftA (n : Nat) (x : BitVec n) (k : Nat) : BitVec n := x.sshiftRight (if n ≤ k then n - 1 else k)
def rotL (n : Nat) (x : BitVec n) (k : Nat) : BitVec n := x.rotateLeft (k % n)
def rotR (n : Nat) (x : BitVec n) (k : Nat) : BitVec n := x.rotateRight (k % n)

/-- The lesser and the greater (04 Table 50). -/
def minS (n : Nat) (x y : BitVec n) : BitVec n := if x.toInt ≤ y.toInt then x else y
def maxS (n : Nat) (x y : BitVec n) : BitVec n := if x.toInt ≤ y.toInt then y else x
def minU (n : Nat) (x y : BitVec n) : BitVec n := if x.toNat ≤ y.toNat then x else y
def maxU (n : Nat) (x y : BitVec n) : BitVec n := if x.toNat ≤ y.toNat then y else x

/-- A truth value (04 R116). -/
def truth (b : Bool) : Word := if b then 1 else 0

/-- A relation of two operands in either width (04 R116). -/
def relation (w : Bool) (f : (n : Nat) → BitVec n → BitVec n → Bool) (x y : Word) : Word :=
  truth (if w then f 32 (x.setWidth 32) (y.setWidth 32) else f 64 x y)

/-- Zero bits before the first one bit in the order p gives, over n bits (04 R117). -/
def zerosIn (p : Nat → Bool) : Nat → Nat → Nat
  | 0, _ => 0
  | n + 1, i => if p i then 0 else 1 + zerosIn p n (i + 1)

/-- Counting and reversing bits (04 R117). -/
def clzOf (n : Nat) (x : BitVec n) : Nat := zerosIn (fun i => x.getLsbD (n - 1 - i)) n 0
def ctzOf (n : Nat) (x : BitVec n) : Nat := zerosIn (fun i => x.getLsbD i) n 0
def popOf (n : Nat) (x : BitVec n) : Nat := ((List.range n).filter fun i => x.getLsbD i).length
def brevOf (n : Nat) (x : BitVec n) : BitVec n :=
  BitVec.ofNat n ((List.range n).foldl (fun acc i => 2 * acc + (x.getLsbD i).toNat) 0)

/-- A count over the W-bit operand (04 R117). -/
def counted (w : Bool) (f : (n : Nat) → BitVec n → Nat) (x : Word) : Word :=
  word (if w then f 32 (x.setWidth 32) else f 64 x)

/-- The immediate of ADDI (04 R119). -/
def addImm (n : Nat) (h : BitVec 2) (i : BitVec 16) : BitVec n := BitVec.ofInt n (i.toInt * 2 ^ (16 * h.toNat))

/-- The immediates of ANDI, ORI and XORI: the other halfwords hold ones or zeros (04 R119). -/
def halfImm (ones : Bool) (h : BitVec 2) (i : BitVec 16) : Word :=
  let z := word (i.toNat * 2 ^ (16 * h.toNat))
  if ones then z ||| ~~~ word (0xFFFF * 2 ^ (16 * h.toNat)) else z

/-- LIT with a halfword position replaces that halfword (04 R121). -/
def litMerge (x : Word) (h : BitVec 2) (i : BitVec 16) : Word :=
  (x &&& ~~~ word (0xFFFF * 2 ^ (16 * h.toNat))) ||| word (i.toNat * 2 ^ (16 * h.toNat))

/-! ## Bodies -/

/-- A word of two operands with one result. -/
def two (lat : Nat) (a b : BitVec 5) (f : Word → Word → Word) : M Drop := do
  let x ← item a
  let y ← item b
  return { lat := lat, items := [f x y] }

/-- A word of one operand with one result. -/
def one (a : BitVec 5) (f : Word → Word) : M Drop := do
  let x ← item a
  return { items := [f x] }

/-! ## Meanings -/

/-- ILL (02 R59). -/
def execIll (x : BitVec 24) (s : State) : Host.Outcome State Fault Refusal := strandWord (.ill x) (trap .illword) s
/-- NOP (02 R60). -/
def execNop (s : State) : Host.Outcome State Fault Refusal := strandWord .nop (pure {}) s

/-- ADD (04 R115). -/
def execAdd (a b : BitVec 5) (w : Bool) (s : State) : Host.Outcome State Fault Refusal :=
  strandWord (.add a b w) (two 1 a b (binary w (fun _ x y _ => x + y))) s

/-- SUB (04 R115). -/
def execSub (a b : BitVec 5) (w : Bool) (s : State) : Host.Outcome State Fault Refusal :=
  strandWord (.sub a b w) (two 1 a b (binary w (fun _ x y _ => x - y))) s

/-- MUL (04 R115). -/
def execMul (a b : BitVec 5) (w : Bool) (s : State) : Host.Outcome State Fault Refusal :=
  strandWord (.mul a b w) (two 3 a b (binary w (fun _ x y _ => x * y))) s

/-- MULH (04 R115). -/
def execMulh (a b : BitVec 5) (w : Bool) (s : State) : Host.Outcome State Fault Refusal :=
  strandWord (.mulh a b w) (two 3 a b (binary w (fun n x y _ => mulHigh n x y))) s

/-- MULHN (04 R115). -/
def execMulhn (a b : BitVec 5) (w : Bool) (s : State) : Host.Outcome State Fault Refusal :=
  strandWord (.mulhn a b w) (two 3 a b (binary w (fun n x y _ => mulHighN n x y))) s

/-- DIV (04 R115). -/
def execDiv (a b : BitVec 5) (w : Bool) (s : State) : Host.Outcome State Fault Refusal :=
  strandWord (.div a b w) (two 12 a b (binary w (fun n x y _ => divS n x y))) s

/-- DIVN (04 R115). -/
def execDivn (a b : BitVec 5) (w : Bool) (s : State) : Host.Outcome State Fault Refusal :=
  strandWord (.divn a b w) (two 12 a b (binary w (fun n x y _ => divU n x y))) s

/-- REM (04 R115). -/
def execRem (a b : BitVec 5) (w : Bool) (s : State) : Host.Outcome State Fault Refusal :=
  strandWord (.rem a b w) (two 12 a b (binary w (fun n x y _ => remS n x y))) s

/-- REMN (04 R115). -/
def execRemn (a b : BitVec 5) (w : Bool) (s : State) : Host.Outcome State Fault Refusal :=
  strandWord (.remn a b w) (two 12 a b (binary w (fun n x y _ => remU n x y))) s

/-- AND (04 R115). -/
def execAnd (a b : BitVec 5) (w : Bool) (s : State) : Host.Outcome State Fault Refusal :=
  strandWord (.and a b w) (two 1 a b (binary w (fun _ x y _ => x &&& y))) s

/-- OR (04 R115). -/
def execOr (a b : BitVec 5) (w : Bool) (s : State) : Host.Outcome State Fault Refusal :=
  strandWord (.or a b w) (two 1 a b (binary w (fun _ x y _ => x ||| y))) s

/-- XOR (04 R115). -/
def execXor (a b : BitVec 5) (w : Bool) (s : State) : Host.Outcome State Fault Refusal :=
  strandWord (.xor a b w) (two 1 a b (binary w (fun _ x y _ => x ^^^ y))) s

/-- ANDN (04 R115). -/
def execAndn (a b : BitVec 5) (w : Bool) (s : State) : Host.Outcome State Fault Refusal :=
  strandWord (.andn a b w) (two 1 a b (binary w (fun _ x y _ => x &&& ~~~y))) s

/-- SHL (04 R115). -/
def execShl (a b : BitVec 5) (w : Bool) (s : State) : Host.Outcome State Fault Refusal :=
  strandWord (.shl a b w) (two 1 a b (binary w (fun n x _ k => shiftL n x k))) s

/-- SHR (04 R115). -/
def execShr (a b : BitVec 5) (w : Bool) (s : State) : Host.Outcome State Fault Refusal :=
  strandWord (.shr a b w) (two 1 a b (binary w (fun n x _ k => shiftR n x k))) s

/-- SAR (04 R115). -/
def execSar (a b : BitVec 5) (w : Bool) (s : State) : Host.Outcome State Fault Refusal :=
  strandWord (.sar a b w) (two 1 a b (binary w (fun n x _ k => shiftA n x k))) s

/-- ROL (04 R115). -/
def execRol (a b : BitVec 5) (w : Bool) (s : State) : Host.Outcome State Fault Refusal :=
  strandWord (.rol a b w) (two 1 a b (binary w (fun n x _ k => rotL n x k))) s

/-- ROR (04 R115). -/
def execRor (a b : BitVec 5) (w : Bool) (s : State) : Host.Outcome State Fault Refusal :=
  strandWord (.ror a b w) (two 1 a b (binary w (fun n x _ k => rotR n x k))) s

/-- MIN (04 R115). -/
def execMin (a b : BitVec 5) (w : Bool) (s : State) : Host.Outcome State Fault Refusal :=
  strandWord (.min a b w) (two 1 a b (binary w (fun n x y _ => minS n x y))) s

/-- MAX (04 R115). -/
def execMax (a b : BitVec 5) (w : Bool) (s : State) : Host.Outcome State Fault Refusal :=
  strandWord (.max a b w) (two 1 a b (binary w (fun n x y _ => maxS n x y))) s

/-- MINN (04 R115). -/
def execMinn (a b : BitVec 5) (w : Bool) (s : State) : Host.Outcome State Fault Refusal :=
  strandWord (.minn a b w) (two 1 a b (binary w (fun n x y _ => minU n x y))) s

/-- MAXN (04 R115). -/
def execMaxn (a b : BitVec 5) (w : Bool) (s : State) : Host.Outcome State Fault Refusal :=
  strandWord (.maxn a b w) (two 1 a b (binary w (fun n x y _ => maxU n x y))) s

/-- CEQ (04 R116). -/
def execCeq (a b : BitVec 5) (w : Bool) (s : State) : Host.Outcome State Fault Refusal :=
  strandWord (.ceq a b w) (two 1 a b (relation w (fun _ x y => x == y))) s

/-- CNE (04 R116). -/
def execCne (a b : BitVec 5) (w : Bool) (s : State) : Host.Outcome State Fault Refusal :=
  strandWord (.cne a b w) (two 1 a b (relation w (fun _ x y => x != y))) s

/-- CLT (04 R116). -/
def execClt (a b : BitVec 5) (w : Bool) (s : State) : Host.Outcome State Fault Refusal :=
  strandWord (.clt a b w) (two 1 a b (relation w (fun _ x y => decide (x.toInt < y.toInt)))) s

/-- CLTN (04 R116). -/
def execCltn (a b : BitVec 5) (w : Bool) (s : State) : Host.Outcome State Fault Refusal :=
  strandWord (.cltn a b w) (two 1 a b (relation w (fun _ x y => decide (x.toNat < y.toNat)))) s

/-- CLE (04 R116). -/
def execCle (a b : BitVec 5) (w : Bool) (s : State) : Host.Outcome State Fault Refusal :=
  strandWord (.cle a b w) (two 1 a b (relation w (fun _ x y => decide (x.toInt ≤ y.toInt)))) s

/-- CLEN (04 R116). -/
def execClen (a b : BitVec 5) (w : Bool) (s : State) : Host.Outcome State Fault Refusal :=
  strandWord (.clen a b w) (two 1 a b (relation w (fun _ x y => decide (x.toNat ≤ y.toNat)))) s

/-- CLZ (04 R117). -/
def execClz (a : BitVec 5) (w : Bool) (s : State) : Host.Outcome State Fault Refusal :=
  strandWord (.clz a w) (one a (counted w clzOf)) s

/-- CTZ (04 R117). -/
def execCtz (a : BitVec 5) (w : Bool) (s : State) : Host.Outcome State Fault Refusal :=
  strandWord (.ctz a w) (one a (counted w ctzOf)) s

/-- POPC (04 R117). -/
def execPopc (a : BitVec 5) (w : Bool) (s : State) : Host.Outcome State Fault Refusal :=
  strandWord (.popc a w) (one a (counted w popOf)) s

/-- BREV (04 R117). -/
def execBrev (a : BitVec 5) (w : Bool) (s : State) : Host.Outcome State Fault Refusal :=
  strandWord (.brev a w) (one a (fun x => binary w (fun n x _ _ => brevOf n x) x 0)) s

/-- SEXT8 (04 R117). -/
def execSext8 (a : BitVec 5) (s : State) : Host.Outcome State Fault Refusal :=
  strandWord (.sext8 a) (one a fun x => (x.setWidth 8).signExtend 64) s

/-- SEXT16 (04 R117). -/
def execSext16 (a : BitVec 5) (s : State) : Host.Outcome State Fault Refusal :=
  strandWord (.sext16 a) (one a fun x => (x.setWidth 16).signExtend 64) s

/-- SEXT32 (04 R117). -/
def execSext32 (a : BitVec 5) (s : State) : Host.Outcome State Fault Refusal :=
  strandWord (.sext32 a) (one a fun x => (x.setWidth 32).signExtend 64) s

/-- SEL (04 R118). -/
def execSel (a b c : BitVec 5) (s : State) : Host.Outcome State Fault Refusal :=
  strandWord (.sel a b c) (do
    let x ← item a
    let y ← item b
    let z ← item c
    return { items := [if x ≠ 0 then y else z] }) s

/-- ADDI (04 R119). -/
def execAddi (a : BitVec 5) (w : Bool) (h : BitVec 2) (i : BitVec 16) (s : State) : Host.Outcome State Fault Refusal :=
  strandWord (.addi a w h i) (one a fun x => binary w (fun n x _ _ => x + addImm n h i) x 0) s

/-- ANDI (04 R119). -/
def execAndi (a : BitVec 5) (w : Bool) (h : BitVec 2) (i : BitVec 16) (s : State) : Host.Outcome State Fault Refusal :=
  strandWord (.andi a w h i) (one a fun x => binary w (fun _ x y _ => x &&& y) x (halfImm true h i)) s

/-- ORI (04 R119). -/
def execOri (a : BitVec 5) (w : Bool) (h : BitVec 2) (i : BitVec 16) (s : State) : Host.Outcome State Fault Refusal :=
  strandWord (.ori a w h i) (one a fun x => binary w (fun _ x y _ => x ||| y) x (halfImm false h i)) s

/-- XORI (04 R119). -/
def execXori (a : BitVec 5) (w : Bool) (h : BitVec 2) (i : BitVec 16) (s : State) : Host.Outcome State Fault Refusal :=
  strandWord (.xori a w h i) (one a fun x => binary w (fun _ x y _ => x ^^^ y) x (halfImm false h i)) s

/-- SHLI (04 R120). -/
def execShli (a : BitVec 5) (w : Bool) (n : BitVec 16) (s : State) : Host.Outcome State Fault Refusal :=
  strandWord (.shli a w n) (one a fun x => binary w (fun m x _ _ => shiftL m x n.toNat) x 0) s

/-- SHRI (04 R120). -/
def execShri (a : BitVec 5) (w : Bool) (n : BitVec 16) (s : State) : Host.Outcome State Fault Refusal :=
  strandWord (.shri a w n) (one a fun x => binary w (fun m x _ _ => shiftR m x n.toNat) x 0) s

/-- SARI (04 R120). -/
def execSari (a : BitVec 5) (w : Bool) (n : BitVec 16) (s : State) : Host.Outcome State Fault Refusal :=
  strandWord (.sari a w n) (one a fun x => binary w (fun m x _ _ => shiftA m x n.toNat) x 0) s

/-- ROLI (04 R120). -/
def execRoli (a : BitVec 5) (w : Bool) (n : BitVec 16) (s : State) : Host.Outcome State Fault Refusal :=
  strandWord (.roli a w n) (one a fun x => binary w (fun m x _ _ => rotL m x n.toNat) x 0) s

/-- LIT (04 R121). -/
def execLit (a : BitVec 5) (h : BitVec 2) (i : BitVec 16) (s : State) : Host.Outcome State Fault Refusal :=
  strandWord (.lit a h i) (if h = 0 then pure { items := [i.setWidth 64] } else one a fun x => litMerge x h i) s

/-- LITS (04 R121). -/
def execLits (i : BitVec 16) (s : State) : Host.Outcome State Fault Refusal :=
  strandWord (.lits i) (pure { items := [i.signExtend 64] }) s

/-- DUP (04 R122). -/
def execDup (a : BitVec 5) (s : State) : Host.Outcome State Fault Refusal := strandWord (.dup a) (one a id) s

end Sys2Proof.Machine
end

