-- ==== Sys2Proof/Machine/Trust.lean ====
section
/-! DEFINITION. What comes from outside the package and what befalls it: host and peer accesses, host transfers, the
interface state, attestation, power and boot, ECC errors, throttling (14 R416-R432, 01 R28, 06 R186). -/

namespace Sys2Proof.Machine

/-! ## Accesses of the host and of peers (14 R406, R426, R431, R432) -/

/-- Accesses from outside are those of agent 0x180, logged or gated as SETTING says (14 R406, R432). -/
def State.hostWho (s : State) : LogWho := ⟨s.records.setting, 0x180, 0⟩

/-- Whether a location lies in a frame marked PLAIN, which only its owner reads and writes (14 R426). -/
def State.plainAt (s : State) (loc : Nat) : Bool :=
  place loc == .dram && ftPlain (s.dword (frameAt s (loc / 2 ^ 19))).toNat

/-- Whether n bytes at a physical address are memory that an access from outside may reach: DRAM or the KV block store,
within one block of 4 KiB (log 10), and not plaintext of a context. -/
def State.openRange (s : State) (pa n : Nat) : Bool :=
  (place pa == .dram || place pa == .kv) && decide (0 < n) && decide (pa % 0x1000 + n ≤ 0x1000) && !s.plainAt pa

/-- An access from outside passes its home: logged once its ring has room, gated in replay, charged to its stack; none
while it waits. -/
def State.passOutside (s : State) (pa n : Nat) : Option State :=
  if s.logRoom s.hostWho pa n then (s.ordered s.hostWho pa n).map fun t => (t.passGate hostGate pa).chargeDram pa n else none

/-- An access from outside that waits: at its order gate it counts as held there (14 Table 152). -/
def State.waitOutside (s : State) (pa n : Nat) : Host.Outcome State Fault Refusal :=
  if s.logRoom s.hostWho pa n && !s.atGate hostGate pa then did (s.waitGate hostGate pa) else idle s

/-- An event found without a consumer is counted on the die of its home (14 R418). -/
def State.countAt (s : State) (loc : Nat) (c : Option Cause) : State :=
  match c, (homeOf loc).die with
  | some c, some d => s.countBad d c
  | _, _ => s

/-- What leaves the package is put on record. -/
def State.tell (s : State) (x : Sent) : State := { s with sent := s.sent ++ [x] }

/-- Whether an access of 8 aligned bytes is to a register of the window. -/
def isRegister (pa n : Nat) : Bool := place pa == .reg && n == 8 && pa % 8 == 0

/-- HOST_READ (14 R426): a bad grain gives a poisoned completion, counted in POISONED and on the die of the home. -/
def execHostRead (pa n : Nat) (s : State) : Host.Outcome State Fault Refusal :=
  if !s.linkUp then idle s
  else if isRegister pa n then did (s.tell (.read pa (leBytes 8 (s.readReg (pa - Config.regBase)).toNat) false))
  else if !s.openRange pa n then did (s.tell (.unsupported pa))
  else
    match s.passOutside pa n with
    | none => s.waitOutside pa n
    | some t =>
      let bad := t.verify pa n
      let t := t.countAt pa bad
      let t := if bad.isSome then { t with trust := { t.trust with poisoned := t.trust.poisoned + 1 } } else t
      did (t.tell (.read pa (t.bytes pa n) bad.isSome))

/-- HOST_WRITE (14 R431, R416): hallmarks are made at ingress. In recovery it writes the recovery mailbox (R428, log 18). -/
def execHostWrite (pa : Nat) (bytes : List (BitVec 8)) (s : State) : Host.Outcome State Fault Refusal :=
  if s.trust.powered && s.trust.recovery then
    did { s with trust := { s.trust with mailbox := putBytes s.trust.mailbox pa bytes } }
  else if isRegister pa bytes.length then regEvent true (pa - Config.regBase) (word (leNat bytes)) s
  else if !s.linkUp then idle s
  else if !s.openRange pa bytes.length then did (s.tell (.unsupported pa))
  else
    match s.passOutside pa bytes.length with
    | none => s.waitOutside pa bytes.length
    | some t => did ((t.countMet pa bytes.length).write pa bytes)

/-- Bytes of a peer's access (14 R432). -/
def peerSize : PeerOp → Nat
  | .read n => n
  | .write bs _ => bs.length
  | .atomic .. => 8

/-- Whether the EXPORT range holds n bytes (14 Table 161). -/
def Trust.exports (t : Trust) (pa n : Nat) : Bool := decide (t.explo.toNat ≤ pa) && decide (pa + n ≤ t.exphi.toNat + 1)

/-- The grains of a range that it covers whole. -/
def wholeGrains (loc n : Nat) : List Nat :=
  (grainsOf loc n).filter fun g => decide (loc ≤ 256 * g) && decide (256 * g + 256 ≤ loc + n)

/-- A peer's access performed at its home: grains cross with their hallmarks; an atomic to a bad grain changes nothing
(14 R432, 09 R286). -/
def State.performPeer (s : State) (pa : Nat) (op : PeerOp) : State :=
  match op with
  | .read n => s.tell (.answered pa (s.bytes pa n) ((grainsOf pa n).map s.grain))
  | .write bs mark =>
    let t := (s.countMet pa bs.length).write pa bs
    (wholeGrains pa bs.length).foldl (fun (u : State) g => u.setGrain g (mark, false)) t
  | .atomic op b c =>
    let t := s.tell (.answered pa (s.bytes pa 8) [s.grain (pa / 256)])
    match s.verify pa 8, atomWrite op (s.dword pa) b c with
    | none, some v => t.writeWord pa v
    | _, _ => t

/-- PEER_ACCESS (14 R432): outside EXPORT it is refused. -/
def execPeerAccess (pa : Nat) (op : PeerOp) (s : State) : Host.Outcome State Fault Refusal :=
  let fits := match op with | .atomic .. => pa % 8 == 0 | _ => true
  if !s.trust.powered then idle s
  else if !s.trust.exports pa (peerSize op) || !s.openRange pa (peerSize op) || !fits then did (s.tell (.refusedPeer pa))
  else
    match s.passOutside pa (peerSize op) with
    | none => s.waitOutside pa (peerSize op)
    | some t => did (t.performPeer pa op)

/-! ## Host transfers (14 R427) -/

/-- Bytes that a transfer writes at a location, whatever stands there (01 R18). -/
def State.depositAt (s : State) (loc : Nat) (bs : List Byte) : State :=
  match place loc with
  | .reg => s.storeRegs loc bs
  | .peer => s.tell (.peer (s.peerTarget loc).1 (s.peerTarget loc).2 (.write bs 0))
  | .host => { s with host := putBytes s.host (loc - Config.hostBase) bs }
  | _ => s.write loc bs

/-- The refusals of a transfer before it moves anything (14 R422, R427). -/
def State.moveRefused (s : State) (m : HostMove) : Option Cause :=
  if s.trust.tdisp = .error ∨ !(s.ctx m.ctx).hostio then some .protect
  else if !s.registered m.serai m.ctx then some .operand
  else none

/-- How a transfer stands after the grains that could move: it has ended with a status, or it waits at a home. -/
inductive MoveEnd where
  | ended (status : Nat)
  | waits (loc : Nat)
deriving DecidableEq, Repr

/-- A transfer ends with a cause; a bad grain or a failing host is counted on the host link's die (14 R418, 01 Table 10). -/
def State.moveFails (s : State) (c : Cause) : State × MoveEnd := (s.countBad 0 c, .ended c.code)

/-- The grains of a transfer from place `at_` on: the state, how far it came, and how it stands. -/
def State.moveGrains (s : State) (m : HostMove) : Nat → Nat → (State × MoveEnd) × Nat
  | 0, at_ => ((s, .ended 0), at_)
  | fuel + 1, at_ =>
    if m.len ≤ at_ then ((s, .ended 0), at_)
    else
      match s.translate m.ctx (m.dev + at_) .write with
      | .error f => (s.moveFails f.cause, at_)
      | .ok pa =>
        match s.passOutside pa 256 with
        | none => ((s, .waits pa), at_)
        | some t =>
          let u := { t with fresh := t.fresh + 1 }
          if Config.hostFails t.fresh then (u.moveFails .uncorr, at_)
          else (u.depositAt pa (getBytes u.host (m.host + word at_).toNat 256)).moveGrains m fuel (at_ + 256)

/-- The oldest transfer ends with a status, posted to its serai (14 R427). -/
def State.endMove (s : State) (m : HostMove) (status : Nat) : State :=
  let s := { s with trust := { s.trust with moves := s.trust.moves.tail } }
  s.post { serai := m.serai, source := 6, payload := [word status, word m.dev, word m.len] }

/-- HOST_TRANSFER_DONE: the oldest host transfer moves its bytes and posts its status (14 R427). -/
def execHostTransferDone (s : State) : Host.Outcome State Fault Refusal :=
  match s.trust.moves with
  | [] => idle s
  | m :: rest =>
    match if m.at_ = 0 then s.moveRefused m else none with
    | some c => did (s.endMove m c.code)
    | none =>
      let r := s.moveGrains m (m.len / 256 + 1) m.at_
      match r.1.2 with
      | .ended x => did (r.1.1.endMove m x)
      | .waits loc =>
        if r.2 = m.at_ then s.waitOutside loc 256
        else did { r.1.1 with trust := { r.1.1.trust with moves := { m with at_ := r.2 } :: rest } }

/-! ## The interface and attestation (14 R422, R429) -/

/-- TDISP_TRANSITION (14 R422, log 17). -/
def execTdispTransition (next : Tdisp) (s : State) : Host.Outcome State Fault Refusal :=
  if s.linkUp then did { s with trust := { s.trust with tdisp := next } } else idle s

/-- A key pair of the device identity, from the fused secret and the digest of the loaded image (14 R429): algorithm 0 is
Ed25519, 1 is ML-DSA-65. -/
def Trust.identity (t : Trust) (alg : Nat) : Nat := Config.identityKey alg t.fusedSecret t.digest

/-- What an attestation report says (14 R429). -/
def State.attest (s : State) (nonce : BitVec 256) : Attest :=
  { nonce := nonce, digest := s.trust.digest, version := s.trust.version, tdisp := s.trust.tdisp, ide := Config.ideState s.fresh,
    setting := s.records.setting, bits := (List.range 64).map fun n => ((s.ctx n).hostio, (s.ctx n).lockreq) }

/-- A report as the number that is signed. -/
def Attest.parts (r : Attest) : List Nat :=
  [r.nonce.toNat, r.digest.toNat, r.version, match r.tdisp with | .configUnlocked => 0 | .configLocked => 1 | .run => 2 | .error => 3,
   r.ide, r.setting] ++ r.bits.map fun b => 2 * b.1.toNat + b.2.toNat

/-- The signature of a report with an identity key (14 R429). -/
def Trust.signed (t : Trust) (alg : Nat) (r : Attest) : Nat := Config.signature alg (t.identity alg) r.parts

/-- SPDM_ATTEST: the report leaves over the SPDM session with both signatures (14 R429). -/
def execSpdmAttest (nonce : BitVec 256) (s : State) : Host.Outcome State Fault Refusal :=
  if s.linkUp && s.trust.released then
    let r := s.attest nonce
    did ({ s with fresh := s.fresh + 1 }.tell (.report r (s.trust.signed 0 r) (s.trust.signed 1 r)))
  else idle s

/-! ## Power and boot (01 R28, 11 R331, 14 R428, R430) -/

/-- A flash region after a loss of power: what is published stays, its other registers start again (01 R28, 11 R331,
log 45). -/
def Region.kept (r : Region) : Region :=
  { index := r.index, fill := r.fill, version := r.version, merged := r.merged, logpos := r.logpos, log := r.log, cur := r.cur }

/-- The package after a loss of power: published flash and the boot flash stay; host memory, what has been sent, the
agenda and the free values' counter lie outside it (01 R28, 14 R430, log 45). -/
def State.unpowered (s : State) : State :=
  { State.reset with
    host := s.host, sent := s.sent, agenda := s.agenda, fresh := s.fresh
    flash := { pages := s.flash.pages, regions := s.flash.regions.map fun p => (p.1, p.2.kept) }
    trust := { imageA := s.trust.imageA, imageB := s.trust.imageB, fusedEd := s.trust.fusedEd, fusedMl := s.trust.fusedMl,
               fusedSecret := s.trust.fusedSecret, fusedMin := s.trust.fusedMin, mailbox := s.trust.mailbox, powered := false } }

/-- POWER_LOSS (01 R28, 14 R430). -/
def execPowerLoss (s : State) : Host.Outcome State Fault Refusal := did s.unpowered

/-- POWER_ON_RESET: power returns, and everything outside flash starts from its reset value (01 R28). -/
def execPowerOnReset (s : State) : Host.Outcome State Fault Refusal :=
  did { s.unpowered with trust := { s.unpowered.trust with powered := true } }

/-- Whether Fosyn accepts an image: both key digests are the fused ones, both signatures verify, and its version is at least the
fused minimum (14 R428). -/
def Trust.accepts (t : Trust) (i : Image) : Bool :=
  i.edKey == t.fusedEd && i.mlKey == t.fusedMl && i.edSig && i.mlSig && decide (t.fusedMin ≤ i.version)

/-- The image that the bytes in the recovery mailbox are, if any were written; how a header is laid out and what its signatures
verify as are free values (14 R428, log 18). -/
def Trust.recoveryImage (t : Trust) : List Image :=
  if t.mailbox.isEmpty then []
  else
    let f := fun n => Config.imageField n (t.mailbox.map fun c => (c.1, c.2.toNat))
    [{ digest := BitVec.ofNat 384 (f 0), edKey := BitVec.ofNat 384 (f 1), mlKey := BitVec.ofNat 384 (f 2), edSig := f 3 == 1,
       mlSig := f 4 == 1, version := f 5, raise := f 6 == 1 }]

/-- The image that Fosyn loads: the first accepted one of slot A, slot B and the recovery mailbox (14 R428, log 18). -/
def Trust.chosen (t : Trust) : Option Image := (t.imageA :: t.imageB :: t.recoveryImage).find? t.accepts

/-- FOSYN_BOOT (14 R428). -/
def execFosynBoot (s : State) : Host.Outcome State Fault Refusal :=
  if !s.trust.powered || s.trust.released || s.trust.recovery then idle s
  else
    match s.trust.chosen with
    | none => did { s with trust := { s.trust with recovery := true } }
    | some i =>
      did { s with trust := { s.trust with
        released := true, digest := i.digest, version := i.version,
        fusedMin := if i.raise then max s.trust.fusedMin i.version else s.trust.fusedMin } }

/-! ## Errors and throttling (14 R418, R419, 06 R186) -/

/-- Core k is changed by f. -/
def State.mapCore (s : State) (k : Nat) (f : Core → Core) : State := s.setCore k (f (s.core k))

/-- An ECC error strikes: corrected and counted, or the data is bad from now on (14 R418, R419, 06 R204, 11 R330,
logs 13, 20). -/
def State.strike (s : State) : EccKind → State
  | .corrected d => s.setCounters d { (s.counters d) with corrected := (s.counters d).corrected + 1 }
  | .grain loc => s.setGrain (loc / 256) ((s.grain (loc / 256)).1, true)
  | .mismatch loc diff => s.setGrain (loc / 256) ((s.grain (loc / 256)).1 ^^^ diff, (s.grain (loc / 256)).2)
  | .flashPage p fails bad =>
    let x := s.page p
    s.setPage p { x with failing := fails, badMark := x.badMark || bad }
  | .checker k => s.mapCore k fun c => { c with checkerBad := true }
  | .cell k r col => s.mapCore k fun c => { c with badCells := (r, col) :: c.badCells }
  | .tileRow k acc t r =>
    s.mapCore k fun c => { c with tiles := { c.tiles with bad := ((if acc then t else vtile t), r) :: c.tiles.bad } }
  | .sideMemory k off => s.mapCore k fun c => { c with tiles := { c.tiles with sideBad := off :: c.tiles.sideBad } }

/-- ECC_ERROR (14 R418). -/
def execEccError (kind : EccKind) (s : State) : Host.Outcome State Fault Refusal := did (s.strike kind)

/-- CLOCK_THROTTLE: an unpinned core's clock is lowered, or raised back (06 R186, 01 R14). -/
def execClockThrottle (lower : Bool) (s : State) : Host.Outcome State Fault Refusal :=
  if lower && s.here.sc.k.clkpin then idle s else did (s.setHere { s.here with slow := lower })

end Sys2Proof.Machine
end

