-- ==== Sys2Proof/Machine/Dispatch.lean ====
section
/-! DEFINITION. One arm per constructor of Instr: a direct call of its meaning. -/

namespace Sys2Proof.Machine

def exec (i : Instr) (s : State) : Host.Outcome State Fault Refusal :=
  match i with
  | .ill x => Sys2Proof.Machine.execIll x s
  | .nop => Sys2Proof.Machine.execNop s
  | .add a b w => Sys2Proof.Machine.execAdd a b w s
  | .sub a b w => Sys2Proof.Machine.execSub a b w s
  | .mul a b w => Sys2Proof.Machine.execMul a b w s
  | .mulh a b w => Sys2Proof.Machine.execMulh a b w s
  | .mulhn a b w => Sys2Proof.Machine.execMulhn a b w s
  | .div a b w => Sys2Proof.Machine.execDiv a b w s
  | .divn a b w => Sys2Proof.Machine.execDivn a b w s
  | .rem a b w => Sys2Proof.Machine.execRem a b w s
  | .remn a b w => Sys2Proof.Machine.execRemn a b w s
  | .and a b w => Sys2Proof.Machine.execAnd a b w s
  | .or a b w => Sys2Proof.Machine.execOr a b w s
  | .xor a b w => Sys2Proof.Machine.execXor a b w s
  | .andn a b w => Sys2Proof.Machine.execAndn a b w s
  | .shl a b w => Sys2Proof.Machine.execShl a b w s
  | .shr a b w => Sys2Proof.Machine.execShr a b w s
  | .sar a b w => Sys2Proof.Machine.execSar a b w s
  | .rol a b w => Sys2Proof.Machine.execRol a b w s
  | .ror a b w => Sys2Proof.Machine.execRor a b w s
  | .min a b w => Sys2Proof.Machine.execMin a b w s
  | .max a b w => Sys2Proof.Machine.execMax a b w s
  | .minn a b w => Sys2Proof.Machine.execMinn a b w s
  | .maxn a b w => Sys2Proof.Machine.execMaxn a b w s
  | .ceq a b w => Sys2Proof.Machine.execCeq a b w s
  | .cne a b w => Sys2Proof.Machine.execCne a b w s
  | .clt a b w => Sys2Proof.Machine.execClt a b w s
  | .cltn a b w => Sys2Proof.Machine.execCltn a b w s
  | .cle a b w => Sys2Proof.Machine.execCle a b w s
  | .clen a b w => Sys2Proof.Machine.execClen a b w s
  | .clz a w => Sys2Proof.Machine.execClz a w s
  | .ctz a w => Sys2Proof.Machine.execCtz a w s
  | .popc a w => Sys2Proof.Machine.execPopc a w s
  | .brev a w => Sys2Proof.Machine.execBrev a w s
  | .sext8 a => Sys2Proof.Machine.execSext8 a s
  | .sext16 a => Sys2Proof.Machine.execSext16 a s
  | .sext32 a => Sys2Proof.Machine.execSext32 a s
  | .sel a b c => Sys2Proof.Machine.execSel a b c s
  | .addi a w h imm => Sys2Proof.Machine.execAddi a w h imm s
  | .andi a w h imm => Sys2Proof.Machine.execAndi a w h imm s
  | .ori a w h imm => Sys2Proof.Machine.execOri a w h imm s
  | .xori a w h imm => Sys2Proof.Machine.execXori a w h imm s
  | .shli a w n => Sys2Proof.Machine.execShli a w n s
  | .shri a w n => Sys2Proof.Machine.execShri a w n s
  | .sari a w n => Sys2Proof.Machine.execSari a w n s
  | .roli a w n => Sys2Proof.Machine.execRoli a w n s
  | .lit a h imm => Sys2Proof.Machine.execLit a h imm s
  | .lits imm => Sys2Proof.Machine.execLits imm s
  | .dup a => Sys2Proof.Machine.execDup a s
  | .ld a c sz g q o => Sys2Proof.Machine.execLd a c sz g q o s
  | .ldk a c sz g o => Sys2Proof.Machine.execLdk a c sz g o s
  | .loadReturn => Sys2Proof.Machine.execLoadReturn s
  | .st a v c sz l o => Sys2Proof.Machine.execSt a v c sz l o s
  | .axch a b k o sz => Sys2Proof.Machine.execAxch a b k o sz s
  | .acas a b c k o sz => Sys2Proof.Machine.execAcas a b c k o sz s
  | .aadd a b k o sz => Sys2Proof.Machine.execAadd a b k o sz s
  | .aand a b k o sz => Sys2Proof.Machine.execAand a b k o sz s
  | .aor a b k o sz => Sys2Proof.Machine.execAor a b k o sz s
  | .axor a b k o sz => Sys2Proof.Machine.execAxor a b k o sz s
  | .amin a b k o sz => Sys2Proof.Machine.execAmin a b k o sz s
  | .amax a b k o sz => Sys2Proof.Machine.execAmax a b k o sz s
  | .aminn a b k o sz => Sys2Proof.Machine.execAminn a b k o sz s
  | .amaxn a b k o sz => Sys2Proof.Machine.execAmaxn a b k o sz s
  | .fence p q sz m => Sys2Proof.Machine.execFence p q sz m s
  | .fencea p q sz => Sys2Proof.Machine.execFencea p q sz s
  | .rinv a b k => Sys2Proof.Machine.execRinv a b k s
  | .tlookFind a c => Sys2Proof.Machine.execTlookFind a c s
  | .tlookClaim a c => Sys2Proof.Machine.execTlookClaim a c s
  | .tlookFree c => Sys2Proof.Machine.execTlookFree c s
  | .tsetk a b c => Sys2Proof.Machine.execTsetk a b c s
  | .tdrop a c => Sys2Proof.Machine.execTdrop a c s
  | .pbr t o => Sys2Proof.Machine.execPbr t o s
  | .br t imm c => Sys2Proof.Machine.execBr t imm c s
  | .call t => Sys2Proof.Machine.execCall t s
  | .rets => Sys2Proof.Machine.execRets s
  | .jtb t imm b => Sys2Proof.Machine.execJtb t imm b s
  | .clasp l => Sys2Proof.Machine.execClasp l s
  | .give p n => Sys2Proof.Machine.execGive p n s
  | .take p n => Sys2Proof.Machine.execTake p n s
  | .qset a b h => Sys2Proof.Machine.execQset a b h s
  | .qadv a sz h => Sys2Proof.Machine.execQadv a sz h s
  | .qwait a sz h => Sys2Proof.Machine.execQwait a sz h s
  | .qinfo sz h => Sys2Proof.Machine.execQinfo sz h s
  | .prmw a f imm => Sys2Proof.Machine.execPrmw a f imm s
  | .fmtq a => Sys2Proof.Machine.execFmtq a s
  | .stmpq a => Sys2Proof.Machine.execStmpq a s
  | .getk k => Sys2Proof.Machine.execGetk k s
  | .setk a k => Sys2Proof.Machine.execSetk a k s
  | .stamp => Sys2Proof.Machine.execStamp s
  | .barCrew => Sys2Proof.Machine.execBarCrew s
  | .barSpan => Sys2Proof.Machine.execBarSpan s
  | .barStage => Sys2Proof.Machine.execBarStage s
  | .waitTick a => Sys2Proof.Machine.execWaitTick a s
  | .waitSerai a => Sys2Proof.Machine.execWaitSerai a s
  | .tlaunch a => Sys2Proof.Machine.execTlaunch a s
  | .trig a => Sys2Proof.Machine.execTrig a s
  | .texit => Sys2Proof.Machine.execTexit s
  | .tyield => Sys2Proof.Machine.execTyield s
  | .sreg a => Sys2Proof.Machine.execSreg a s
  | .sbind a b => Sys2Proof.Machine.execSbind a b s
  | .spost a b n => Sys2Proof.Machine.execSpost a b n s
  | .rcall t k f n c l => Sys2Proof.Machine.execRcall t k f n c l s
  | .rpoll a w => Sys2Proof.Machine.execRpoll a w s
  | .rret a n => Sys2Proof.Machine.execRret a n s
  | .search a c => Sys2Proof.Machine.execSearch a c s
  | .crsv a b => Sys2Proof.Machine.execCrsv a b s
  | .crel a => Sys2Proof.Machine.execCrel a s
  | .cqry a => Sys2Proof.Machine.execCqry a s
  | .lmark a => Sys2Proof.Machine.execLmark a s
  | .lhash => Sys2Proof.Machine.execLhash s
  | .trap imm => Sys2Proof.Machine.execTrap imm s
  | .tret a => Sys2Proof.Machine.execTret a s
  | .pgshare a b m => Sys2Proof.Machine.execPgshare a b m s
  | .pgdrop a => Sys2Proof.Machine.execPgdrop a s
  | .vAdd d a b g t => Sys2Proof.Machine.execVAdd d a b g t s
  | .vSub d a b g t => Sys2Proof.Machine.execVSub d a b g t s
  | .vMul d a b g t => Sys2Proof.Machine.execVMul d a b g t s
  | .vFma d a b c => Sys2Proof.Machine.execVFma d a b c s
  | .vFms d a b c => Sys2Proof.Machine.execVFms d a b c s
  | .vMin d a b g t => Sys2Proof.Machine.execVMin d a b g t s
  | .vMax d a b g t => Sys2Proof.Machine.execVMax d a b g t s
  | .vAbs d a g t => Sys2Proof.Machine.execVAbs d a g t s
  | .vNeg d a g t => Sys2Proof.Machine.execVNeg d a g t s
  | .vAnd d a b g t => Sys2Proof.Machine.execVAnd d a b g t s
  | .vOr d a b g t => Sys2Proof.Machine.execVOr d a b g t s
  | .vXor d a b g t => Sys2Proof.Machine.execVXor d a b g t s
  | .vShl d a b g t => Sys2Proof.Machine.execVShl d a b g t s
  | .vShr d a b g t => Sys2Proof.Machine.execVShr d a b g t s
  | .vSar d a b g t => Sys2Proof.Machine.execVSar d a b g t s
  | .vRol d a b g t => Sys2Proof.Machine.execVRol d a b g t s
  | .vCmp c k a b g t => Sys2Proof.Machine.execVCmp c k a b g t s
  | .vSel d a b sz t => Sys2Proof.Machine.execVSel d a b sz t s
  | .vCvt d a e r g t => Sys2Proof.Machine.execVCvt d a e r g t s
  | .vSfn d a f g t => Sys2Proof.Machine.execVSfn d a f g t s
  | .vRed d a o g t => Sys2Proof.Machine.execVRed d a o g t s
  | .vScan d a o g t => Sys2Proof.Machine.execVScan d a o g t s
  | .vPerm d a b g t => Sys2Proof.Machine.execVPerm d a b g t s
  | .vLrot d a b g t => Sys2Proof.Machine.execVLrot d a b g t s
  | .vBcast d a b g t => Sys2Proof.Machine.execVBcast d a b g t s
  | .vPack d a b f t => Sys2Proof.Machine.execVPack d a b f t s
  | .vUnpk d a b f t => Sys2Proof.Machine.execVUnpk d a b f t s
  | .vMov d a g t => Sys2Proof.Machine.execVMov d a g t s
  | .vLit n t imm => Sys2Proof.Machine.execVLit n t imm s
  | .vTopk d a k g t => Sys2Proof.Machine.execVTopk d a k g t s
  | .vBind n v m c sz => Sys2Proof.Machine.execVBind n v m c sz s
  | .vRrbSet n => Sys2Proof.Machine.execVRrbSet n s
  | .vRrbAdd n => Sys2Proof.Machine.execVRrbAdd n s
  | .vGuard n => Sys2Proof.Machine.execVGuard n s
  | .vPredAnd d a b => Sys2Proof.Machine.execVPredAnd d a b s
  | .vPredOr d a b => Sys2Proof.Machine.execVPredOr d a b s
  | .vPredXor d a b => Sys2Proof.Machine.execVPredXor d a b s
  | .vPredAndn d a b => Sys2Proof.Machine.execVPredAndn d a b s
  | .vPredNot d a => Sys2Proof.Machine.execVPredNot d a s
  | .vPredFirst d n => Sys2Proof.Machine.execVPredFirst d n s
  | .vPredLane d n => Sys2Proof.Machine.execVPredLane d n s
  | .vNest b l sz => Sys2Proof.Machine.execVNest b l sz s
  | .vPortRead p h => Sys2Proof.Machine.execVPortRead p h s
  | .vPortWrite p h => Sys2Proof.Machine.execVPortWrite p h s
  | .vPortUnbind p => Sys2Proof.Machine.execVPortUnbind p s
  | .vTos a l t => Sys2Proof.Machine.execVTos a l t s
  | .vGive p n => Sys2Proof.Machine.execVGive p n s
  | .vTake p n => Sys2Proof.Machine.execVTake p n s
  | .vStatStat n => Sys2Proof.Machine.execVStatStat n s
  | .vStatClear n m => Sys2Proof.Machine.execVStatClear n m s
  | .vStatEng => Sys2Proof.Machine.execVStatEng s
  | .vStatPred p q => Sys2Proof.Machine.execVStatPred p q s
  | .vStatBind => Sys2Proof.Machine.execVStatBind s
  | .mMma k a j b t z sz p => Sys2Proof.Machine.execMMma k a j b t z sz p s
  | .mMmas k a j b t z sz p => Sys2Proof.Machine.execMMmas k a j b t z sz p s
  | .mMmv k a j b t z sz p => Sys2Proof.Machine.execMMmv k a j b t z sz p s
  | .mZero n sz => Sys2Proof.Machine.execMZero n sz s
  | .mLoadTile n m => Sys2Proof.Machine.execMLoadTile n m s
  | .mLoadDesc n k sz c => Sys2Proof.Machine.execMLoadDesc n k sz c s
  | .mDrainTile n m z => Sys2Proof.Machine.execMDrainTile n m z s
  | .mDrainDesc n k c z => Sys2Proof.Machine.execMDrainDesc n k c z s
  | .mSwap n m => Sys2Proof.Machine.execMSwap n m s
  | .mStart => Sys2Proof.Machine.execMStart s
  | .mStatStat n => Sys2Proof.Machine.execMStatStat n s
  | .mStatClear n m => Sys2Proof.Machine.execMStatClear n m s
  | .mStatQueues => Sys2Proof.Machine.execMStatQueues s
  | .mStatAssay => Sys2Proof.Machine.execMStatAssay s
  | .mStatWindow => Sys2Proof.Machine.execMStatWindow s
  | .mStatToll => Sys2Proof.Machine.execMStatToll s
  | .mAssay => Sys2Proof.Machine.execMAssay s
  | .mNest b l => Sys2Proof.Machine.execMNest b l s
  | .mGive p n => Sys2Proof.Machine.execMGive p n s
  | .mTake p n => Sys2Proof.Machine.execMTake p n s
  | .mToll n => Sys2Proof.Machine.execMToll n s
  | .tollGrant cluster => Sys2Proof.Machine.execTollGrant cluster s
  | .tollRefill => Sys2Proof.Machine.execTollRefill s
  | .xCopy sz d l q c v => Sys2Proof.Machine.execXCopy sz d l q c v s
  | .xGath sz d l q c => Sys2Proof.Machine.execXGath sz d l q c s
  | .xScat sz d l q c => Sys2Proof.Machine.execXScat sz d l q c s
  | .xSadd sz d l q c w => Sys2Proof.Machine.execXSadd sz d l q c w s
  | .xTrans sz d l q c => Sys2Proof.Machine.execXTrans sz d l q c s
  | .xPad sz d l q c => Sys2Proof.Machine.execXPad sz d l q c s
  | .xMeta sz d l q c => Sys2Proof.Machine.execXMeta sz d l q c s
  | .xFill sz d c v => Sys2Proof.Machine.execXFill sz d c v s
  | .xEvict sz d c v => Sys2Proof.Machine.execXEvict sz d c v s
  | .xCheck sz l q c => Sys2Proof.Machine.execXCheck sz l q c s
  | .xWait m => Sys2Proof.Machine.execXWait m s
  | .xQadv h sz n => Sys2Proof.Machine.execXQadv h sz n s
  | .xNest b l => Sys2Proof.Machine.execXNest b l s
  | .xGive p n => Sys2Proof.Machine.execXGive p n s
  | .xTake p n => Sys2Proof.Machine.execXTake p n s
  | .xFread sz d l q c v => Sys2Proof.Machine.execXFread sz d l q c v s
  | .xFapp sz d l c v => Sys2Proof.Machine.execXFapp sz d l c v s
  | .xKv sz d l c v => Sys2Proof.Machine.execXKv sz d l c v s
  | .xBankt sz d l c v => Sys2Proof.Machine.execXBankt sz d l c v s
  | .xBankp sz d l c v => Sys2Proof.Machine.execXBankp sz d l c v s
  | .xBankgo sz c => Sys2Proof.Machine.execXBankgo sz c s
  | .xIred sz d l c v w => Sys2Proof.Machine.execXIred sz d l c v w s
  | .xHin sz d l q c v => Sys2Proof.Machine.execXHin sz d l q c v s
  | .xHout sz d l q c v => Sys2Proof.Machine.execXHout sz d l q c v s
  | .xHdec sz d l q c v => Sys2Proof.Machine.execXHdec sz d l q c v s
  | .copyUnit => Sys2Proof.Machine.execCopyUnit s
  | .bankImageLoad => Sys2Proof.Machine.execBankImageLoad s
  | .move g d sz => Sys2Proof.Machine.execMove g d sz s
  | .moveImm g d imm => Sys2Proof.Machine.execMoveImm g d imm s
  | .claspMove l => Sys2Proof.Machine.execClaspMove l s
  | .colWrite v => Sys2Proof.Machine.execColWrite v s
  | .kdec v => Sys2Proof.Machine.execKdec v s
  | .pcWrite v => Sys2Proof.Machine.execPcWrite v s
  | .modeWrite v => Sys2Proof.Machine.execModeWrite v s
  | .ret v => Sys2Proof.Machine.execRet v s
  | .rep v => Sys2Proof.Machine.execRep v s
  | .addT v => Sys2Proof.Machine.execAddT v s
  | .maxT v => Sys2Proof.Machine.execMaxT v s
  | .cmpT v => Sys2Proof.Machine.execCmpT v s
  | .shfT v => Sys2Proof.Machine.execShfT v s
  | .macT v => Sys2Proof.Machine.execMacT v s
  | .accz v => Sys2Proof.Machine.execAccz v s
  | .pakT v => Sys2Proof.Machine.execPakT v s
  | .bankCmdIssue stack => Sys2Proof.Machine.execBankCmdIssue stack s
  | .bankCmdWatchdog => Sys2Proof.Machine.execBankCmdWatchdog s
  | .timetableStart run => Sys2Proof.Machine.execTimetableStart run s
  | .timetableEntry chan => Sys2Proof.Machine.execTimetableEntry chan s
  | .forcedRefresh chan => Sys2Proof.Machine.execForcedRefresh chan s
  | .bankgoComplete => Sys2Proof.Machine.execBankgoComplete s
  | .callStart call => Sys2Proof.Machine.execCallStart call s
  | .callLate call => Sys2Proof.Machine.execCallLate call s
  | .callWatchdog call => Sys2Proof.Machine.execCallWatchdog call s
  | .replyArrival reply => Sys2Proof.Machine.execReplyArrival reply s
  | .replyExpire reply => Sys2Proof.Machine.execReplyExpire reply s
  | .callLost slot => Sys2Proof.Machine.execCallLost slot s
  | .callAck ack => Sys2Proof.Machine.execCallAck ack s
  | .replyCacheExpire target => Sys2Proof.Machine.execReplyCacheExpire target s
  | .searchHop search fails => Sys2Proof.Machine.execSearchHop search fails s
  | .searchDone search => Sys2Proof.Machine.execSearchDone search s
  | .indexMergeStart region => Sys2Proof.Machine.execIndexMergeStart region s
  | .indexMergeDone region => Sys2Proof.Machine.execIndexMergeDone region s
  | .streamStart stream => Sys2Proof.Machine.execStreamStart stream s
  | .streamEntry stream => Sys2Proof.Machine.execStreamEntry stream s
  | .heldAccessPerform n => Sys2Proof.Machine.execHeldAccessPerform n s
  | .convoyApply => Sys2Proof.Machine.execConvoyApply s
  | .orderGateMatch n => Sys2Proof.Machine.execOrderGateMatch n s
  | .sealfault => Sys2Proof.Machine.execSealfault s
  | .watchdog => Sys2Proof.Machine.execWatchdog s
  | .taskEnd => Sys2Proof.Machine.execTaskEnd s
  | .instanceIssue => Sys2Proof.Machine.execInstanceIssue s
  | .preemptDecision => Sys2Proof.Machine.execPreemptDecision s
  | .handlerLaunch serai => Sys2Proof.Machine.execHandlerLaunch serai s
  | .devicePostDeliver serai => Sys2Proof.Machine.execDevicePostDeliver serai s
  | .coolGrant => Sys2Proof.Machine.execCoolGrant s
  | .masterElection => Sys2Proof.Machine.execMasterElection s
  | .dieFailure die control => Sys2Proof.Machine.execDieFailure die control s
  | .invalComplete => Sys2Proof.Machine.execInvalComplete s
  | .sensorMeasure zones pkg => Sys2Proof.Machine.execSensorMeasure zones pkg s
  | .tripUngate zone => Sys2Proof.Machine.execTripUngate zone s
  | .valveUpdate => Sys2Proof.Machine.execValveUpdate s
  | .dryCloseValve zone => Sys2Proof.Machine.execDryCloseValve zone s
  | .dryPurge zone => Sys2Proof.Machine.execDryPurge zone s
  | .dryRefill zone => Sys2Proof.Machine.execDryRefill zone s
  | .dryVerify zone => Sys2Proof.Machine.execDryVerify zone s
  | .dryRelease zone => Sys2Proof.Machine.execDryRelease zone s
  | .limitEnter => Sys2Proof.Machine.execLimitEnter s
  | .limitExit => Sys2Proof.Machine.execLimitExit s
  | .tollCapWrite cluster off v => Sys2Proof.Machine.execTollCapWrite cluster off v s
  | .stackBucketWrite stack off v => Sys2Proof.Machine.execStackBucketWrite stack off v s
  | .contextWrite ctx v => Sys2Proof.Machine.execContextWrite ctx v s
  | .invcmd v => Sys2Proof.Machine.execInvcmd v s
  | .freeconsWrite v => Sys2Proof.Machine.execFreeconsWrite v s
  | .regionWrite region v => Sys2Proof.Machine.execRegionWrite region v s
  | .regionFillWrite region v => Sys2Proof.Machine.execRegionFillWrite region v s
  | .dieFence v => Sys2Proof.Machine.execDieFence v s
  | .killwb v => Sys2Proof.Machine.execKillwb v s
  | .hpost v => Sys2Proof.Machine.execHpost v s
  | .coolRearm zone v => Sys2Proof.Machine.execCoolRearm zone v s
  | .coolFloorWrite zone v => Sys2Proof.Machine.execCoolFloorWrite zone v s
  | .coolLimitsWrite v => Sys2Proof.Machine.execCoolLimitsWrite v s
  | .recctlWrite v => Sys2Proof.Machine.execRecctlWrite v s
  | .keyctx v => Sys2Proof.Machine.execKeyctx v s
  | .hxgo v => Sys2Proof.Machine.execHxgo v s
  | .hostTransferDone => Sys2Proof.Machine.execHostTransferDone s
  | .regWrite off v => Sys2Proof.Machine.execRegWrite off v s
  | .hostRead pa n => Sys2Proof.Machine.execHostRead pa n s
  | .hostWrite pa bytes => Sys2Proof.Machine.execHostWrite pa bytes s
  | .peerAccess pa op => Sys2Proof.Machine.execPeerAccess pa op s
  | .tdispTransition next => Sys2Proof.Machine.execTdispTransition next s
  | .spdmAttest nonce => Sys2Proof.Machine.execSpdmAttest nonce s
  | .powerOnReset => Sys2Proof.Machine.execPowerOnReset s
  | .fosynBoot => Sys2Proof.Machine.execFosynBoot s
  | .powerLoss => Sys2Proof.Machine.execPowerLoss s
  | .refusedWord w => Sys2Proof.Machine.execRefusedWord w s
  | .eccError kind => Sys2Proof.Machine.execEccError kind s
  | .clockThrottle lower => Sys2Proof.Machine.execClockThrottle lower s

end Sys2Proof.Machine
end

