-- ==== Sys2Proof/Machine/Step.lean ====
section
/-! DEFINITION. One step of the machine: the agent whose turn it is executes one instruction (log 1). -/

namespace Sys2Proof.Machine

/-- One place of the agenda, executed. -/
def State.take (s : State) (x : Slot) : Host.Outcome State Fault Refusal :=
  match s.dueOf x with
  | .run i t => exec i t
  | .done t => .next t

/-- The matrix engine's turn that comes before dt ticks have passed, if a stamped word is ready at its tick (06 R187). -/
def State.takeStamped (s : State) (dt : Nat) : List (Nat × Nat) → Option State
  | [] => none
  | (t, k) :: l =>
    if s.stamp + dt < t then none
    else
      match s.take { core := k, dt := t - s.stamp, turn := .engine .m } with
      | .next u => if u.stalled then s.takeStamped dt l else some u
      | _ => s.takeStamped dt l

/-- The first offered turn that is not held up; when all are, a stamp tick passes. -/
def State.takeFirst (s : State) (ticks : List (Nat × Nat)) : List Slot → Host.Outcome State Fault Refusal
  | [] => .next ((s.takeStamped 1 ticks).getD { s with stamp := s.stamp + 1, stalled := true })
  | x :: xs =>
    match s.takeStamped x.dt ticks with
    | some u => .next u
    | none =>
      match s.take x with
      | .next t => if t.stalled then s.takeFirst ticks xs else .next t
      | o => o

/-- One step: the head of the agenda, or with an empty agenda the default schedule (log 1); a stamped word that is ready at its
tick goes first, and the agenda stays (06 R187). -/
def step (s : State) : Host.Outcome State Fault Refusal :=
  match s.agenda with
  | x :: rest =>
    match s.takeStamped x.dt s.stampTicks with
    | some u => .next u
    | none => { s with agenda := rest }.take x
  | [] => s.takeFirst s.stampTicks s.offers

/-- s with an instruction's word placed where the next step fetches and runs it (log 9). -/
def State.withFetchWord (s : State) (_nbits w : Nat) : State := s.placeTable (BitVec.ofNat 32 w)

end Sys2Proof.Machine
end

