-- ==== Sys2Proof/Safety.lean ====
section
/-! DEFINITION. The terms in which claims speak: what a safe step is, when a word may issue, and what a word leaves when it
retires. Each condition is over the state and the operands alone. -/

namespace Sys2Proof.Machine

/-- A step from s is safe: it answers a next state. -/
def State.Safe (s : State) : Prop := ∃ t, step s = .next t

/-- The task of the current core runs and is held up by nothing outside it (12 R379, 13 R401, 10 R317). -/
def Core.awake (c : Core) : Bool := c.run == .running && !c.gated && !c.deferred

/-- The scalar engine of the current core may issue a word now: its task runs (R379), no call runs on the core (10 R317), no
convoy atomic is awaited, the data of every load due at this beat has arrived (04 R97), the slip allows it (02 R33, R36), a
remote function stays in its page (10 R318). -/
def State.scalarTurn (s : State) : Bool :=
  let c := s.here
  c.awake && !s.gatedBelow && (c.runner.isSome || (s.core (runnerKey s.cur)).runner.isNone) && !c.sc.ctr.stop &&
    c.sc.pend.isNone && (c.runner.isSome || c.slipOk) && c.sc.arrivedBy c.sc.beat && c.inPage

/-- No load is open: none awaits its data (04 R97). -/
def Scalar.noLoad (c : Scalar) : Bool := c.loads.isEmpty && c.flight.all (·.src.isNone)

/-- Word i may issue on the scalar engine of the current core: its turn, with no earlier load still open unless the word can be
undone (04 R97, R101), with a CLASP where the last word was a transfer (R134), operands that R58 accepts, and in a remote
function a word of the subset (10 Table 116). -/
def State.mayIssue (s : State) (i : Instr) : Bool :=
  s.scalarTurn && (undoable i || s.here.sc.noLoad) && (!s.here.sc.landing || isClasp i) && i.wellFormed &&
    (s.here.runner.isNone || remoteSubset i)

/-- Word i may issue on engine e of the current core, one of the three behind: its task runs, its word before has given way and
the scalar counter stands at its word or later (02 R33), R58 accepts its operands. -/
def State.engineMayIssue (s : State) (e : Engine) (i : Instr) : Bool :=
  let c := s.here
  c.awake && !s.gatedBelow && c.runner.isNone && !(c.ctr e).stop && (c.ctr e).next.isNone && c.stands (c.at_ e).1 && i.wellFormed

/-- The state after a scalar word that leaves d and retires (04 R95, R99, 02 R31). -/
def State.retired (s : State) (d : Drop) : State := { s.setHere (s.here.scalarDone s.stamp d) with stalled := false }

/-- The state after a word of engine e that retires (02 R31, R45). -/
def State.engineRetired (s : State) (e : Engine) : State :=
  { s.setHere (s.here.engineDone e s.stamp) with stalled := false }

/-- Two states hold the same memory: every byte, every grain's hallmark, the host's memory. -/
def State.sameMemory (s t : State) : Prop :=
  (∀ a, t.byte a = s.byte a) ∧ (∀ g, t.grain g = s.grain g) ∧ t.host = s.host

/-- Two states agree on everything outside the current core, but for the marks of the step itself. -/
def State.sameOutside (s t : State) : Prop :=
  t.stamp = s.stamp ∧ t.crews = s.crews ∧ t.buckets = s.buckets ∧ t.sched = s.sched ∧ t.pages = s.pages ∧
    t.records = s.records ∧ t.trust = s.trust ∧ t.banks = s.banks ∧ t.remote = s.remote ∧ t.flash = s.flash ∧
    t.cool = s.cool ∧ t.sent = s.sent ∧ t.cur = s.cur ∧ ∀ k, k ≠ s.cur → t.core k = s.core k

/-! ## Taking a trap (12 R379-R383) -/

/-- A trap of this cause by the current core's task is answered by PARK: its context's entry says so (12 R381), the task is
not recorded, no remote function is concerned (10 R317), and no earlier load is open, which a stop would undo (04 R101). -/
def State.parks (s : State) (c : Cause) : Prop :=
  fld (s.actionEntry s.here.job.ctx c.code) 62 2 = 2 ∧ s.here.job.recmode ≠ 1 ∧ s.here.runner = none ∧
    (s.core (runnerKey s.cur)).runner = none ∧ s.here.sc.loads = []

/-- From s, engine e's word at walk index and address pos has trapped with x and the task is parked in t: its status word,
k.CAUSE, its cut header and fault registers are written, its cut is as it stood in s (but for copy words behind the first in
flight, which start again, 07 R233), and memory and the other cores are untouched. -/
def State.enteredAt (s t : State) (e : Engine) (pos : Nat × Word) (x : Trap) : Prop :=
  let c := s.here
  let d := t.here
  let w := d.sc.f.cause.toNat
  t.cur = s.cur ∧ t.stalled = false ∧ d.run = .parked ∧ d.stop.cause = x.cause ∧ d.stop.walk = pos.1 ∧
  fld w 8 6 = x.cause.code ∧ fld w 14 2 = e.tag ∧ fld w 32 16 = x.code % 2 ^ 16 ∧ fld w 0 2 = 0 ∧
  d.stop.header.take 4 = [d.sc.f.cause, c.job.handle, word pos.1, pos.2] ∧
  (∀ f, x.fault = some f → d.sc.f.faddr = f.1 ∧ d.sc.f.finfo = f.2) ∧
  (x.fault = none → d.sc.f.faddr = c.sc.f.faddr ∧ d.sc.f.finfo = c.sc.f.finfo) ∧
  d.sc.strand = c.sc.strand ∧ d.sc.flight = c.sc.flight ∧ d.sc.beat = c.sc.beat ∧ d.sc.ctr = c.sc.ctr ∧
  d.sc.targets = c.sc.targets ∧ d.sc.calls = c.sc.calls ∧ d.sc.k = c.sc.k ∧ d.vec = c.vec ∧
  d.cpy = c.cutCopies.cpy ∧ d.tiles = c.tiles ∧ d.job = c.job ∧ s.sameMemory t ∧ (∀ k, k ≠ s.cur → t.core k = s.core k)

/-- The same for the word at engine e's counter, which had no effect (02 R58). -/
def State.entered (s t : State) (e : Engine) (x : Trap) : Prop := s.enteredAt t e (s.here.at_ e) x

end Sys2Proof.Machine
end

