-- ==== Sys2Proof/Certificates/Slice0/Obligations.lean ====
section
/-! DEFINITION. The statements for the provers. A result statement concludes that exec answers the next state that the
spec gives, under conditions on the state and the operands alone, so it is also the completion statement of its words. -/

namespace Sys2Proof.Claim
open Sys2Proof.Machine

/-! ## Integer work on the strand (04) -/

/-- Strand item n of the current core is written and holds x (04 R94). -/
def reads (s : State) (n : BitVec 5) (x : Word) : Prop := s.here.sc.strand[n.toNat]? = some x

/-- The width W of a form (04 R114). -/
def width (w : Bool) : Nat := if w then 32 else 64

/-- The W-bit operand an item gives, as an unsigned and as a signed number (04 R114). -/
def unsigned (w : Bool) (x : Word) : Nat := x.toNat % 2 ^ width w
def signed (w : Bool) (x : Word) : Int := sext (width w) x.toNat

/-- The item that holds a result modulo 2^W, sign-extended in the 32-bit form (04 R114). -/
def holds (w : Bool) (v : Int) : Word := BitVec.ofInt 64 (sext (width w) (v % 2 ^ width w).toNat)

/-- A word of two operands drops f of them, with its latency, and does nothing else. -/
def dropsTwo (mk : BitVec 5 → BitVec 5 → Bool → Instr) (lat : Nat) (f : Bool → Word → Word → Word) : Prop :=
  ∀ (s : State) (a b : BitVec 5) (w : Bool) (x y : Word), s.mayIssue (mk a b w) = true → reads s a x → reads s b y →
    exec (mk a b w) s = .next (s.retired { lat := lat, items := [f w x y] })

/-- A word of one operand drops f of it with latency 1 and does nothing else. -/
def dropsOne (mk : BitVec 5 → Instr) (f : Word → Word) : Prop :=
  ∀ (s : State) (a : BitVec 5) (x : Word), s.mayIssue (mk a) = true → reads s a x →
    exec (mk a) s = .next (s.retired { lat := 1, items := [f x] })

/-- A word without operands drops f of the state with latency 1 and does nothing else. -/
def dropsNone (i : Instr) (f : State → Word) : Prop :=
  ∀ s : State, s.mayIssue i = true → exec i s = .next (s.retired { lat := 1, items := [f s] })

/-- Bit k of a number, as 0 or 1. -/
def digit (x k : Nat) : Nat := x / 2 ^ k % 2

/-- Halfword h of an item (04 R119, R121), and the item with that halfword replaced by v. -/
def half (x : Word) (h : BitVec 2) : Nat := fld x.toNat (16 * h.toNat) 16
def withHalf (x : Word) (h : BitVec 2) (v : Nat) : Int :=
  (x.toNat : Int) + ((v : Int) - (half x h : Int)) * 2 ^ (16 * h.toNat)

/-- The words whose only effect is on the strand, and the items that they name. -/
def strandOnly : Instr → Bool
  | .nop | .add .. | .sub .. | .mul .. | .mulh .. | .mulhn .. | .div .. | .divn .. | .rem .. | .remn .. | .and .. | .or ..
  | .xor .. | .andn .. | .shl .. | .shr .. | .sar .. | .rol .. | .ror .. | .min .. | .max .. | .minn .. | .maxn ..
  | .ceq .. | .cne .. | .clt .. | .cltn .. | .cle .. | .clen .. | .clz .. | .ctz .. | .popc .. | .brev .. | .sext8 ..
  | .sext16 .. | .sext32 .. | .sel .. | .addi .. | .andi .. | .ori .. | .xori .. | .shli .. | .shri .. | .sari ..
  | .roli .. | .lit .. | .lits .. | .dup .. | .stamp | .lhash | .getk .. => true
  | _ => false
def itemsOf : Instr → List (BitVec 5)
  | .add a b _ | .sub a b _ | .mul a b _ | .mulh a b _ | .mulhn a b _ | .div a b _ | .divn a b _ | .rem a b _ | .remn a b _
  | .and a b _ | .or a b _ | .xor a b _ | .andn a b _ | .shl a b _ | .shr a b _ | .sar a b _ | .rol a b _ | .ror a b _
  | .min a b _ | .max a b _ | .minn a b _ | .maxn a b _ | .ceq a b _ | .cne a b _ | .clt a b _ | .cltn a b _ | .cle a b _
  | .clen a b _ => [a, b]
  | .clz a _ | .ctz a _ | .popc a _ | .brev a _ | .sext8 a | .sext16 a | .sext32 a | .addi a _ _ _ | .andi a _ _ _
  | .ori a _ _ _ | .xori a _ _ _ | .shli a _ _ | .shri a _ _ | .sari a _ _ | .roli a _ _ | .dup a => [a]
  | .sel a b c => [a, b, c]
  | .lit a h _ => if h = 0 then [] else [a]
  | _ => []

/-- The items that any scalar word reads, those of the strand words among them. -/
def namedItems : Instr → List (BitVec 5)
  | .ld a _ _ _ _ _ | .ldk a _ _ _ _ | .tlookFind a _ | .tlookClaim a _ | .tdrop a _ | .jtb _ a _ | .qadv a _ _
  | .qwait a _ _ | .prmw a _ _ | .fmtq a | .stmpq a | .setk a _ | .waitTick a | .waitSerai a | .tlaunch a | .trig a
  | .sreg a | .rpoll a _ | .search a _ | .crel a | .cqry a | .lmark a | .tret a | .pgdrop a | .fence _ _ _ a => [a]
  | .st a b _ _ _ _ | .axch a b _ _ _ | .aadd a b _ _ _ | .aand a b _ _ _ | .aor a b _ _ _ | .axor a b _ _ _
  | .amin a b _ _ _ | .amax a b _ _ _ | .aminn a b _ _ _ | .amaxn a b _ _ _ | .rinv a b _ | .tsetk a b _ | .qset a b _
  | .sbind a b | .spost a b _ | .crsv a b | .pgshare a b _ => [a, b]
  | .acas a b c _ _ _ => [a, b, c]
  | .br _ a c => if c = 0 then [] else [a]
  | .rcall a b c n _ _ => a :: b :: (List.range n.toNat).map fun j => c + BitVec.ofNat 5 j
  | .rret a n => (List.range n.toNat).map fun j => a + BitVec.ofNat 5 j
  | i => itemsOf i

end Sys2Proof.Claim

open Sys2Proof Sys2Proof.Machine Sys2Proof.Claim

/-- 04 Table 50, R114, R115: sums, products and the bit-by-bit functions, modulo 2^W, each at the latency of Table 43. -/
def Sys2Proof.Claim.ArithmeticWordsDropTableFifty : Prop :=
  dropsTwo .add 1 (fun w x y => holds w ((unsigned w x : Int) + unsigned w y)) ∧
  dropsTwo .sub 1 (fun w x y => holds w ((unsigned w x : Int) - unsigned w y)) ∧
  dropsTwo .mul 3 (fun w x y => holds w ((unsigned w x : Int) * unsigned w y)) ∧
  dropsTwo .mulh 3 (fun w x y => holds w (signed w x * signed w y / 2 ^ width w)) ∧
  dropsTwo .mulhn 3 (fun w x y => holds w ((unsigned w x : Int) * unsigned w y / 2 ^ width w)) ∧
  dropsTwo .and 1 (fun w x y => holds w (unsigned w x &&& unsigned w y : Nat)) ∧
  dropsTwo .or 1 (fun w x y => holds w (unsigned w x ||| unsigned w y : Nat)) ∧
  dropsTwo .xor 1 (fun w x y => holds w (unsigned w x ^^^ unsigned w y : Nat)) ∧
  dropsTwo .andn 1 (fun w x y => holds w ((unsigned w x : Int) - (unsigned w x &&& unsigned w y : Nat))) ∧
  dropsTwo .min 1 (fun w x y => holds w (min (signed w x) (signed w y))) ∧
  dropsTwo .max 1 (fun w x y => holds w (max (signed w x) (signed w y))) ∧
  dropsTwo .minn 1 (fun w x y => holds w (min (unsigned w x) (unsigned w y) : Nat)) ∧
  dropsTwo .maxn 1 (fun w x y => holds w (max (unsigned w x) (unsigned w y) : Nat))

/-- 04 Table 50, R114, R115: quotients and remainders, with what a zero divisor and the overflow give. -/
def Sys2Proof.Claim.DivisionWordsDropTableFifty : Prop :=
  dropsTwo .div 12 (fun w x y =>
    if unsigned w y = 0 then holds w (-1) else holds w ((signed w x).tdiv (signed w y))) ∧
  dropsTwo .divn 12 (fun w x y =>
    if unsigned w y = 0 then holds w (-1) else holds w (unsigned w x / unsigned w y : Nat)) ∧
  dropsTwo .rem 12 (fun w x y =>
    if unsigned w y = 0 then holds w (signed w x)
    else holds w (signed w x - signed w y * (signed w x).tdiv (signed w y))) ∧
  dropsTwo .remn 12 (fun w x y =>
    if unsigned w y = 0 then holds w (unsigned w x) else holds w (unsigned w x % unsigned w y : Nat))

/-- 04 Table 50, R114, R115, R120: shifts by the whole 64-bit amount and rotations by the amount modulo W, and the same by
an immediate amount. -/
def Sys2Proof.Claim.ShiftWordsDropTableFifty : Prop :=
  let shl := fun (w : Bool) (x : Word) (n : Nat) => holds w (if width w ≤ n then 0 else (unsigned w x * 2 ^ n : Nat))
  let shr := fun (w : Bool) (x : Word) (n : Nat) => holds w (if width w ≤ n then 0 else (unsigned w x / 2 ^ n : Nat))
  let sar := fun (w : Bool) (x : Word) (n : Nat) =>
    holds w (if width w ≤ n then (if signed w x < 0 then -1 else 0) else signed w x / 2 ^ n)
  let rol := fun (w : Bool) (x : Word) (n : Nat) =>
    holds w (unsigned w x * 2 ^ (n % width w) + unsigned w x / 2 ^ (width w - n % width w) : Nat)
  let ror := fun (w : Bool) (x : Word) (n : Nat) =>
    holds w (unsigned w x / 2 ^ (n % width w) + unsigned w x * 2 ^ (width w - n % width w) : Nat)
  dropsTwo .shl 1 (fun w x y => shl w x y.toNat) ∧
  dropsTwo .shr 1 (fun w x y => shr w x y.toNat) ∧
  dropsTwo .sar 1 (fun w x y => sar w x y.toNat) ∧
  dropsTwo .rol 1 (fun w x y => rol w x y.toNat) ∧
  dropsTwo .ror 1 (fun w x y => ror w x y.toNat) ∧
  ∀ (w : Bool) (n : BitVec 16),
    dropsOne (fun a => .shli a w n) (fun x => shl w x n.toNat) ∧
    dropsOne (fun a => .shri a w n) (fun x => shr w x n.toNat) ∧
    dropsOne (fun a => .sari a w n) (fun x => sar w x n.toNat) ∧
    dropsOne (fun a => .roli a w n) (fun x => rol w x n.toNat)

/-- 04 R116, R114: a comparison drops 1 where its relation holds between the W-bit operands and 0 otherwise, with latency 1;
its word is SAB with opcode 0x02 and mod[6:0] zero, and with a bit of those set it raises RESBITS. -/
def Obligations.CompareWordsDropTruth : Prop :=
  dropsTwo .ceq 1 (fun w x y => if unsigned w x = unsigned w y then 1 else 0) ∧
  dropsTwo .cne 1 (fun w x y => if unsigned w x = unsigned w y then 0 else 1) ∧
  dropsTwo .clt 1 (fun w x y => if signed w x < signed w y then 1 else 0) ∧
  dropsTwo .cltn 1 (fun w x y => if unsigned w x < unsigned w y then 1 else 0) ∧
  dropsTwo .cle 1 (fun w x y => if signed w x ≤ signed w y then 1 else 0) ∧
  dropsTwo .clen 1 (fun w x y => if unsigned w x ≤ unsigned w y then 1 else 0) ∧
  ∀ (a b : BitVec 5) (w : Bool) (r : BitVec 7),
    let word := fun (f : Nat) => BitVec.ofNat 32 (0x02000000 + a.toNat * 2 ^ 19 + b.toNat * 2 ^ 14 + f * 2 ^ 8 + w.toNat * 2 ^ 7 + r.toNat)
    let is := fun (i : Instr) => if r = 0 then Decoded.instr i else .resbits
    decode (word 0) = is (.ceq a b w) ∧ decode (word 1) = is (.cne a b w) ∧ decode (word 2) = is (.clt a b w) ∧
    decode (word 3) = is (.cltn a b w) ∧ decode (word 4) = is (.cle a b w) ∧ decode (word 5) = is (.clen a b w)

/-- 04 R117, R114: counting, reversing and extending the bits of an item. A count of trailing zeros is told by the power of
two that it names. -/
def Sys2Proof.Claim.BitWordsCountAndReverse : Prop :=
  ∀ (w : Bool),
    dropsOne (fun a => .clz a w) (fun x =>
      word (if unsigned w x = 0 then width w else width w - 1 - (unsigned w x).log2)) ∧
    (∀ (s : State) (a : BitVec 5) (x : Word), s.mayIssue (.ctz a w) = true → reads s a x →
      ∃ k, exec (.ctz a w) s = .next (s.retired { lat := 1, items := [word k] }) ∧
        (unsigned w x = 0 → k = width w) ∧
        (unsigned w x ≠ 0 → unsigned w x % 2 ^ k = 0 ∧ unsigned w x % 2 ^ (k + 1) ≠ 0)) ∧
    dropsOne (fun a => .popc a w) (fun x => word ((List.range (width w)).map (digit (unsigned w x))).sum) ∧
    dropsOne (fun a => .brev a w) (fun x =>
      holds w (((List.range (width w)).map fun k => digit (unsigned w x) k * 2 ^ (width w - 1 - k)).sum : Nat)) ∧
    dropsOne .sext8 (fun x => BitVec.ofInt 64 (sext 8 x.toNat)) ∧
    dropsOne .sext16 (fun x => BitVec.ofInt 64 (sext 16 x.toNat)) ∧
    dropsOne .sext32 (fun x => BitVec.ofInt 64 (sext 32 x.toNat))

/-- 04 R118: SEL s(a), s(b), s(c) drops s(b) when s(a) is not zero and s(c) otherwise; its word is SABC with opcode 0x04, fn
and mod zero, and a nonzero fn or mod raises RESBITS. -/
def Obligations.SelectDropsOneOfTwoItems : Prop :=
  (∀ (s : State) (a b c : BitVec 5) (x y z : Word), s.mayIssue (.sel a b c) = true →
    reads s a x → reads s b y → reads s c z →
    exec (.sel a b c) s = .next (s.retired { lat := 1, items := [if x = 0 then z else y] })) ∧
  ∀ (a b c : BitVec 5) (r : BitVec 9),
    decode (BitVec.ofNat 32 (0x04000000 + a.toNat * 2 ^ 19 + b.toNat * 2 ^ 14 + c.toNat * 2 ^ 9 + r.toNat)) =
      if r = 0 then .instr (.sel a b c) else .resbits

/-- 04 R119, R121: words that combine an item with an immediate. ADDI adds the immediate, extended and moved to its
halfword; ANDI, ORI, XORI and LIT change that halfword alone. -/
def Sys2Proof.Claim.ImmediateWordsDropTheirResult : Prop :=
  (∀ (w : Bool) (h : BitVec 2) (i : BitVec 16),
    dropsOne (fun a => .addi a w h i) (fun x => holds w ((unsigned w x : Int) + i.toInt * 2 ^ (16 * h.toNat))) ∧
    dropsOne (fun a => .andi a w h i) (fun x => holds w (withHalf x h (half x h &&& i.toNat))) ∧
    dropsOne (fun a => .ori a w h i) (fun x => holds w (withHalf x h (half x h ||| i.toNat))) ∧
    dropsOne (fun a => .xori a w h i) (fun x => holds w (withHalf x h (half x h ^^^ i.toNat)))) ∧
  (∀ (h : BitVec 2) (i : BitVec 16), h ≠ 0 →
    dropsOne (fun a => .lit a h i) (fun x => BitVec.ofInt 64 (withHalf x h i.toNat))) ∧
  (∀ i : BitVec 16, dropsNone (.lit 0 0 i) (fun _ => word i.toNat) ∧ dropsNone (.lits i) (fun _ => BitVec.ofInt 64 i.toInt))

/-- 04 R122: DUP s(a) drops s(a) with latency 1; its word is SAB with opcode 0x0B, and with b, fn or mod nonzero it raises
RESBITS. -/
def Obligations.DupDropsItsItem : Prop :=
  (∀ (s : State) (a : BitVec 5) (x : Word), s.mayIssue (.dup a) = true → reads s a x →
    exec (.dup a) s = .next (s.retired { lat := 1, items := [x] })) ∧
  ∀ (a : BitVec 5) (r : BitVec 19),
    decode (BitVec.ofNat 32 (0x0B000000 + a.toNat * 2 ^ 19 + r.toNat)) = if r = 0 then .instr (.dup a) else .resbits

/-- 02 R60, 04 R109, 14 R414: NOP drops nothing, STAMP the stamp counter as it stands, LHASH the store hash. -/
def Sys2Proof.Claim.PlainReadsOfTheMachine : Prop :=
  (∀ s : State, s.mayIssue .nop = true → exec .nop s = .next (s.retired { lat := 1, items := [] })) ∧
  dropsNone .stamp (fun s => word s.stamp) ∧
  dropsNone .lhash (fun s => s.here.sc.hash)

/-- 04 R95, R94, R99, 02 R31: what every result statement's `retired` means, said of DUP: at beat n the item flies for
beat n + 1 and lands there, with whatever else is due, before the next word reads; the counter moves to the next word; a
word of latency 12 leaves the strand to the other landings until its own beat. -/
def Sys2Proof.Claim.ResultsLandAtTheirBeat : Prop :=
  (∀ (s : State) (a : BitVec 5) (x : Word), s.mayIssue (.dup a) = true → reads s a x →
    (∀ f ∈ s.here.sc.flight, s.here.sc.beat + 1 < f.due) →
    ∃ t, exec (.dup a) s = .next t ∧ t.here.sc.strand = (x :: s.here.sc.strand).take 32 ∧
      t.here.sc.flight = s.here.sc.flight ∧ t.here.sc.beat = s.here.sc.beat + 1 ∧
      t.here.sc.ctr.walk = s.here.sc.ctr.walk + 1 ∧ t.here.sc.ctr.addr = s.here.sc.ctr.addr + 4) ∧
  (∀ (s : State) (a b : BitVec 5) (w : Bool) (x y : Word), s.mayIssue (.divn a b w) = true → reads s a x →
    reads s b y → s.here.sc.flight = [] →
    ∃ t v, exec (.divn a b w) s = .next t ∧ t.here.sc.strand = s.here.sc.strand ∧
      t.here.sc.flight = [{ due := s.here.sc.beat + 12, items := [v] }]) ∧
  (∀ (s : State) (p q : Word) (a : BitVec 5) (x : Word), s.mayIssue (.dup a) = true → reads s a x →
    s.here.sc.flight = [{ due := s.here.sc.beat + 1, items := [p, q] }] →
    ∃ t, exec (.dup a) s = .next t ∧ t.here.sc.strand = (x :: q :: p :: s.here.sc.strand).take 32)

/-- 04 R98, 02 R58: any scalar word that may issue and names an unwritten strand position raises OPERAND at that word and has
no effect: the entry of the trap is all that happens (here with the action PARK). Outside a handler TRET raises TRETCTX first
(12 R384). -/
def Sys2Proof.Claim.UnwrittenItemRaisesOperand : Prop :=
  ∀ (s : State) (i : Instr) (n : BitVec 5), s.mayIssue i = true → n ∈ namedItems i → s.here.sc.strand.length ≤ n.toNat →
    s.parks .operand → (∀ a, i = .tret a → s.here.job.handler = true) →
    ∃ t, exec i s = .next t ∧ s.entered t .s { cause := .operand }

/-- 04 R96, R99 and 09: the frame of the words whose effects stay on the strand. Such a word, with the items it names
written, completes; then no byte, hallmark or host byte changed, nothing outside its core, and of its core only the strand, the
results in flight, the beat and the counter. -/
def Obligations.StrandWordsChangeOnlyTheStrand : Prop :=
  ∀ (i : Instr) (s : State), strandOnly i = true → s.mayIssue i = true →
    (∀ n ∈ itemsOf i, n.toNat < s.here.sc.strand.length) →
    ∃ t, exec i s = .next t ∧ s.sameMemory t ∧ s.sameOutside t ∧
      { t.here with sc := s.here.sc, lastIssue := s.here.lastIssue } = s.here ∧
      { t.here.sc with
        strand := s.here.sc.strand
        flight := s.here.sc.flight
        beat := s.here.sc.beat
        ctr := s.here.sc.ctr } = s.here.sc

namespace Sys2Proof.Claim
open Sys2Proof.Machine

/-! ## Control flow, k-registers (04) -/

/-- A word whose effects leave the engine meets a checker that agrees (02 R44; the mark of a disagreement is log 20). -/
def agrees (s : State) : Prop := s.here.checkerBad = false

/-- What a transfer to a does beside retiring: its outcome joins the route queue, with the walk index of its word (02 R34);
a remote function has no route queue (10 R318). -/
def routed (s : State) (a : Word) : Core :=
  let c := s.here
  if c.runner.isSome then c
  else { c with hand := { c.hand with route := c.hand.route ++ [{ walk := c.sc.ctr.walk, target := a }] } }

/-- The route queue has room (02 R35), or there is none. -/
def routeRoom (s : State) : Prop := s.here.runner.isSome ∨ s.here.hand.route.length < 64

/-- Target register t is set to a (04 R127). -/
def targets (s : State) (t : BitVec 2) (a : Word) : Prop := s.here.sc.targets.getD t.toNat none = some a

/-- The call slots that are not free, as a mask (10 R314), and the highest of a zone's four temperatures (13 R393). -/
def busy (s : State) : Nat := ((List.range 64).map fun n =>
  if (Sparse.get ({} : CallSlot) s.here.slots n).st = .free then 0 else 2 ^ n).sum
def hottest (z : Zone) : Nat :=
  let all := [z.t0, z.t1, z.t2, z.t3]
  ((all.find? fun t => all.all fun u => decide (u.toInt ≤ t.toInt)).getD 0).toNat

/-- The next state of a transfer to a that leaves core c. -/
def goes (s : State) (c : Core) (a : Word) : State := (s.setHere c).retired { target := some a }

end Sys2Proof.Claim

open Sys2Proof Sys2Proof.Machine Sys2Proof.Claim

/-- 04 R127, R128: PBR sets its target register to its own address plus four times the signed offset, and nothing else; in a
remote function a target outside its page ends it with PROTECT instead (10 R317, R318). -/
def Sys2Proof.Claim.PbrSetsItsTargetRegister : Prop :=
  (∀ (s : State) (t : BitVec 2) (o : BitVec 22), s.mayIssue (.pbr t o) = true →
    let a := s.here.sc.ctr.addr + BitVec.ofInt 64 (4 * o.toInt)
    (∀ r, s.here.runner = some r → r.page ≤ a.toNat ∧ a.toNat < r.page + r.size) →
    exec (.pbr t o) s =
      .next ((s.setHere { s.here with sc := { s.here.sc with targets := s.here.sc.targets.set t.toNat (some a) } }).retired
        {})) ∧
  ∀ (s : State) (t : BitVec 2) (o : BitVec 22) (r : Runner), s.mayIssue (.pbr t o) = true → s.here.runner = some r →
    s.here.sc.loads = [] →
    let a := s.here.sc.ctr.addr + BitVec.ofInt 64 (4 * o.toInt)
    ¬ (r.page ≤ a.toNat ∧ a.toNat < r.page + r.size) →
    exec (.pbr t o) s = .next { s.endRunner s.cur .fault Cause.protect.code [] with stalled := false }

/-- 04 R129, R127, 02 R34: BR goes to its target register when its condition holds and to the next word otherwise, and the
outcome joins the route queue; with an unset register it raises OPERAND. -/
def Sys2Proof.Claim.BranchGoesWhereItsConditionSays : Prop :=
  let holds := fun (c : BitVec 3) (x : Word) =>
    c = 0 ∨ c = 1 ∧ x = 0 ∨ c = 2 ∧ x ≠ 0 ∨ c = 3 ∧ 2 ^ 63 ≤ x.toNat ∨ c = 4 ∧ x.toNat < 2 ^ 63
  (∀ (s : State) (t : BitVec 2) (i : BitVec 5) (c : BitVec 3) (a x : Word), s.mayIssue (.br t i c) = true → agrees s →
    targets s t a → (c = 0 ∨ reads s i x) → routeRoom s →
    (holds c x → exec (.br t i c) s = .next (goes s (routed s a) a)) ∧
    (¬ holds c x → exec (.br t i c) s =
      .next (goes s (routed s (s.here.sc.ctr.addr + 4)) (s.here.sc.ctr.addr + 4)))) ∧
  ∀ (s : State) (t : BitVec 2) (i : BitVec 5) (c : BitVec 3), s.mayIssue (.br t i c) = true →
    s.here.sc.targets.getD t.toNat none = none → s.parks .operand →
    ∃ u, exec (.br t i c) s = .next u ∧ s.entered u .s { cause := .operand }

/-- 04 R130, R131: CALL with fewer than 32 entries pushes the address of the next word and goes to its target register,
where a landing is due (R134); with 32 it raises OPERAND. Its word is 0x20000000 + 0x400000 times its target, with the other
bits zero. -/
def Sys2Proof.Claim.CallPushesTheNextAddress : Prop :=
  (∀ (s : State) (t : BitVec 2) (a : Word), s.mayIssue (.call t) = true → agrees s → targets s t a → routeRoom s →
    s.here.sc.calls.length < 32 →
    exec (.call t) s = .next (goes s { routed s a with
      sc := { s.here.sc with
        calls := (s.here.sc.ctr.addr + 4) :: s.here.sc.calls
        landing := true } } a)) ∧
  (∀ (s : State) (t : BitVec 2) (a : Word), s.mayIssue (.call t) = true → targets s t a → 32 ≤ s.here.sc.calls.length →
    s.parks .operand → ∃ u, exec (.call t) s = .next u ∧ s.entered u .s { cause := .operand }) ∧
  ∀ (t : BitVec 2) (r : BitVec 22),
    decode (BitVec.ofNat 32 (0x20000000 + 0x400000 * t.toNat + r.toNat)) = if r = 0 then .instr (.call t) else .resbits

/-- 04 R132, R130: RETS goes to the newest address of the hidden stack and pops it; with an empty stack it raises
RETMISS. Its word is 0x21000000. -/
def Sys2Proof.Claim.RetsPopsTheNewestAddress : Prop :=
  (∀ (s : State) (a : Word) (rest : List Word), s.mayIssue .rets = true → agrees s → routeRoom s →
    s.here.sc.calls = a :: rest →
    exec .rets s = .next (goes s { routed s a with sc := { s.here.sc with calls := rest } } a)) ∧
  (∀ (s : State), s.mayIssue .rets = true → s.here.sc.calls = [] → s.parks .retmiss →
    ∃ u, exec .rets s = .next u ∧ s.entered u .s { cause := .retmiss }) ∧
  decode 0x21000000 = .instr .rets

/-- 04 R133, R134: JTB with an index below its bound reads the table's word as text and goes four times its signed low 22
bits beyond the table; an index at or above the bound raises JTBOUND. -/
def Sys2Proof.Claim.TableJumpGoesWhereItsEntrySays : Prop :=
  (∀ (s u : State) (t : BitVec 2) (i : BitVec 5) (b : BitVec 10) (a x : Word) (e : BitVec 32),
    s.mayIssue (.jtb t i b) = true → agrees s → targets s t a → reads s i x → x.toNat < b.toNat →
    (fetchText (a + word (4 * x.toNat))).run s = .ok e u → e.toNat < 2 ^ 22 → routeRoom u →
    let to' := a + BitVec.ofInt 64 (4 * sext 22 e.toNat)
    exec (.jtb t i b) s = .next (goes u { routed u to' with sc := { u.here.sc with landing := true } } to')) ∧
  ∀ (s : State) (t : BitVec 2) (i : BitVec 5) (b : BitVec 10) (a x : Word), s.mayIssue (.jtb t i b) = true →
    targets s t a → reads s i x → b.toNat ≤ x.toNat → s.parks .jtbound →
    ∃ u, exec (.jtb t i b) s = .next u ∧ s.entered u .s { cause := .jtbound }

/-- 04 R134: a CLASP accepts a landing and does nothing else; any other word of the scalar engine where a landing is due, one
that R58 refuses among them, raises CLASPMISS at that word. -/
def Sys2Proof.Claim.LandingAcceptsOnlyClasp : Prop :=
  (∀ (s : State) (l : BitVec 16), s.mayIssue (.clasp l) = true →
    exec (.clasp l) s = .next ((s.setHere { s.here with sc := { s.here.sc with landing := false } }).retired {})) ∧
  ∀ (s : State) (w : BitVec 32), engineOfWord w = .s → w.toNat / 2 ^ 24 ≠ 0x23 → s.scalarTurn = true →
    s.here.sc.landing = true → s.parks .claspmiss →
    ∃ u, exec (instrOf w) s = .next u ∧ s.entered u .s { cause := .claspmiss }

/-- 04 R106, R107, 01 R22: k.SPAN holds the stage count, the worker count and the span position of the worker, k.STAGE its
stage and its index within it, and GETK drops them. -/
def Obligations.GetkDropsTheWorkersPlace : Prop :=
  ∀ (s : State), s.mayIssue (.getk 1) = true → s.here.job.pos < s.here.job.count → s.here.job.count ≤ 288 →
    1 ≤ s.here.job.stages → s.here.job.stages ≤ 16 → s.here.job.count % s.here.job.stages = 0 →
    ∃ v w, exec (.getk 1) s = .next (s.retired { lat := 1, items := [v] }) ∧
      exec (.getk 2) s = .next (s.retired { lat := 1, items := [w] }) ∧
      fld v.toNat 0 12 = s.here.job.pos ∧ fld v.toNat 12 12 = s.here.job.count ∧ fld v.toNat 24 5 = s.here.job.stages ∧
      fld v.toNat 29 35 = 0 ∧
      fld w.toNat 0 4 = s.here.job.pos / (s.here.job.count / s.here.job.stages) ∧
      fld w.toNat 4 12 = s.here.job.pos % (s.here.job.count / s.here.job.stages) ∧ fld w.toNat 16 48 = 0

/-- 04 R103, R104, R108, 06 R188, 09 R289, 10 R314, 13 R393: GETK of each further register of Table 46 drops the value that the register's file gives it, and
does nothing else. -/
def Sys2Proof.Claim.GetkDropsTheNamedRegister : Prop :=
  ∀ (s : State) (k : BitVec 12) (v : Word), s.mayIssue (.getk k) = true →
    let c := s.here
    let r := c.sc.k
    let f := c.sc.f
    let z := 4 * (s.cur / 32) + s.cur % 32 / 8
    (k, v) ∈ ([(0x000, word s.cur), (0x003, word c.job.ctx), (0x004, word c.sc.beat), (0x005, word c.sc.calls.length),
      (0x010, word r.slipw), (0x011, r.srseed), (0x020, if r.clkpin then 1 else 0), (0x100, word r.vlen),
      (0x101, r.vtype.setWidth 64), (0x102, r.vguard.setWidth 64), (0x103, r.rrb.setWidth 64), (0x200, word r.assayn),
      (0x400, f.faddr), (0x401, f.finfo.setWidth 64), (0x500, if r.convoy then 1 else 0),
      (0x600, if r.rctl then 1 else 0), (0x700, f.fladdr), (0x800, f.cause), (0x801, s.sched.drainT.setWidth 64),
      (0x802, f.msg), (0x803, f.range), (0x804, c.job.handle), (0xA00, word c.job.recmode), (0xA01, c.sc.hash),
      (0xA02, word c.job.tseq), (0x201, word ((s.bucket (s.cur / 32)).cap % 2 ^ 32)),
      (0x202, word ((s.bucket (s.cur / 32)).rate % 2 ^ 16)),
      (0x501, word (c.sc.win % 2 ^ 32 * 2 ^ 32 + min c.sc.convn (2 ^ 32 - 1))), (0x601, word (busy s)),
      (0x808, f.cut.getD 0 0), (0x809, f.cut.getD 1 0), (0x80A, f.cut.getD 2 0), (0x80B, f.cut.getD 3 0),
      (0x80C, f.cut.getD 4 0), (0x80D, f.cut.getD 5 0), (0x80E, f.cut.getD 6 0), (0x80F, f.cut.getD 7 0),
      (0x900, word z), (0x901, word ((s.zone z).flow.toNat * 2 ^ 16 + hottest (s.zone z)))] : List (BitVec 12 × Word)) →
    exec (.getk k) s = .next (s.retired { lat := 1, items := [v] })

/-- 04 R105: SETK of a register of the scalar engine alone writes it; a vector or matrix register also travels, as a
parameter write with the word's walk index, to the engines that its block names; a value outside the register's limits raises
OPERAND. k.CLKPIN waits for the clock (06 R186). -/
def Sys2Proof.Claim.SetkWritesItsRegister : Prop :=
  (∀ (s : State) (a : BitVec 5) (k : BitVec 12) (x : Word), s.mayIssue (.setk a k) = true → agrees s → reads s a x →
    kLimits k.toNat x = true → s.here.hand.pv.length < 32 → s.here.hand.pm.length < 32 →
    (k = 0x020 → s.here.slow = false) →
    let c := s.here
    let p : ParamWrite := { walk := c.sc.ctr.walk, param := .kreg k.toNat x }
    let vec := k ∈ ([0x011, 0x100, 0x101, 0x102, 0x103] : List (BitVec 12))
    let mat := k ∈ ([0x011, 0x020, 0x200] : List (BitVec 12))
    ∃ t, exec (.setk a k) s = .next t ∧ t.stalled = false ∧
      t.here.hand.pv = (if vec then c.hand.pv ++ [p] else c.hand.pv) ∧
      t.here.hand.pm = (if mat then c.hand.pm ++ [p] else c.hand.pm) ∧ t.here.hand.px = c.hand.px ∧
      t.kValue k.toNat = x ∧
      (∀ j : Nat, j ≠ k.toNat → j ∈ [0x010, 0x011, 0x020, 0x100, 0x101, 0x102, 0x103, 0x200, 0x500, 0x600] →
        t.kValue j = s.kValue j) ∧
      s.sameMemory t ∧ s.sameOutside t) ∧
  ∀ (s : State) (a : BitVec 5) (k : BitVec 12) (x : Word), s.mayIssue (.setk a k) = true → reads s a x →
    kLimits k.toNat x = false → s.parks .operand →
    ∃ u, exec (.setk a k) s = .next u ∧ s.entered u .s { cause := .operand }

namespace Sys2Proof.Claim
open Sys2Proof.Machine

/-! ## Loads, stores, atomics, fences, tags (04 R123-R126, 07 R213-R216, 09) -/

/-- An access that nothing holds (09 R279); what a remote function does is behind nothing (10 R318). -/
def goesOn (s : State) (a : Acc) : Prop := s.here.runner.isSome = true ∨ s.held s.cur a = false

/-- An access of the scalar word at the counter, and that nothing holds it. -/
def scalarAccess (s : State) (cls loc len : Nat) (kinds : Kinds) (rel : Option Nat) : Acc :=
  { walk := s.here.sc.ctr.walk, cls := cls, kinds := kinds, home := some (s.home loc), loc := loc, len := len, rel := rel }
def clear (s : State) (cls loc len : Nat) (kinds : Kinds) (rel : Option Nat) : Prop :=
  goesOn s (scalarAccess s cls loc len kinds rel)

/-- The scalar engine after a word whose answer is awaited has issued: the answer lands at its issue beat plus 4 (04 R97), and a
stop before it arrives puts the engine back (04 R99, R101). -/
def awaiting (x : Scalar) (cls loc : Nat) (k : LoadKind) : Scalar :=
  let back : ScalarBack := {
    ctr := x.ctr, strand := x.strand, flight := x.flight, beat := x.beat, targets := x.targets, landing := x.landing }
  let l : PendLoad := { walk := x.ctr.walk, due := x.beat + 4, cls := cls, loc := loc, kind := k, back := back }
  { x with
    loads := x.loads ++ [l]
    flight := x.flight ++ [{ due := x.beat + 4, items := [], src := some x.ctr.walk }] }

/-- The state after that word. -/
def awaits (s : State) (cls loc : Nat) (k : LoadKind) : State :=
  (s.setHere { s.here with sc := awaiting s.here.sc cls loc k }).retired {}

/-- The picked one of the answers awaited (04 R97), on a core that may move. -/
def picked (s : State) (l : PendLoad) : Prop :=
  s.here.awake = true ∧ s.gatedBelow = false ∧ s.here.sc.loads[s.pick]? = some l

/-- The state after item v has arrived for that word. -/
def arrived (s : State) (l : PendLoad) (v : Word) : State :=
  { s.setHere { s.here with sc := s.here.sc.arrive l.walk v } with stalled := false }

/-- The access of that word at a location; and the state in which a load with acquire looks for its line (09 R283). -/
def loadAccess (s : State) (l : PendLoad) (loc len : Nat) : Acc := { l.acc (s.home loc) with loc := loc, len := len }
def acquired (s : State) (q : Bool) : State :=
  if q then s.setHere { s.here with sc := { s.here.sc with dcache := s.here.sc.dcache.filter (·.constant) } } else s

/-- An item joins the request path before those that come after it in the walk (09 R279). -/
def joined (s : State) (p : PathItem) : State :=
  s.setHere { s.here with req := { s.here.req with path := insertItem p s.here.req.path } }

/-- Item n of the path is p, an ordinary one, and nothing before it holds it (09 R279, 07 R233). -/
def first (s : State) (n : Nat) (p : PathItem) : Prop :=
  s.here.req.path[n]? = some p ∧ s.heldBehind s.cur (s.here.req.path.take n) p.acc = false ∧
    ∀ r ∈ s.here.cpy.runs, r.id < p.acc.run → r.passed = true

/-- An address names a location for an access of the scalar engine; the TLBs may fill on the way (07 R208, 08 R251-R255). -/
def names (s : State) (va : Word) (n : Need) (loc : Nat) (u : State) : Prop := (locate va n .s).run s = .ok loc u

/-- An access of len bytes passes its home: logged in record mode, matched in replay, charged to its stack (14 R406, R410, 10
R310). -/
def passes (s : State) (loc len : Nat) (u : State) : Prop := (passHome loc len).run s = .ok ⟨⟩ u

/-- A location of plain memory: DRAM, the KV store, a scratchpad, a traversal core's memory (01 R18, 07 R208). -/
def plain (loc : Nat) : Prop := place loc = .dram ∨ place loc = .kv ∨ place loc = .pad ∨ place loc = .trav

/-- The word of 04 R95 at which an item of latency 1 has just landed. -/
def landed (t : State) (v : Word) : Prop := t.here.sc.strand[0]? = some v

/-- Every byte but those of one range reads in t as in s. -/
def changedOnly (s t : State) (loc len : Nat) : Prop := ∀ a, a < loc ∨ loc + len ≤ a → t.byte a = s.byte a

/-- One fold of the store hash (14 R413). -/
def fold (h : Word) (k : Nat) (a v : Word) : Word := h.rotateLeft 9 ^^^ a ^^^ (v * 0x100000001B3) ^^^ BitVec.ofNat 64 k

/-- What an atomic leaves at its address, as a number below 2^64, and none when a CAS fails (09 Table 88). -/
def atomLeaves (op : AtomOp) (m b c : Word) : Option Word :=
  match op with
  | .xch => some b
  | .cas => if m = b then some c else none
  | .add => some (BitVec.ofNat 64 (m.toNat + b.toNat))
  | .and => some (BitVec.ofNat 64 (m.toNat &&& b.toNat))
  | .or => some (BitVec.ofNat 64 (m.toNat ||| b.toNat))
  | .xor => some (BitVec.ofNat 64 (m.toNat ^^^ b.toNat))
  | .min => some (BitVec.ofInt 64 (min m.toInt b.toInt))
  | .max => some (BitVec.ofInt 64 (max m.toInt b.toInt))
  | .minn => some (BitVec.ofNat 64 (min m.toNat b.toNat))
  | .maxn => some (BitVec.ofNat 64 (max m.toNat b.toNat))

/-- An atomic word by its operation: the first operand, the second, the third of ACAS, class, order field, scope. -/
def atomWord (op : AtomOp) (a b c : BitVec 5) (k : BitVec 4) (o : BitVec 2) (sc : BitVec 3) : Instr :=
  match op with
  | .xch => .axch a b k o sc
  | .cas => .acas a b c k o sc
  | .add => .aadd a b k o sc
  | .and => .aand a b k o sc
  | .or => .aor a b k o sc
  | .xor => .axor a b k o sc
  | .min => .amin a b k o sc
  | .max => .amax a b k o sc
  | .minn => .aminn a b k o sc
  | .maxn => .amaxn a b k o sc

/-- The release part of an atomic: its scope when the order field says release (09 R285). -/
def relOf (o : BitVec 2) (sc : BitVec 3) : Option Nat := if o.getLsbD 1 then some sc.toNat else none

/-- The address a load or store computes: base plus the signed offset times the size (04 R123, R125). -/
def effective (base : Word) (o : Int) (sz : BitVec 2) : Word := base + BitVec.ofInt 64 (o * 2 ^ sz.toNat)

/-- A trap at an address of an access: cause, the address that faulted, and FINFO's LEVEL, ACCESS and REASON (08 R258, Table
80). -/
def faulted (c : Cause) (va : Word) (level access reason : Nat) : Trap :=
  { cause := c, fault := some (va, BitVec.ofNat 16 (level * 2 ^ 12 + access * 2 ^ 8 + reason)) }

end Sys2Proof.Claim

open Sys2Proof Sys2Proof.Machine Sys2Proof.Claim

/-- 04 R123, R124, R126, R97: an LD or LDK whose address is aligned and translates issues: it awaits its data at that address,
its beat passes, and nothing else happens. An address that is not a multiple of the size raises ALIGN first. -/
def Sys2Proof.Claim.LoadsIssueAtTheirAddress : Prop :=
  (∀ (s u : State) (a : BitVec 5) (c : BitVec 4) (sz : BitVec 2) (g q : Bool) (o : BitVec 11) (x : Word) (loc : Nat),
    s.mayIssue (.ld a c sz g q o) = true → agrees s → reads s a x →
    (effective x o.toInt sz).toNat % 2 ^ sz.toNat = 0 → names s (effective x o.toInt sz) .read loc u →
    exec (.ld a c sz g q o) s =
      .next (awaits u c.toNat loc (.mem ⟨effective x o.toInt sz, 2 ^ sz.toNat, c.toNat⟩ g false q))) ∧
  (∀ (s u : State) (a : BitVec 5) (c : BitVec 4) (sz : BitVec 2) (g : Bool) (o : BitVec 11) (x : Word) (loc : Nat),
    s.mayIssue (.ldk a c sz g o) = true → agrees s → reads s a x → (effective x o.toInt sz).toNat % 2 ^ sz.toNat = 0 →
    names s (effective x o.toInt sz) .read loc u →
    exec (.ldk a c sz g o) s =
      .next (awaits u c.toNat loc (.mem ⟨effective x o.toInt sz, 2 ^ sz.toNat, c.toNat⟩ g true false))) ∧
  ∀ (s : State) (a : BitVec 5) (c : BitVec 4) (sz : BitVec 2) (g q : Bool) (o : BitVec 11) (x : Word),
    s.mayIssue (.ld a c sz g q o) = true → reads s a x → (effective x o.toInt sz).toNat % 2 ^ sz.toNat ≠ 0 →
    s.parks .align →
    ∃ u, exec (.ld a c sz g q o) s = .next u ∧ s.entered u .s (faulted .align (effective x o.toInt sz) 0 0 9)

/-- 04 R97, R111, R123, 07 R208, 14 R418: the data of an awaited load arrives, extended as its type says. It comes from the line
of its address where the cache holds one that its kind may hit (an acquire finds no ordinary line), for a scratchpad address
from memory at that location, when nothing holds the access and the hallmarks are good, and for a device register from the
register, never through the cache. Data that arrives in time lands at issue beat plus 4; until it has arrived no word issues at
that beat. -/
def Sys2Proof.Claim.LoadedDataLandsFourBeatsLater : Prop :=
  let value := fun (g : Bool) (size : Nat) (bs : List Byte) =>
    if g then BitVec.ofInt 64 (sext (8 * size) (leNat bs)) else word (leNat bs)
  (∀ (s u : State) (p : PendLoad) (va : Word) (size cls loc : Nat) (g k : Bool) (l : Line), picked s p →
    s.here.runner = none → p.kind = .mem ⟨va, size, cls⟩ g k false → bit va.toNat 63 = false →
    names s va .read loc u → place loc = .dram ∨ place loc = .kv ∨ place loc = .host → u.here.sc.line va.toNat k = some l →
    exec .loadReturn s = .next (arrived u p (value g size ((l.bytes.drop (va.toNat % 64)).take size)))) ∧
  (∀ (s u v : State) (p : PendLoad) (va : Word) (size cls loc : Nat) (g k q : Bool), picked s p →
    p.kind = .mem ⟨va, size, cls⟩ g k q → (bit va.toNat 63 = true ∨ s.here.runner.isSome = true) →
    names (acquired s q) va .read loc u → goesOn u (loadAccess u p loc size) → passes u loc size v → plain loc →
    v.verify loc size = none →
    exec .loadReturn s = .next (arrived v p (value g size (v.bytes loc size)))) ∧
  (∀ (s u : State) (p : PendLoad) (va : Word) (size cls loc : Nat) (g k q : Bool), picked s p → s.here.runner = none →
    p.kind = .mem ⟨va, size, cls⟩ g k q → names (acquired s q) va .read loc u → place loc = .reg → loc % 8 + size ≤ 8 →
    goesOn u (loadAccess u p loc size) →
    exec .loadReturn s = .next (arrived u p (value g size
      (((leBytes 8 (u.readReg ((loc - Config.regBase) / 8 * 8)).toNat).drop (loc % 8)).take size)))) ∧
  (∀ (x : Scalar) (l : PendLoad) (v : Word), x.loads = [l] →
    x.flight = [{ due := l.due, items := [], src := some l.walk }] →
    (x.arrive l.walk v).loads = [] ∧
    (l.due ≤ x.beat → (x.arrive l.walk v).strand = (v :: x.strand).take 32 ∧ (x.arrive l.walk v).flight = []) ∧
    (x.beat < l.due → (x.arrive l.walk v).strand = x.strand ∧
      (x.arrive l.walk v).flight = [{ due := l.due, items := [v] }])) ∧
  (∀ (s : State) (f : InFlight), s.here.awake = true → s.gatedBelow = false → f ∈ s.here.sc.flight → f.src ≠ none →
    f.due ≤ s.here.sc.beat → exec .nop s = .next { s with stalled := true }) ∧
  ∀ (s : State) (l : Line) (va : Nat), l.num = va / 64 → s.here.sc.dcache = [l] →
    s.here.sc.line va true = some l ∧ s.here.sc.line va false = if l.constant then none else some l

/-- 04 R111, R123, 09 R273: a load of device memory that its cache does not hold reads the whole grain at its home and keeps
the line; the item is the memory bytes at the address. -/
def Sys2Proof.Claim.LoadMissReadsMemoryAndFillsTheLine : Prop :=
  ∀ (s u v : State) (p : PendLoad) (va : Word) (size cls loc : Nat) (g k q : Bool), picked s p → s.here.runner = none →
    p.kind = .mem ⟨va, size, cls⟩ g k q → bit va.toNat 63 = false → names (acquired s q) va .read loc u →
    u.here.sc.line va.toNat k = none → place loc = .dram ∨ place loc = .kv → loc % 64 = va.toNat % 64 →
    va.toNat % 64 + size ≤ 64 → 1 ≤ size →
    goesOn u (loadAccess u p (loc / 256 * 256) 256) → passes u (loc / 256 * 256) 256 v →
    v.verify (loc / 256 * 256) 256 = none →
    let l : Line := { num := va.toNat / 64, constant := k, bytes := v.bytes (loc / 64 * 64) 64 }
    let kept := v.here.sc.dcache.filter fun l => l.num != va.toNat / 64
    exec .loadReturn s = .next (arrived
      (v.setHere { v.here with sc := { v.here.sc with dcache := (l :: kept).take 1024 } }) p
      (if g then BitVec.ofInt 64 (sext (8 * size) (leNat (v.bytes loc size))) else word (leNat (v.bytes loc size))))

/-- 04 R125, R111, 09 R278, R279, 14 R413: an ST of a task retires into the request path with the low bytes of its item, to
memory and to a register alike; the cached line takes them, the store hash folds them, and the home waits for the store to
perform. In a remote function, and to another package, it performs at once (10 R318, 14 R432). A misaligned address raises
ALIGN. -/
def Sys2Proof.Claim.StoreRetiresIntoTheRequestPath : Prop :=
  (∀ (s u : State) (a v : BitVec 5) (c : BitVec 4) (sz : BitVec 2) (l : Bool) (o : BitVec 7) (x y : Word) (loc : Nat),
    s.mayIssue (.st a v c sz l o) = true → agrees s → reads s a x → reads s v y → s.here.runner = none →
    let va := effective x o.toInt sz
    let n := 2 ^ sz.toNat
    va.toNat % n = 0 → names s va .write loc u → place loc ≠ .peer → u.logRoom (u.whoOf u.cur) loc n = true →
    let bs := leBytes n y.toNat
    let p : PathItem := {
      acc := { scalarAccess u c.toNat loc n { w := true } (if l then some 3 else none) with page := u.here.pageOf va }
      who := u.whoOf u.cur
      act := .store bs none }
    let w := joined u p
    exec (.st a v c sz l o) s = .next ((w.setHere { w.here with
      sc := { w.here.sc with
        dcache := if bit va.toNat 63 then w.here.sc.dcache else w.here.sc.dcache.map (·.update va.toNat bs)
        hash := fold w.here.sc.hash 1 va (word (y.toNat % 2 ^ (8 * n))) } }).retired {}) ∧
    s.sameMemory u) ∧
  (∀ (s u w : State) (a v : BitVec 5) (c : BitVec 4) (sz : BitVec 2) (l : Bool) (o : BitVec 7) (x y : Word) (loc : Nat),
    s.mayIssue (.st a v c sz l o) = true → agrees s → reads s a x → reads s v y →
    let va := effective x o.toInt sz
    let n := 2 ^ sz.toNat
    let bs := leBytes n y.toNat
    va.toNat % n = 0 → names s va .write loc u →
    (s.here.runner.isSome = true ∧ plain loc ∧ (∃ t, passes u loc n t ∧ t.partBad loc n = none ∧ w = t.write loc bs) ∨
      s.here.runner = none ∧ clear u c.toNat loc n { w := true } (if l then some 3 else none) ∧ place loc = .peer ∧
        (writePeer loc bs 0).run u = .ok ⟨⟩ w) →
    exec (.st a v c sz l o) s = .next ((w.setHere { w.here with
      sc := { w.here.sc with
        dcache := if bit va.toNat 63 then w.here.sc.dcache else w.here.sc.dcache.map (·.update va.toNat bs)
        hash := fold w.here.sc.hash 1 va (word (y.toNat % 2 ^ (8 * n))) } }).retired {})) ∧
  ∀ (s : State) (a v : BitVec 5) (c : BitVec 4) (sz : BitVec 2) (l : Bool) (o : BitVec 7) (x y : Word),
    s.mayIssue (.st a v c sz l o) = true → reads s a x → reads s v y →
    (effective x o.toInt sz).toNat % 2 ^ sz.toNat ≠ 0 → s.parks .align →
    ∃ u, exec (.st a v c sz l o) s = .next u ∧ s.entered u .s (faulted .align (effective x o.toInt sz) 0 1 9)

/-- 09 R279, R273, 14 R417, R410: a held store that nothing before it holds performs: to memory exactly its bytes change, to
registers it writes those, it leaves the request path, and everything else of the core stands. A store in replay performs
through its order gate and no other way, and waits while the gate holds it. -/
def Sys2Proof.Claim.HeldStorePerformsItsBytes : Prop :=
  (∀ (s : State) (n : Nat) (p : PathItem) (bs : List Byte) (m : Option (BitVec 32 × Bool)),
    first s n p → p.act = .store bs m → p.acc.len = bs.length → p.who.mode = 0 →
    (plain p.acc.loc →
      ∃ t, exec (.heldAccessPerform n) s = .next t ∧ t.stalled = false ∧
        (∀ i, (h : i < bs.length) → t.byte (p.acc.loc + i) = bs[i]) ∧ changedOnly s t p.acc.loc bs.length ∧
        t.here.req.path = s.here.req.path.eraseIdx n ∧ t.here.sc = s.here.sc ∧ t.here.tiles = s.here.tiles ∧
        (∀ k, k ≠ s.cur → t.core k = s.core k)) ∧
    (place p.acc.loc = .reg →
      let u := (s.passGate s.cur p.acc.loc).storeRegs p.acc.loc bs
      let c := u.here
      exec (.heldAccessPerform n) s = .next { u.setHere
        ({ c with req := { c.req with path := s.here.req.path.eraseIdx n } } : Core).trimFences with stalled := false })) ∧
  ∀ (s : State) (n : Nat) (p : PathItem) (bs : List Byte) (m : Option (BitVec 32 × Bool)),
    first s n p → p.act = .store bs m → p.acc.len = bs.length → 1 ≤ bs.length → p.who.mode = 2 → plain p.acc.loc →
    exec (.heldAccessPerform n) s = .next { s with stalled := true } ∧
    (s.ordered p.who p.acc.loc bs.length = none → s.atGate s.cur p.acc.loc = true →
      exec (.orderGateMatch n) s = .next { s with stalled := true }) ∧
    ∀ u, s.ordered p.who p.acc.loc bs.length = some u → u.here = s.here → u.cur = s.cur →
      ∃ t, exec (.orderGateMatch n) s = .next t ∧ t.stalled = false ∧
        (∀ i, (h : i < bs.length) → t.byte (p.acc.loc + i) = bs[i]) ∧ changedOnly u t p.acc.loc bs.length ∧
        t.here.req.path = s.here.req.path.eraseIdx n

/-- 09 R285-R287, Table 88, 04 R111, R112, 14 R413: an atomic on plain memory, aligned and held by nothing, performs as one
step: its item is the old doubleword, exactly its eight bytes change and hold what Table 88 leaves (none on a failed CAS), its
line leaves the cache, and the store hash folds the old value and then the write. -/
def Sys2Proof.Claim.AtomicsReadAndWriteAsOneStep : Prop :=
  ∀ (op : AtomOp) (s u v : State) (a b c : BitVec 5) (k : BitVec 4) (o : BitVec 2) (sc : BitVec 3) (x y z : Word)
    (loc : Nat),
    let i := atomWord op a b c k o sc
    s.mayIssue i = true → agrees s → reads s a x → reads s b y → (op = .cas → reads s c z) → x.toNat % 8 = 0 →
    (s.here.sc.convOn = false ∨ s.here.runner.isSome = true) → names s x .both loc u → plain loc →
    clear u k.toNat loc 8 { r := true, w := true } (relOf o sc) → passes u loc 8 v → v.verify loc 8 = none →
    let m := v.dword loc
    let h := fold v.here.sc.hash 2 x m
    ∃ t, exec i s = .next t ∧ t.stalled = false ∧ landed t m ∧ changedOnly v t loc 8 ∧
      t.dword loc = (atomLeaves op m y z).getD m ∧
      (∀ l ∈ t.here.sc.dcache, l.num ≠ x.toNat / 64) ∧
      t.here.sc.hash = (match atomLeaves op m y z with | some w => fold h 3 x w | none => h) ∧
      t.here.sc.ctr.walk = v.here.sc.ctr.walk + 1 ∧ t.here.tiles = v.here.tiles ∧ t.host = v.host ∧
      (∀ j, j ≠ v.cur → t.core j = v.core j)

/-- 09 R285, R289, R290, 08 R257: in a convoy window an atomic with its address in order waits for its turn with nothing
performed; at its turn, with no earlier convoy word of the copy engine to come, it performs and is numbered. A misaligned
address raises ALIGN in either case. -/
def Sys2Proof.Claim.ConvoyAtomicsWaitForTheirTurn : Prop :=
  (∀ (op : AtomOp) (s u : State) (a b c : BitVec 5) (k : BitVec 4) (o : BitVec 2) (sc : BitVec 3) (x y z : Word) (loc : Nat),
    let i := atomWord op a b c k o sc
    s.mayIssue i = true → reads s a x → reads s b y → (if op = .cas then reads s c z else z = 0) → x.toNat % 8 = 0 →
    s.here.sc.convOn = true → s.here.runner = none → names s x .both loc u → plain loc →
    exec i s = .next { u.setHere { u.here with
      sc := { u.here.sc with
        pend := some {
          window := s.here.sc.win
          num := s.here.sc.convn
          op := op
          ref := ⟨x, 8, k.toNat⟩
          b := y
          c := z
          acq := o.getLsbD 0 && sc != 0
          rel := relOf o sc } } } with stalled := false }) ∧
  (∀ (s u v : State) (p : ConvoyAtom) (loc : Nat), s.here.awake = true → s.gatedBelow = false → agrees s →
    s.here.sc.arrivedBy (s.here.sc.beat + 1) = true → s.here.sc.pend = some p →
    s.convoyTurn s.cur = true → s.here.convoyBehind s.here.sc.ctr.walk = false → names s p.ref.va .both loc u →
    plain loc → clear u p.ref.cls loc 8 { r := true, w := true } p.rel → passes u loc 8 v → v.verify loc 8 = none →
    ∃ t, exec .convoyApply s = .next t ∧ t.stalled = false ∧ landed t (v.dword loc) ∧ changedOnly v t loc 8 ∧
      t.dword loc = (atomLeaves p.op (v.dword loc) p.b p.c).getD (v.dword loc) ∧ t.here.sc.pend = none ∧
      t.here.sc.convn = v.here.sc.convn + 1) ∧
  ∀ (op : AtomOp) (s : State) (a b c : BitVec 5) (k : BitVec 4) (o : BitVec 2) (sc : BitVec 3) (x y z : Word),
    s.mayIssue (atomWord op a b c k o sc) = true → reads s a x → reads s b y → (op = .cas → reads s c z) →
    x.toNat % 8 ≠ 0 → s.parks .align →
    ∃ u, exec (atomWord op a b c k o sc) s = .next u ∧ s.entered u .s (faulted .align x 0 2 9)

/-- 09 R282, R283, 04 R112: a fence retires when no access of another engine that it covers is to come within its reach, and
waits until then; while an access is to come it stands in the request path with its kinds, scope and class mask, and with R in
its successor set at a scope wider than .w it empties the ordinary lines. FENCEA covers every class; a mask of 0 or beyond
sixteen classes raises OPERAND. -/
def Sys2Proof.Claim.FencesStandWhileStoresWait : Prop :=
  let after := fun (s : State) (p q : BitVec 6) (sc : BitVec 3) (mask : BitVec 16) =>
    let c := s.here
    let f : FenceRec :=
      { walk := c.sc.ctr.walk, pred := kindsOf p, succ := kindsOf q, scope := sc.toNat, mask := mask }
    { c with
      req := { c.req with fences := (c.req.fences ++ [f]).filter fun f => f.bar.isSome || c.owes f.walk }
      sc := { c.sc with
        dcache := if q.getLsbD 5 && sc != 0 then c.sc.dcache.filter (·.constant) else c.sc.dcache } }
  let covered := fun (s : State) (p : BitVec 6) (sc : BitVec 3) (mask : BitVec 16) (x : Acc) =>
    x ∈ s.here.wordsAhead s.cur ++ s.here.copiesAhead ++ s.here.req.path.map (·.acc) ∧ x.walk < s.here.sc.ctr.walk ∧ x.eng ≠ .s ∧
      (p.getLsbD 3 && x.kinds.cr || p.getLsbD 2 && x.kinds.cw || p.getLsbD 1 && x.kinds.mr ||
        p.getLsbD 0 && x.kinds.mw) = true ∧ mask.getLsbD x.cls = true ∧
      match x.home with | some h => reaches sc.toNat s.cur h = true | none => sc ≠ 0
  (∀ (s : State) (p q : BitVec 6) (sc : BitVec 3) (m : BitVec 5) (x : Word), s.mayIssue (.fence p q sc m) = true →
    reads s m x → x ≠ 0 → x.toNat < 2 ^ 16 →
    ((∀ a, ¬ covered s p sc (x.setWidth 16) a) →
      exec (.fence p q sc m) s = .next ((s.setHere (after s p q sc (x.setWidth 16))).retired {})) ∧
    ∀ a, covered s p sc (x.setWidth 16) a → exec (.fence p q sc m) s = .next { s with stalled := true }) ∧
  (∀ (s : State) (p q : BitVec 6) (sc : BitVec 3), s.mayIssue (.fencea p q sc) = true →
    ((∀ a, ¬ covered s p sc (BitVec.allOnes 16) a) →
      exec (.fencea p q sc) s = .next ((s.setHere (after s p q sc (BitVec.allOnes 16))).retired {})) ∧
    ∀ a, covered s p sc (BitVec.allOnes 16) a → exec (.fencea p q sc) s = .next { s with stalled := true }) ∧
  ∀ (s : State) (p q : BitVec 6) (sc : BitVec 3) (m : BitVec 5) (x : Word), s.mayIssue (.fence p q sc m) = true →
    reads s m x → (x = 0 ∨ 2 ^ 16 ≤ x.toNat) → s.parks .operand →
    ∃ u, exec (.fence p q sc m) s = .next u ∧ s.entered u .s { cause := .operand }

/-- 04 R113: RINV removes the ordinary lines that overlap its range, with the constant flag the constant ones too; a length of
0 removes nothing, and nothing else changes. -/
def Sys2Proof.Claim.RinvRemovesTheLinesOfItsRange : Prop :=
  ∀ (s : State) (a b : BitVec 5) (k : Bool) (x y : Word), s.mayIssue (.rinv a b k) = true → reads s a x → reads s b y →
    ∃ lines, exec (.rinv a b k) s =
        .next ((s.setHere { s.here with sc := { s.here.sc with dcache := lines } }).retired {}) ∧
      ∀ l, l ∈ lines ↔ l ∈ s.here.sc.dcache ∧
        ¬ (0 < y.toNat ∧ (k = true ∨ l.constant = false) ∧ 64 * l.num < x.toNat + y.toNat ∧ x.toNat < 64 * l.num + 64)

/-- 07 R213-R215, 04 R97: TLOOK on the crew's tag table issues and awaits its answer. A key below 2^52 stands for its bits
[51:16]; FIND drops the slot whose entry holds it, CLAIM claims the lowest free slot where none does and reports it with bit 16,
FREE drops the lowest free slot; all ones where there is none. Only a claim changes the table. -/
def Sys2Proof.Claim.TagLookupsDropTheirSlot : Prop :=
  let tag := fun (x : Word) => BitVec.ofNat 36 (x.toNat / 2 ^ 16)
  let lowest := fun (w : Crew) (k : Nat) => k < 1024 ∧ (∀ p ∈ w.tags, p.1 ≠ k) ∧ ∀ j < k, ∃ p ∈ w.tags, p.1 = j
  let full := fun (w : Crew) => ∀ j < 1024, ∃ p ∈ w.tags, p.1 = j
  let due := fun (s u : State) (l : PendLoad) (k : LoadKind) =>
    picked s l ∧ l.kind = k ∧ goesOn s (l.acc (s.home l.loc)) ∧ passes s l.loc 1 u
  let crew := fun (u : State) => u.crew (clusterOf u.cur)
  let home := fun (s : State) => padLoc (clusterOf s.cur) 0
  (∀ (s : State) (a : BitVec 5) (c : BitVec 4) (x : Word), agrees s → reads s a x → x.toNat < 2 ^ 52 →
    (s.mayIssue (.tlookFind a c) = true →
      exec (.tlookFind a c) s = .next (awaits s c.toNat (home s) (.tagFind (tag x)))) ∧
    (s.mayIssue (.tlookClaim a c) = true →
      exec (.tlookClaim a c) s = .next (awaits s c.toNat (home s) (.tagClaim (tag x))))) ∧
  (∀ (s : State) (c : BitVec 4), agrees s → s.mayIssue (.tlookFree c) = true →
    exec (.tlookFree c) s = .next (awaits s c.toNat (home s) .tagFree)) ∧
  (∀ (s u : State) (l : PendLoad) (g : BitVec 36), due s u l (.tagFind g) →
    (∀ p rest, (crew u).tags.filter (fun p => p.2 == g) = p :: rest →
      exec .loadReturn s = .next (arrived u l (word p.1))) ∧
    ((crew u).tags.filter (fun p => p.2 == g) = [] → exec .loadReturn s = .next (arrived u l (BitVec.allOnes 64)))) ∧
  (∀ (s u : State) (l : PendLoad) (g : BitVec 36), s.pick = 0 → due s u l (.tagClaim g) →
    (∀ p rest, (crew u).tags.filter (fun p => p.2 == g) = p :: rest →
      exec .loadReturn s = .next (arrived u l (word p.1))) ∧
    (∀ k, (crew u).tags.filter (fun p => p.2 == g) = [] → lowest (crew u) k →
      exec .loadReturn s = .next (arrived
        (u.setCrew (clusterOf u.cur) { crew u with tags := (crew u).tags.put k g }) l (word (0x10000 + k)))) ∧
    ((crew u).tags.filter (fun p => p.2 == g) = [] → full (crew u) →
      exec .loadReturn s = .next (arrived u l (BitVec.allOnes 64)))) ∧
  (∀ (s u : State) (l : PendLoad), due s u l .tagFree →
    (∀ k, lowest (crew u) k → exec .loadReturn s = .next (arrived u l (word k))) ∧
    (full (crew u) → exec .loadReturn s = .next (arrived u l (BitVec.allOnes 64)))) ∧
  ∀ (s : State) (a : BitVec 5) (c : BitVec 4) (x : Word), s.mayIssue (.tlookFind a c) = true → reads s a x →
    2 ^ 52 ≤ x.toNat → s.parks .operand →
    ∃ u, exec (.tlookFind a c) s = .next u ∧ s.entered u .s { cause := .operand }

/-- 07 R216, 09 R279: TSETK and TDROP retire into the request path. When TSETK performs, its slot has the key's tag and every
other slot has lost it; when TDROP performs, its slot is free. A slot above 1,023 raises OPERAND. -/
def Sys2Proof.Claim.TagWritesSetAndFreeTheirSlot : Prop :=
  let held := fun (s : State) (c : BitVec 4) (act : HeldAct) => joined s {
    acc := scalarAccess s c.toNat (padLoc (clusterOf s.cur) 0) 0 { w := true } none, who := s.whoOf s.cur, act := act }
  let crew := fun (u : State) => u.crew (clusterOf u.cur)
  (∀ (s : State) (a b : BitVec 5) (c : BitVec 4) (x y : Word), s.mayIssue (.tsetk a b c) = true → agrees s → reads s a x →
    reads s b y → x.toNat < 1024 → y.toNat < 2 ^ 52 → s.logRoom (s.whoOf s.cur) (padLoc (clusterOf s.cur) 0) 1 = true →
    exec (.tsetk a b c) s = .next ((held s c (.tagSet x.toNat (BitVec.ofNat 36 (y.toNat / 2 ^ 16)))).retired {})) ∧
  (∀ (s : State) (a : BitVec 5) (c : BitVec 4) (x : Word), s.mayIssue (.tdrop a c) = true → agrees s → reads s a x →
    x.toNat < 1024 → s.logRoom (s.whoOf s.cur) (padLoc (clusterOf s.cur) 0) 1 = true →
    exec (.tdrop a c) s = .next ((held s c (.tagDrop x.toNat)).retired {})) ∧
  (∀ (s : State) (n : Nat) (p : PathItem), first s n p → p.who.mode = 0 →
    (∀ k g, p.act = .tagSet k g → ∃ t, exec (.heldAccessPerform n) s = .next t ∧ t.stalled = false ∧ s.sameMemory t ∧
      t.here.req.path = s.here.req.path.eraseIdx n ∧
      ∀ j h, (j, h) ∈ (crew t).tags ↔ (j = k ∧ h = g) ∨ (j ≠ k ∧ h ≠ g ∧ (j, h) ∈ (crew s).tags)) ∧
    (∀ k, p.act = .tagDrop k → ∃ t, exec (.heldAccessPerform n) s = .next t ∧ t.stalled = false ∧ s.sameMemory t ∧
      t.here.req.path = s.here.req.path.eraseIdx n ∧ ∀ q, q ∈ (crew t).tags ↔ q ∈ (crew s).tags ∧ q.1 ≠ k)) ∧
  ∀ (s : State) (a : BitVec 5) (c : BitVec 4) (x : Word), s.mayIssue (.tdrop a c) = true → reads s a x →
    1024 ≤ x.toNat → s.parks .operand →
    ∃ u, exec (.tdrop a c) s = .next u ∧ s.entered u .s { cause := .operand }

namespace Sys2Proof.Claim
open Sys2Proof.Machine

/-! ## Seals, queues, hand-offs (07) -/

/-- The matrix engine may issue word i: its turn, nothing owed to its toll bucket (06 R191), its last word done (06 R179). -/
def matrixTurn (s : State) (i : Instr) : Prop :=
  s.engineMayIssue .m i = true ∧ s.here.mat.owed = 0 ∧ s.here.mat.busy ≤ s.stamp

/-- A matrix word that leaves the engine busy for n clocks of 1.6 GHz retires (06 R179; ticks by log 8). -/
def matrixRetired (s : State) (n : Nat) : State :=
  let c := { s.here with mat := { s.here.mat with busy := s.stamp + (n + 2 - 1) / 2 } }
  (s.setHere { c with mat := c.mat.endIteration }).engineRetired .m

/-- The copy engine may issue word i, and every earlier copy word has completed: none is in flight, and nothing of one waits in
the request path (07 R232). -/
def copiesGone (s : State) : Prop := s.here.cpy.runs = [] ∧ ∀ p ∈ s.here.req.path, p.acc.run = 0
def copiesLeft (s : State) : Prop :=
  (∃ r ∈ s.here.cpy.runs, r.cls < 16) ∨ ∃ p ∈ s.here.req.path, p.acc.run ≠ 0 ∧ p.acc.cls < 16
def copyTurn (s : State) (i : Instr) : Prop := s.engineMayIssue .x i = true ∧ copiesGone s

/-- What a GIVE of engine e adds to the FIFO to t, and what a TAKE of e removes from the FIFO from t (07 R225). -/
def given (s : State) (e t : Engine) (n : Nat) : State :=
  s.setHere (s.here.setSeals e t (s.here.sealCount e t + n))
def taken (s : State) (e t : Engine) (n : Nat) : State :=
  s.setHere (s.here.setSeals t e (s.here.sealCount t e - n))

/-- The counts P and C of a queue's control block, read at its home, are p and c, and they can be (07 R217, R224). -/
def counts (s : State) (q : Handle) (p c : Nat) : Prop :=
  let loc := padLoc (clusterOf s.cur) q.ctl
  s.verify loc 16 = none ∧ (s.dword loc).toNat = p ∧ (s.dword (loc + 8)).toNat = c ∧ c ≤ p ∧ p - c ≤ geomSlots q.geom

/-- Engine e acts on a side of handle h as its owner (07 R222), and no stream holds the side (11 R351). -/
def owns (s : State) (e : Engine) (h : Nat) (q : Handle) (prod : Bool) (w : Nat) (s1 : State) : Prop :=
  (ownSide e h q.gen prod w).run s = .ok ⟨⟩ s1
def unstreamed (s : State) (q : Handle) (prod : Bool) : Prop :=
  ¬ (prod = true ∧ clusterOf s.cur = 8 ∧ ∃ x ∈ s.liveScores, ∃ y, x.2.stream = some y ∧ y.q.ctl = q.ctl)

/-- The state after an advance by n of a side (07 R220, R223): P + n or C + n stands in the control block. -/
def advanced (s : State) (q : Handle) (prod : Bool) (p c n : Nat) : State :=
  let loc := padLoc (clusterOf s.cur) q.ctl
  if prod then s.write loc (leBytes 8 (p + n)) else s.write (loc + 8) (leBytes 8 (c + n))

/-- The advance that R223 admits beside k claims. -/
def fits (q : Handle) (prod : Bool) (p c k n : Nat) : Prop :=
  if prod then n + (p + k - c) ≤ geomSlots q.geom else n + k ≤ p - c

/-- A parameter write of the current word joins the queue of engine e (02 R37). -/
def handedOff (s : State) (e : Engine) (p : Param) : State :=
  s.setHere (s.here.setParams e (s.here.params e ++ [{ walk := s.here.sc.ctr.walk, param := p }]))

/-- A GIVE of n seals by engine e finds its FIFO to t so full that they do not fit: nothing may be pushed (07 R226, R227). -/
def tooFull (s : State) (e t : Engine) (n : Nat) : Prop := 15 < s.here.sealCount e t + s.here.sealsDue e t + n

/-- The state after a GIVE: its seals stand in the FIFO, or behind the accesses of its engine that wait (09 R278). -/
def gives (s : State) (e t : Engine) (n : Nat) : State :=
  if s.here.req.path.all fun p => p.acc.eng != e then given s e t n
  else joined s { acc := { walk := (s.here.at_ e).1, eng := e }, who := s.whoOf s.cur, act := .seals t n }

end Sys2Proof.Claim

open Sys2Proof Sys2Proof.Machine Sys2Proof.Claim

/-- 07 R225-R227, 02 R49, 09 R278: a GIVE of any engine pushes its seals into the FIFO to its peer where at most 15 stand, behind
the accesses of its engine that still wait, and a TAKE pops its seals from the FIFO from its peer; each waits otherwise, and
nothing else changes. Seals held behind accesses enter the FIFO once these have performed. -/
def Sys2Proof.Claim.SealsArePushedAndPopped : Prop :=
  (∀ (s : State) (p : BitVec 2) (n : BitVec 4), s.mayIssue (.give p n) = true → agrees s →
    (¬ tooFull s .s (engineOf p) n.toNat →
      exec (.give p n) s = .next ((gives s .s (engineOf p) n.toNat).retired {})) ∧
    (tooFull s .s (engineOf p) n.toNat → exec (.give p n) s = .next { s with stalled := true })) ∧
  (∀ (s : State) (p : BitVec 2) (n : BitVec 4), s.mayIssue (.take p n) = true → agrees s →
    (n.toNat ≤ s.here.sealCount (engineOf p) .s →
      exec (.take p n) s = .next ((taken s .s (engineOf p) n.toNat).retired {})) ∧
    (s.here.sealCount (engineOf p) .s < n.toNat → exec (.take p n) s = .next { s with stalled := true })) ∧
  (∀ (s : State) (p : BitVec 2) (n : BitVec 4), s.engineMayIssue .v (.vGive p n) = true →
    (¬ tooFull s .v (engineOf p) n.toNat →
      exec (.vGive p n) s = .next ((gives s .v (engineOf p) n.toNat).engineRetired .v)) ∧
    (tooFull s .v (engineOf p) n.toNat → exec (.vGive p n) s = .next { s with stalled := true })) ∧
  (∀ (s : State) (p : BitVec 2) (n : BitVec 4), s.engineMayIssue .v (.vTake p n) = true →
    (n.toNat ≤ s.here.sealCount (engineOf p) .v →
      exec (.vTake p n) s = .next ((taken s .v (engineOf p) n.toNat).engineRetired .v)) ∧
    (s.here.sealCount (engineOf p) .v < n.toNat → exec (.vTake p n) s = .next { s with stalled := true })) ∧
  (∀ (s : State) (p : BitVec 2) (n : BitVec 4), matrixTurn s (.mGive p n) →
    (¬ tooFull s .m (engineOf p) n.toNat →
      exec (.mGive p n) s = .next (matrixRetired (gives s .m (engineOf p) n.toNat) 1)) ∧
    (tooFull s .m (engineOf p) n.toNat → exec (.mGive p n) s = .next { s with stalled := true })) ∧
  (∀ (s : State) (p : BitVec 2) (n : BitVec 4), matrixTurn s (.mTake p n) →
    (n.toNat ≤ s.here.sealCount (engineOf p) .m →
      exec (.mTake p n) s = .next (matrixRetired (taken s .m (engineOf p) n.toNat) 1)) ∧
    (s.here.sealCount (engineOf p) .m < n.toNat → exec (.mTake p n) s = .next { s with stalled := true })) ∧
  (∀ (s : State) (p : BitVec 2) (n : BitVec 4), s.engineMayIssue .x (.xGive p n) = true →
    (copiesGone s → ¬ tooFull s .x (engineOf p) n.toNat →
      exec (.xGive p n) s = .next ((gives s .x (engineOf p) n.toNat).engineRetired .x)) ∧
    (copiesLeft s ∨ tooFull s .x (engineOf p) n.toNat → exec (.xGive p n) s = .next { s with stalled := true })) ∧
  (∀ (s : State) (p : BitVec 2) (n : BitVec 4), s.engineMayIssue .x (.xTake p n) = true →
    (n.toNat ≤ s.here.sealCount (engineOf p) .x →
      exec (.xTake p n) s = .next ((taken s .x (engineOf p) n.toNat).engineRetired .x)) ∧
    (s.here.sealCount (engineOf p) .x < n.toNat → exec (.xTake p n) s = .next { s with stalled := true })) ∧
  ∀ (s : State) (n : Nat) (p : PathItem) (t : Engine) (k : Nat), s.here.req.path[n]? = some p → p.act = .seals t k →
    p.who.mode ≠ 2 →
    let c := s.here.setSeals p.acc.eng t (s.here.sealCount p.acc.eng t + k)
    ((∀ q ∈ s.here.req.path.take n, q.acc.eng ≠ p.acc.eng) → s.here.sealCount p.acc.eng t + k ≤ 15 →
      exec (.heldAccessPerform n) s = .next { s.setHere
        ({ c with req := { c.req with path := s.here.req.path.eraseIdx n } } : Core).trimFences with stalled := false }) ∧
    ((∃ q ∈ s.here.req.path.take n, q.acc.eng = p.acc.eng) →
      exec (.heldAccessPerform n) s = .next { s with stalled := true })

/-- 07 R219: QSET with INIT writes a control block of zero counts and its geometry, without INIT it finds its geometry there;
either sets the handle and hands the setting to the vector and copy engines. A control block and geometry that R219 refuses raise
OPERAND, and another geometry in memory raises QFAULT. -/
def Sys2Proof.Claim.QsetSetsItsHandle : Prop :=
  let set := fun (u : State) (h : BitVec 4) (ctl g : Word) =>
    let q : Handle := { gen := u.here.sc.ctr.walk, ctl := ctl.toNat % 2 ^ 26, geom := BitVec.ofNat 64 (g.toNat % 2 ^ 63) }
    let x : ParamWrite := { walk := u.here.sc.ctr.walk, param := .handle h.toNat q }
    u.setHere { u.here with
      handles := u.here.handles.set h.toNat (some q)
      hand := { u.here.hand with pv := u.here.hand.pv ++ [x], px := u.here.hand.px ++ [x] } }
  let ready := fun (s u : State) (a b : BitVec 5) (h : BitVec 4) (ctl g : Word) (kinds : Kinds) =>
    s.mayIssue (.qset a b h) = true ∧ agrees s ∧ reads s a ctl ∧ reads s b g ∧ geomOk ctl g = true ∧
      s.here.hand.pv.length < 32 ∧ s.here.hand.px.length < 32 ∧
      clear s 0 (padLoc (clusterOf s.cur) (ctl.toNat % 2 ^ 26)) 64 kinds none ∧
      passes s (padLoc (clusterOf s.cur) (ctl.toNat % 2 ^ 26)) 64 u ∧ u.here = s.here ∧ u.cur = s.cur
  (∀ (s u : State) (a b : BitVec 5) (h : BitVec 4) (ctl g : Word), ready s u a b h ctl g { w := true } →
    2 ^ 63 ≤ g.toNat → u.partBad (padLoc (clusterOf s.cur) (ctl.toNat % 2 ^ 26)) 64 = none →
    let loc := padLoc (clusterOf s.cur) (ctl.toNat % 2 ^ 26)
    let v := u.write loc (leBytes 16 0 ++ leBytes 8 (g.toNat - 2 ^ 63) ++ leBytes 40 0)
    exec (.qset a b h) s = .next ((set v h ctl g).retired {})) ∧
  (∀ (s u : State) (a b : BitVec 5) (h : BitVec 4) (ctl g : Word), ready s u a b h ctl g { r := true } →
    g.toNat < 2 ^ 63 →
    let loc := padLoc (clusterOf s.cur) (ctl.toNat % 2 ^ 26)
    u.verify (loc + 16) 8 = none →
    (u.dword (loc + 16) = g → g ≠ 0 → exec (.qset a b h) s = .next ((set u h ctl g).retired {})) ∧
    (u.dword (loc + 16) ≠ g ∨ g = 0 → s.parks .qfault →
      ∃ t, exec (.qset a b h) s = .next t ∧ s.entered t .s { cause := .qfault })) ∧
  ∀ (s : State) (a b : BitVec 5) (h : BitVec 4) (ctl g : Word), s.mayIssue (.qset a b h) = true → reads s a ctl →
    reads s b g → geomOk ctl g = false → s.parks .operand →
    ∃ t, exec (.qset a b h) s = .next t ∧ s.entered t .s { cause := .operand }

/-- 07 R220, R222, R223, R224, R245: QADV issues and waits for its advance to be applied; it and X.QADV advance their side's count
by n, in the eight bytes of that count alone, where n slots are free or filled beside the worker's claims; QADV of 0 does
nothing; too many raise QFAULT. -/
def Sys2Proof.Claim.QueueAdvancesMoveOneCount : Prop :=
  (∀ (s s1 : State) (a : BitVec 5) (sd : Bool) (h : BitVec 4) (x : Word) (q : Handle),
    s.mayIssue (.qadv a sd h) = true → agrees s → reads s a x → s.here.handles.getD h.toNat none = some q → x ≠ 0 →
    x.toNat ≤ 4096 → owns s .s h.toNat q sd s.here.sc.ctr.walk s1 →
    let l : PendLoad := {
      walk := s.here.sc.ctr.walk, due := s.here.sc.beat + 4, cls := 0, loc := padLoc (clusterOf s.cur) q.ctl
      kind := .advance h.toNat q sd x.toNat
      back := {
        ctr := s.here.sc.ctr, strand := s.here.sc.strand, flight := s.here.sc.flight, beat := s.here.sc.beat
        targets := s.here.sc.targets, landing := s.here.sc.landing } }
    exec (.qadv a sd h) s = .next ((s1.setHere { s1.here with sc := { s1.here.sc with loads := s1.here.sc.loads ++ [l] } }).retired
      {})) ∧
  (∀ (s u : State) (l : PendLoad) (sd : Bool) (h n p c : Nat) (q : Handle), picked s l → s.pick = 0 →
    l.kind = .advance h q sd n → s.here.runner = none → s.held s.cur (l.acc (s.home l.loc)) = false → passes s l.loc 1 u →
    unstreamed u q sd → counts u q p c →
    (fits q sd p c (u.here.claims h q.gen sd) n → exec .loadReturn s = .next (arrived (advanced u q sd p c n) l 0)) ∧
    (¬ fits q sd p c (u.here.claims h q.gen sd) n →
      exec .loadReturn s =
        .next { ({ s with fresh := u.fresh }.takeTrap s.cur .s (s.here.at_ .s) { cause := .qfault }) with stalled := false })) ∧
  (∀ (s : State) (a : BitVec 5) (sd : Bool) (h : BitVec 4) (q : Handle), s.mayIssue (.qadv a sd h) = true → agrees s →
    reads s a 0 → s.here.handles.getD h.toNat none = some q → exec (.qadv a sd h) s = .next (s.retired {})) ∧
  ∀ (s s1 u : State) (h : BitVec 4) (sd : Bool) (n : BitVec 13) (q : Handle) (p c : Nat),
    copyTurn s (.xQadv h sd n) → s.here.cpy.handles.getD h.toNat none = some q →
    owns s .x h.toNat q sd (s.here.at_ .x).1 s1 →
    s1.held s1.cur {
      walk := (s.here.at_ .x).1, eng := .x, cls := 0, loc := padLoc (clusterOf s.cur) q.ctl, len := 64, kinds := { cw := true }
      home := some (s1.home (padLoc (clusterOf s.cur) q.ctl)) } = false →
    passes s1 (padLoc (clusterOf s.cur) q.ctl) 1 u → unstreamed u q sd → counts u q p c →
    (fits q sd p c (u.here.claims h.toNat q.gen sd) n.toNat →
      exec (.xQadv h sd n) s = .next ((advanced u q sd p c n.toNat).engineRetired .x)) ∧
    (¬ fits q sd p c (u.here.claims h.toNat q.gen sd) n.toNat → s.parks .qfault →
      ∃ t, exec (.xQadv h sd n) s = .next t ∧ s.entered t .x { cause := .qfault })

/-- 07 R223, R224, R218: QWAIT goes on once n slots are free, or filled, beside the worker's claims, and waits until then;
QINFO drops the side's count, the filled and the free slots; an unset handle raises QFAULT. -/
def Sys2Proof.Claim.QueueReadsSeeTheCounts : Prop :=
  (∀ (s u : State) (a : BitVec 5) (sd : Bool) (h : BitVec 4) (x : Word) (q : Handle) (p c : Nat),
    s.mayIssue (.qwait a sd h) = true → agrees s → reads s a x → s.here.handles.getD h.toNat none = some q → x ≠ 0 →
    x.toNat ≤ geomSlots q.geom → clear s 0 (padLoc (clusterOf s.cur) q.ctl) 64 { r := true } none →
    passes s (padLoc (clusterOf s.cur) q.ctl) 1 u → counts u q p c →
    let k := s.here.claims h.toNat q.gen sd
    let there := if sd then p + k + x.toNat ≤ c + geomSlots q.geom else c + k + x.toNat ≤ p
    (there → exec (.qwait a sd h) s = .next (u.retired {})) ∧
    (¬ there → exec (.qwait a sd h) s = .next { s with stalled := true })) ∧
  (∀ (s u : State) (sd : Bool) (h : BitVec 4) (q : Handle) (p c : Nat), s.mayIssue (.qinfo sd h) = true → agrees s →
    s.here.handles.getD h.toNat none = some q → clear s 0 (padLoc (clusterOf s.cur) q.ctl) 64 { r := true } none →
    passes s (padLoc (clusterOf s.cur) q.ctl) 1 u → counts u q p c →
    ∃ v : Word, exec (.qinfo sd h) s = .next (u.retired { lat := 1, items := [v] }) ∧
      fld v.toNat 32 32 = (if sd then p else c) % 2 ^ 32 ∧ fld v.toNat 16 13 = p - c ∧ fld v.toNat 29 3 = 0 ∧
      fld v.toNat 0 13 = geomSlots q.geom - (p - c) ∧ fld v.toNat 13 3 = 0) ∧
  ∀ (s : State) (sd : Bool) (h : BitVec 4), s.mayIssue (.qinfo sd h) = true → s.here.handles.getD h.toNat none = none →
    s.parks .qfault → ∃ t, exec (.qinfo sd h) s = .next t ∧ s.entered t .s { cause := .qfault }

/-- 07 R228, 02 R37, 06 R185: PRMW hands its word to the engine of its block with its walk index, FMTQ and STMPQ append
theirs to the format and stamp queues; each waits where its queue is full, and nothing else changes. -/
def Sys2Proof.Claim.HandOffsJoinTheirQueue : Prop :=
  (∀ (s : State) (a : BitVec 5) (f : BitVec 6) (i : BitVec 8) (x : Word), s.mayIssue (.prmw a f i) = true → agrees s →
    reads s a x →
    let b := f.toNat
    let done := fun (e : Engine) (p : Param) => (s.here.params e).length < 32 →
      exec (.prmw a f i) s = .next ((handedOff s e p).retired {})
    let full := fun (e : Engine) => 32 ≤ (s.here.params e).length → exec (.prmw a f i) s = .next { s with stalled := true }
    (b < 8 → done .v (.loopWord b i.toNat x) ∧ full .v) ∧
    (8 ≤ b → b < 16 → done .m (.loopWord (b - 8) i.toNat x) ∧ full .m) ∧
    (16 ≤ b → b < 24 → done .x (.loopWord (b - 16) i.toNat x) ∧ full .x) ∧
    (24 ≤ b → b < 40 → done .x (.descWord (b - 24) i.toNat x) ∧ full .x) ∧
    (b = 40 → done .v (.portWord i.toNat x) ∧ full .v)) ∧
  (∀ (s : State) (a : BitVec 5) (x : Word), s.mayIssue (.fmtq a) = true → agrees s → reads s a x →
    let c := s.here
    (c.hand.fmtq.length < 64 →
      exec (.fmtq a) s = .next ((s.setHere { c with
        hand := { c.hand with fmtq := c.hand.fmtq ++ [⟨c.sc.ctr.walk, x⟩] } }).retired {})) ∧
    (64 ≤ c.hand.fmtq.length → exec (.fmtq a) s = .next { s with stalled := true })) ∧
  ∀ (s : State) (a : BitVec 5) (x : Word), s.mayIssue (.stmpq a) = true → agrees s → reads s a x →
    let c := s.here
    (c.hand.stampq.length < 64 →
      exec (.stmpq a) s = .next ((s.setHere { c with
        hand := { c.hand with stampq := c.hand.stampq ++ [⟨c.sc.ctr.walk, x⟩] } }).retired {})) ∧
    (64 ≤ c.hand.stampq.length → exec (.stmpq a) s = .next { s with stalled := true })

namespace Sys2Proof.Claim
open Sys2Proof.Machine

/-! ## Tasks, launches, serais, barriers, traps (12) -/

/-- No access of the worker before the counter in a class of the mask is still to perform at a home of this package (12 R375). -/
def performed (s : State) (mask : Nat) : Prop :=
  ∀ a ∈ s.pending s.cur, a.walk < s.here.sc.ctr.walk → bit mask a.cls = true → ∃ h, a.home = some h ∧ h.die = none

/-- Entry e is the lowest free one of die d's scoreboard, which is not full (12 R363). -/
def lowestFree (s : State) (d e : Nat) : Prop :=
  s.inUse d < 4096 ∧ ∃ i < 4096, e = d * 4096 + i ∧ (s.score e).st = .free ∧ ∀ j < i, (s.score (d * 4096 + j)).st ≠ .free

/-- Waybill w stands in entry e as launched (12 R363, R369): waiting for its DEPS, or HELD without any; its handle names the
launch by die, entry and the SEQ that the entry now has. -/
def entered' (s t : State) (d e : Nat) (w : Waybill) (handle : Word) : Prop :=
  let c := t.score e
  c.wb = w ∧ c.deps = w.deps ∧ c.st = (if w.deps = 0 then .held else .waiting) ∧ c.insts = [] ∧ c.killed = none ∧
    c.since = s.stamp ∧ handle = word ((s.score e).seq * 2 ^ 16 + d * 2 ^ 14 + (e - d * 4096)) ∧
    ∀ j, j ≠ e → t.score j = s.score j

/-- A barrier's participant has arrived at its n-th barrier of a kind (12 R378): it has ended, it has passed it, or it runs
and stands there. -/
def there (s : State) (kind n : Nat) (r : TaskRec) : Prop :=
  r.ended = true ∨ n < r.bars kind ∨
    ((s.core r.core).run = .running ∧ r.bars kind = n ∧ (s.core r.core).sc.barrier = some kind)

/-- Two tasks of a span share a barrier of a kind: of one crew, of the span, of one stage (12 R378). -/
def share (kind : Nat) (a b : TaskRec) : Prop := kind = 0 ∧ a.cluster = b.cluster ∨ kind = 1 ∨ kind = 2 ∧ a.stage = b.stage

/-- The action entry of the current task's context for a cause is well formed and asks for action n (12 R381). -/
def answers (s : State) (c : Cause) (n : Nat) : Prop :=
  let a := s.actionEntry s.here.job.ctx c.code
  fld a 62 2 = n ∧ fld a 56 6 = 0 ∧ fld a 44 4 = 0 ∧ fld a 0 32 = 0 ∧ s.here.runner = none ∧
    (s.core (runnerKey s.cur)).runner = none ∧ s.here.job.recmode ≠ 1

/-- Instance i of entry e has ended for a cause (12 R381): core k of its is free, the entry has lost it, and while other
instances are left the waybill is marked as killed. -/
def instEnded (s t : State) (k e : Nat) (i : Inst) (why : Cause) : Prop :=
  t.stalled = false ∧ (t.core k).run = .idle ∧ (∀ x ∈ (t.score e).insts, x.id ≠ i.id) ∧
    ((∃ x ∈ (s.score e).insts, x.id ≠ i.id) → (t.score e).killed = some ((s.score e).killed.getD why))

/-- PARK answers a cause, whether the task is recorded or not (12 R381); and the task stands parked at its word. -/
def parksAlways (s : State) (c : Cause) : Prop :=
  fld (s.actionEntry s.here.job.ctx c.code) 62 2 = 2 ∧ s.here.runner = none ∧ (s.core (runnerKey s.cur)).runner = none ∧
    s.here.sc.loads = []
def halted (s t : State) (c : Cause) : Prop :=
  t.stalled = false ∧ t.here.run = .parked ∧ t.here.stop.cause = c ∧ fld t.here.sc.f.cause.toNat 8 6 = c.code ∧
    t.here.sc.ctr = s.here.sc.ctr ∧ t.here.sc.strand = s.here.sc.strand

end Sys2Proof.Claim

open Sys2Proof Sys2Proof.Machine Sys2Proof.Claim

/-- 12 R368: WAIT.tick goes on at the first tick that its operand names or passes, WAIT.serai once the ring of an unbound serai
of the context holds a message; each waits until then. A bound serai, and a number not of the context, raise OPERAND. -/
def Sys2Proof.Claim.WaitsEndAtTheirTickOrMessage : Prop :=
  (∀ (s : State) (a : BitVec 5) (x : Word), s.mayIssue (.waitTick a) = true → reads s a x →
    (x.toNat ≤ s.stamp → exec (.waitTick a) s = .next (s.retired {})) ∧
    (s.stamp < x.toNat → exec (.waitTick a) s = .next { s with stalled := true })) ∧
  (∀ (s u v : State) (a : BitVec 5) (n : Word) (loc : Nat), s.mayIssue (.waitSerai a) = true → reads s a n →
    n.toNat < 4096 → (s.serai n.toNat).ctx = some s.here.job.ctx → (s.serai n.toNat).bound = none →
    names s (s.serai n.toNat).ring .read loc u → clear u 0 loc 16 { r := true } none → passes u loc 16 v → plain loc →
    v.verify loc 16 = none →
    ((v.dword (loc + 8)).toNat < (v.dword loc).toNat → exec (.waitSerai a) s = .next ((v.setHere { v.here with
      sc := { v.here.sc with dcache := v.here.sc.dcache.filter (·.constant) } }).retired {})) ∧
    ((v.dword loc).toNat ≤ (v.dword (loc + 8)).toNat → exec (.waitSerai a) s = .next { s with stalled := true })) ∧
  ∀ (s : State) (a : BitVec 5) (n : Word), s.mayIssue (.waitSerai a) = true → reads s a n →
    (4096 ≤ n.toNat ∨ (s.serai n.toNat).ctx ≠ some s.here.job.ctx ∨ (s.serai n.toNat).bound.isSome = true) →
    s.parks .operand → ∃ t, exec (.waitSerai a) s = .next t ∧ s.entered t .s { cause := .operand }

/-- 12 R378, 09 R288, Table 86: a BAR passes once every participant of its kind has arrived, and counts; otherwise its worker
stands at the barrier and the counter stays. What it has passed holds later accesses behind the earlier ones of every
participant. A core without an instance is its own span. BAR.span begins the next convoy window. -/
def Sys2Proof.Claim.BarriersPassWhenAllHaveArrived : Prop :=
  let left := fun (s : State) (kind n : Nat) (c : Core) => ∃ fs f,
    (∀ g ∈ fs, g = f ∨ g ∈ s.here.req.fences) ∧ f ∈ fs ∧ f.walk = s.here.sc.ctr.walk ∧ f.bar = some (kind, n) ∧
      f.mask = BitVec.allOnes 16 ∧ f.pred = ⟨true, true, true, true, true, true⟩ ∧ f.succ = f.pred ∧
      let d := { s.here with sc := { s.here.sc with barrier := none }, req := { s.here.req with fences := fs } }
      c = if kind = 1 then
        { d with sc := { d.sc with win := d.sc.win + 1, convn := 0, convOn := d.sc.k.convoy } } else d
  ∀ (s : State) (kind : Nat) (i : Instr), (kind, i) ∈ [(0, Instr.barCrew), (1, .barSpan), (2, .barStage)] →
    s.mayIssue i = true →
    (s.instOf s.cur = none → ∃ c, left s kind 0 c ∧ exec i s = .next ((s.setHere c).retired {})) ∧
    ∀ (e : Nat) (inst : Inst) (me : TaskRec), s.instOf s.cur = some (e, inst) →
      inst.tasks.find? (fun t => t.core == s.cur) = some me →
      let all := ∀ r ∈ inst.tasks, r.core ≠ s.cur → share kind me r → there s kind (me.bars kind) r
      (all → ∃ t c, exec i s = .next t ∧ t.stalled = false ∧ left s kind (me.bars kind) c ∧
        t.here = c.scalarDone s.stamp {} ∧
        ∃ x ∈ (t.score e).insts, x.id = inst.id ∧ ∃ r ∈ x.tasks, r.core = s.cur ∧ r.bars kind = me.bars kind + 1) ∧
      (¬ all → s.here.sc.barrier ≠ some kind → ∃ t, exec i s = .next t ∧ t.stalled = false ∧
        t.here = { s.here with sc := { s.here.sc with barrier := some kind } }) ∧
      (¬ all → s.here.sc.barrier = some kind → exec i s = .next { s with stalled := true })

/-- 12 R361, R363, R369: TLAUNCH of a kernel or stream waybill that reads well enters it in the lowest free entry of its
die's scoreboard, WAITING for its DEPS or HELD, and drops the handle of that launch; it waits where the scoreboard is full. -/
def Sys2Proof.Claim.LaunchEntersTheWaybill : Prop :=
  (∀ (s u : State) (a : BitVec 5) (x : Word) (w : Waybill) (e : Nat), s.mayIssue (.tlaunch a) = true → agrees s →
    reads s a x → (readWaybill x fun k => k == 0 || k == 2).run s = .ok w u → u.sched.electing = false →
    u.distHeld (u.homeDie w u.cur) = false → w.fencedOut u.sched.fenced = false → lowestFree u (u.homeDie w u.cur) e →
    ∃ t h, exec (.tlaunch a) s = .next t ∧ t.stalled = false ∧ entered' u t (u.homeDie w u.cur) e w h ∧ landed t h ∧
      t.here.sc.launches = u.here.sc.launches + 1 ∧ t.here.sc.ctr.walk = u.here.sc.ctr.walk + 1 ∧ u.sameMemory t ∧
      ∀ k, k ≠ u.cur → t.core k = u.core k) ∧
  (∀ (s u : State) (a : BitVec 5) (x : Word) (w : Waybill), s.mayIssue (.tlaunch a) = true → reads s a x →
    (readWaybill x fun k => k == 0 || k == 2).run s = .ok w u → 4096 ≤ u.inUse (u.homeDie w u.cur) →
    exec (.tlaunch a) s = .next { s with stalled := true }) ∧
  ∀ (s : State) (a : BitVec 5) (x : Word), s.mayIssue (.tlaunch a) = true → reads s a x → x.toNat % 128 ≠ 0 →
    s.parks .align → ∃ t, exec (.tlaunch a) s = .next t ∧ s.entered t .s (faulted .align x 0 0 9)

/-- 12 R364-R366: SREG gives the lowest free serai to the context with the descriptor's ring, its header zeroed, and drops its
number, or all ones where none is free. SBIND binds the handler waybill it reads, or unbinds for the address 0. SPOST writes
its payload into the slot of the next message with its head words and moves PROD on by one; into a full ring it waits. -/
def Sys2Proof.Claim.SeraiWordsRegisterBindAndPost : Prop :=
  (∀ (s u : State) (a : BitVec 5) (x : Word) (bs : List Byte), s.mayIssue (.sreg a) = true → agrees s → reads s a x →
    x.toNat % 64 = 0 → (readVa x 64).run s = .ok bs u →
    let ring := word (leNat (bs.take 8))
    let q := leNat ((bs.drop 8).take 8)
    fld q 48 16 = 0 → fld q 1 35 = 0 → leNat ((bs.drop 16).take 48) = 0 → ring.toNat % 256 = 0 → isPad ring = false →
    u.mapped u.here.job.ctx ring.toNat (256 + 128 * (fld q 36 12 + 1)) .both = true →
    ((∀ n < 4096, (u.serai n).ctx ≠ none) →
      exec (.sreg a) s = .next (u.retired { lat := 1, items := [BitVec.allOnes 64] })) ∧
    ∀ (n loc : Nat) (v w : State), n < 4096 → (u.serai n).ctx = none → (∀ j < n, (u.serai j).ctx ≠ none) →
      names u ring .write loc v → clear v 0 loc 16 { w := true } none → passes v loc 16 w → plain loc →
      w.partBad loc 16 = none →
      exec (.sreg a) s = .next (((w.write loc (leBytes 16 0)).setSerai n
        { ctx := some u.here.job.ctx, ring := ring, slots := fld q 36 12, hostOk := bit q 0 }).retired
          { lat := 1, items := [word n] })) ∧
  (∀ (s : State) (a b : BitVec 5) (n y : Word), s.mayIssue (.sbind a b) = true → agrees s → reads s a n → reads s b y →
    n.toNat < 4096 → (s.serai n.toNat).ctx = some s.here.job.ctx →
    (y = 0 → exec (.sbind a b) s =
      .next ((s.setSerai n.toNat { (s.serai n.toNat) with bound := none }).retired {})) ∧
    ∀ (w : Waybill) (u : State), y ≠ 0 → (readWaybill y fun k => k == 3).run s = .ok w u →
      exec (.sbind a b) s = .next ((u.setSerai n.toNat { (u.serai n.toNat) with bound := some w }).retired {})) ∧
  ∀ (s u v w : State) (a b : BitVec 5) (k : BitVec 4) (n y : Word) (bs : List Byte) (head : Nat),
    s.mayIssue (.spost a b k) = true → agrees s → reads s a n → reads s b y → n.toNat < 4096 →
    (s.serai n.toNat).ctx = some s.here.job.ctx → y.toNat % 8 = 0 → (readVa y (8 * k.toNat)).run s = .ok bs u →
    let q := u.serai n.toNat
    names u q.ring .both head v → clear v 0 head 16 { r := true, w := true } (some 3) → passes v head 16 w → plain head →
    w.verify head 16 = none →
    let p := (w.dword head).toNat
    let c := (w.dword (head + 8)).toNat
    (q.slots + 1 ≤ p - c → exec (.spost a b k) s = .next { s with stalled := true }) ∧
    ∀ (x z : State) (slot : Nat), p - c < q.slots + 1 →
      names w (word (q.ring.toNat + 256 + 128 * (p % (q.slots + 1)))) .write slot x →
      clear x 0 slot 128 { w := true } (some 3) → passes x slot 128 z → plain slot → z.partBad slot 128 = none →
      slot + 128 ≤ head ∨ head + 8 ≤ slot →
      ∃ t, exec (.spost a b k) s = .next t ∧ t.stalled = false ∧ t.dword slot = word (k.toNat * 2 ^ 52) ∧
        t.dword (slot + 8) = word p ∧ t.bytes (slot + 16) (8 * k.toNat) = bs ∧
        (∀ j, slot + 16 + 8 * k.toNat ≤ j → j < slot + 128 → t.byte j = 0) ∧ t.dword head = word (p + 1) ∧
        ∀ j, (j < slot ∨ slot + 128 ≤ j) → (j < head ∨ head + 8 ≤ j) → t.byte j = z.byte j

/-- 12 R374-R376, R386: TRIG with its classes performed marks the task, and credits the successors once every task of every
instance has issued TRIG or ended; a second TRIG does nothing. TEXIT stops the counter, lands what flies and joins the walk.
TYIELD retires; where the head of the selection may take its clusters, its instance is checkpointed after the word. -/
def Sys2Proof.Claim.TaskWordsReleaseEndAndYield : Prop :=
  (∀ (s : State) (a : BitVec 5) (x : Word), s.mayIssue (.trig a) = true → agrees s → reads s a x → x ≠ 0 →
    x.toNat < 2 ^ 16 →
    (s.here.sc.trig = true → exec (.trig a) s = .next (s.retired {})) ∧
    (s.here.sc.trig = false → performed s x.toNat →
      let u := (s.setHere { s.here with sc := { s.here.sc with trig := true } }).mapTask s.cur fun t => { t with trig := true }
      (s.instOf s.cur = none → exec (.trig a) s = .next (u.retired {})) ∧
      ∀ e i, s.instOf s.cur = some (e, i) →
        let c := u.score e
        let all := c.killed = none ∧ c.again = [] ∧ c.wb.instances ≤ c.next ∧
          ∀ j ∈ c.insts, ∀ t ∈ j.tasks, t.trig = true ∨ t.ended = true
        (all → exec (.trig a) s = .next ((u.creditAll e).retired {})) ∧
        (¬ all → exec (.trig a) s = .next (u.retired {})))) ∧
  (∀ (s : State), s.mayIssue .texit = true → agrees s →
    (s.here.job.recmode ≠ 2 ∨ s.records.released = true ∨ s.nextMark = none) →
    exec .texit s = .next ((s.setHere { s.here with
      hand := { s.here.hand with trail := s.here.hand.trail ++ [(s.here.sc.ctr.walk, .texit)] } }).retired { stop := true })) ∧
  (∀ (s : State), s.mayIssue .texit = true → s.here.job.recmode = 2 → s.records.released = false → s.nextMark ≠ none →
    s.parks .diverge → ∃ t, exec .texit s = .next t ∧ s.entered t .s { cause := .diverge }) ∧
  ∀ (s : State), s.mayIssue .tyield = true →
    (s.yields = none → exec .tyield s = .next (s.retired {})) ∧
    ∀ e i r, s.yields = some (e, i) → s.anyCall i = false → r ∈ i.tasks → r.core = s.cur → r.ended = false →
      ∃ t, exec .tyield s = .next t ∧ t.stalled = false ∧ (∀ c ∈ i.clusters, t.vacant c = true) ∧ t.here.run = .idle ∧
        ∃ j ∈ (t.score e).insts, j.id = i.id ∧ ∃ cores crews, j.saved = some (cores, crews) ∧
          (s.cur, (s.here.scalarDone s.stamp {}).cutState) ∈ cores

/-- 14 R415, R409, R408: LMARK of a value below 2^32 writes a MARK record with the worker, its task, the value and the store
hash in record mode, consumes an equal one in replay, and does nothing else; a different one, or none, raises DIVERGE, a ring
without room LOGFULL, a larger value OPERAND. -/
def Sys2Proof.Claim.LmarkWritesOrMatchesItsRecord : Prop :=
  ∀ (s : State) (a : BitVec 5) (x : Word), s.mayIssue (.lmark a) = true → agrees s → reads s a x →
    let c := s.here
    let d := dieOf s.cur
    (2 ^ 32 ≤ x.toNat → s.parks .operand →
      ∃ t, exec (.lmark a) s = .next t ∧ s.entered t .s { cause := .operand }) ∧
    (x.toNat < 2 ^ 32 →
      (c.job.recmode = 0 ∨ c.job.recmode = 2 ∧ s.records.released = true → exec (.lmark a) s = .next (s.retired {})) ∧
      (c.job.recmode = 1 → s.distHeld d = false → 3 ≤ (s.ring (137 + d)).room →
        exec (.lmark a) s = .next ((s.dispatch d 6
          [word (s.cur * 2 ^ 55 + c.job.tseq * 2 ^ 35 + x.toNat), c.sc.hash]).retired {})) ∧
      (c.job.recmode = 1 → s.distHeld d = true ∨ (s.ring (137 + d)).room < 3 → parksAlways s .logfull →
        ∃ t, exec (.lmark a) s = .next t ∧ halted s t .logfull) ∧
      (c.job.recmode = 2 → s.records.released = false → ∀ k ty b, s.nextMark = some (k, ty, b) →
        (fld (b.getD 0 0).toNat 0 32 = x.toNat ∧ b.getD 1 0 = c.sc.hash →
          exec (.lmark a) s = .next ((s.takeRecord d k).retired {})) ∧
        (¬ (fld (b.getD 0 0).toNat 0 32 = x.toNat ∧ b.getD 1 0 = c.sc.hash) → s.parks .diverge →
          ∃ t, exec (.lmark a) s = .next t ∧ s.entered t .s { cause := .diverge })) ∧
      (c.job.recmode = 2 → s.records.released = false → s.nextMark = none → s.parks .diverge →
        ∃ t, exec (.lmark a) s = .next t ∧ s.entered t .s { cause := .diverge }))

/-- 12 R380-R383, 02 R58: TRAP retires and its task stops with SWTRAP and the code at the word: under PARK it stands parked,
under REPLAY within the limit it runs on behind the word, under FORWARD to a serai of the context its cut header is posted,
under KILL its instance ends, and its core is free. ILL and every refused word of the scalar engine stop their task before them. -/
def Sys2Proof.Claim.TrapStopsTheTaskAndTheTableDecides : Prop :=
  (∀ (s : State) (i : BitVec 16), s.mayIssue (.trap i) = true → s.parks .swtrap →
    ∃ t, exec (.trap i) s = .next t ∧ (s.retired {}).enteredAt t .s (s.here.at_ .s) { cause := .swtrap, code := i.toNat }) ∧
  (∀ (s : State) (i : BitVec 16), s.mayIssue (.trap i) = true → answers s .swtrap 1 →
    let retry := if s.here.stop.cause = .swtrap ∧ s.here.stop.walk = s.here.sc.ctr.walk then s.here.stop.retry + 1 else 1
    retry ≤ fld (s.actionEntry s.here.job.ctx Cause.swtrap.code) 48 8 →
    ∃ t, exec (.trap i) s = .next t ∧ t.stalled = false ∧ t.here.run = .running ∧
      t.here.sc.ctr.walk = s.here.sc.ctr.walk + 1 ∧ t.here.stop.retry = retry ∧
      fld t.here.sc.f.cause.toNat 24 8 = retry % 256 ∧ fld t.here.sc.f.cause.toNat 32 16 = i.toNat) ∧
  (∀ (s : State) (i : BitVec 16), s.mayIssue (.trap i) = true → answers s .swtrap 3 →
    let n := fld (s.actionEntry s.here.job.ctx Cause.swtrap.code) 32 12
    (s.serai n).ctx = some s.here.job.ctx → s.sched.posts.length < 16384 → s.sched.sources = [] →
    ∃ t, exec (.trap i) s = .next t ∧ t.here.run = .parked ∧ t.sched.posts = s.sched.posts ++
      [{ serai := n, source := 4, payload := t.here.stop.header }]) ∧
  (∀ (s : State) (i : BitVec 16), s.mayIssue (.trap i) = true → answers s .swtrap 0 → s.instOf s.cur = none →
    ∃ t, exec (.trap i) s = .next t ∧ t.stalled = false ∧ t.here.run = .idle) ∧
  (∀ (s : State) (i : BitVec 16) (e : Nat) (inst : Inst), s.mayIssue (.trap i) = true → answers s .swtrap 0 →
    s.instOf s.cur = some (e, inst) → inst.saved = none → (∃ r ∈ inst.tasks, r.core = s.cur) →
    ∃ t, exec (.trap i) s = .next t ∧ instEnded s t s.cur e inst .swtrap) ∧
  (∀ (s : State) (x : BitVec 24), s.mayIssue (.ill x) = true → s.parks .illword →
    ∃ t, exec (.ill x) s = .next t ∧ s.entered t .s { cause := .illword }) ∧
  ∀ (s : State) (w : BitVec 32) (c : Cause), s.scalarTurn = true → s.here.runner = none → s.here.sc.landing = false →
    w.extractLsb' 30 2 = 0 → (decode w = .illword ∧ c = .illword ∨ decode w = .resbits ∧ c = .resbits) → s.parks c →
    ∃ t, exec (.refusedWord w) s = .next t ∧ s.entered t .s { cause := c }

/-- 12 R384, R381, R379: TRET of a handler with the header of a task parked in its context retires once its accesses have
performed, and RESUME decides: at 0 that task runs on from its cut with empty caches, at 1 its instance ends and its core is free. Outside
a handler it raises TRETCTX, with a reserved bit set RESBITS, with a header of no parked task OPERAND. -/
def Sys2Proof.Claim.TretResumesOrEndsTheParkedTask : Prop :=
  let read := fun (s u : State) (a : BitVec 5) (bs : List Byte) => ∃ x, reads s a x ∧ s.mayIssue (.tret a) = true ∧
    s.here.job.handler = true ∧ x.toNat % 8 = 0 ∧ (readVa x 64).run s = .ok bs u
  let clean := fun (d : Nat) => fld d 48 16 = 0 ∧ fld d 16 8 = 0 ∧ fld d 2 6 = 0
  (∀ (s u : State) (a : BitVec 5) (bs : List Byte) (k : Nat) (b : Bool), read s u a bs → agrees s →
    let d := leNat (bs.take 8)
    clean d → s.parkedBy (wordsOf bs 8) s.here.job.ctx = (some k, b) → performed u 0xFFFF → k ≠ u.cur →
    (fld d 0 2 = 0 → ∃ t, exec (.tret a) s = .next t ∧ t.stalled = false ∧ t.here = u.here.scalarDone u.stamp {} ∧
      let p := (u.core k).staleText
      t.core k = { p with
        run := .running
        lastIssue := u.stamp
        sc := { p.sc with dcache := [] }
        mat := { p.mat with release :=
          p.mat.release || p.stop.cause == .schedmiss && fld (p.stop.header.getD 0 0).toNat 14 2 == 2 } }) ∧
    (fld d 0 2 = 1 → u.instOf k = none → ∃ t, exec (.tret a) s = .next t ∧ t.stalled = false ∧ (t.core k).run = .idle) ∧
    ∀ e inst, fld d 0 2 = 1 → u.instOf k = some (e, inst) → inst.saved = none → (∃ r ∈ inst.tasks, r.core = k) →
      (u.core k).run ≠ .idle → ∃ t, exec (.tret a) s = .next t ∧ instEnded u t k e inst (u.core k).stop.cause) ∧
  (∀ (s : State) (a : BitVec 5), s.mayIssue (.tret a) = true → s.here.job.handler = false → s.parks .tretctx →
    ∃ t, exec (.tret a) s = .next t ∧ s.entered t .s { cause := .tretctx }) ∧
  (∀ (s u : State) (a : BitVec 5) (bs : List Byte), read s u a bs → ¬ clean (leNat (bs.take 8)) → s.parks .resbits →
    ∃ t, exec (.tret a) s = .next t ∧ s.entered t .s { cause := .resbits }) ∧
  ∀ (s u : State) (a : BitVec 5) (bs : List Byte), read s u a bs → clean (leNat (bs.take 8)) →
    s.parkedBy (wordsOf bs 8) s.here.job.ctx = (none, false) → s.parks .operand →
    ∃ t, exec (.tret a) s = .next t ∧ s.entered t .s { cause := .operand }

namespace Sys2Proof.Claim
open Sys2Proof.Machine

/-! ## Remote calls (10 R314-R326) -/

/-- An event of the device did what it does; it had nothing to do. -/
def moved (s : State) : Host.Outcome State Fault Refusal := .next { s with stalled := false }
def stood (s : State) : Host.Outcome State Fault Refusal := .next { s with stalled := true }

/-- The items at n positions from f on, round the strand (10 Table 112). -/
def readsFrom (s : State) (f : BitVec 5) (n : BitVec 4) (xs : List Word) : Prop :=
  xs.length = n.toNat ∧ ∀ i, (h : i < xs.length) → reads s (f + BitVec.ofNat 5 i) xs[i]

/-- Slot n of the current task. -/
def slotOf (s : State) (n : Nat) : CallSlot := Sparse.get {} s.here.slots n

/-- The same as it stands now: PENDING for 65,536 ticks, it is LOST (10 R319). -/
def slotToday (s : State) (n : Nat) : CallSlot :=
  let c := slotOf s n
  if c.st = .pending ∧ c.stamp + 65536 ≤ s.stamp then { c with st := .lost } else c

/-- Nothing but request paths has changed on the cores. -/
def samePrograms (s t : State) : Prop := ∀ k, (t.core k).sc = (s.core k).sc ∧ (t.core k).run = (s.core k).run

/-- A target item's kind, and the bits above its number that must be zero (10 Table 113). -/
def targetItem (x kind : Nat) : Prop :=
  fld x 62 2 = kind ∧ (kind = 0 ∧ fld x 52 10 = 0 ∨ kind = 1 ∧ fld x 4 58 = 0 ∨ kind = 2 ∧ fld x 9 53 = 0 ∧ fld x 0 9 < 288)

/-- A reply item names its slot and at most one of a serai of the context and nothing (10 Table 114). -/
def replyItem (s : State) (y : Nat) : Prop :=
  bit y 18 = false ∧ (bit y 19 = false ∧ fld y 6 12 = 0 ∨
    bit y 19 = true ∧ (s.serai (fld y 6 12)).ctx = some s.here.job.ctx)

/-- The call status item of a slot that is not FREE: call id, cause, count, saturation, cached, state code (10 Table 118). -/
def statusItem (c : CallSlot) : Word :=
  let code := match c.st with | .free => 0 | .pending => 1 | .done => 2 | .fault => 3 | .refused => 4 | .lost => 5
  if code = 0 then 0
  else word (c.id * 2 ^ 44 + c.cause * 2 ^ 36 + c.count * 2 ^ 16 + c.sat.toNat * 2 ^ 8 + c.cached.toNat * 2 ^ 7 + code)

/-- The nine items an RPOLL drops: y7 first, y0, then the status item as s0; an item beyond the count is 0 (10 R322). -/
def pollItems (c : CallSlot) (status : Word) : List Word :=
  ((List.range 8).map fun i => if i < c.count then c.items.getD i 0 else 0).reverse ++ [status]

/-- The state after an RPOLL that consumes outcome st of slot n (10 R322, R320, R324). -/
def consumed (s : State) (n : Nat) (st : SlotState) (items : List Word) : State :=
  let c := slotOf s n
  let k := { s.here with slots := s.here.slots.put n {}, sc := { s.here.sc with dcache := s.here.sc.dcache.filter (·.constant) } }
  let t := s.setHere k
  let t := if st = .lost then t
    else { t with remote := { t.remote with
      acks := t.remote.acks.put t.remote.next (c.target, c.ctx, c.id)
      next := t.remote.next + 1 } }
  t.retired { lat := 1, items := items }

/-- A reply for call c leaves now, and the call is over (10 R319-R321). -/
def replied (s t : State) (id : Nat) (c : Call) (st : SlotState) (cause : Nat) (sat cached : Bool) (items : List Word) : Prop :=
  t.stalled = false ∧ t.callAt id = none ∧
  (t.remote.replies.find? fun p => p.1 == s.remote.next) = some (s.remote.next,
    { caller := c.caller, slot := c.slot, inst := c.inst, id := c.id, stamp := c.stamp, st := st, cause := cause, sat := sat,
      cached := cached, items := items, count := items.length, sent := s.stamp, target := c.place })

/-- Reply r is the one with its number. -/
def onItsWay (s : State) (n : Nat) (r : Reply) : Prop := ∃ k, s.remote.replies.find? (fun p => p.1 == n) = some (k, r)

/-- The slot of a task, placed or checkpointed, holds c in t; one that asked for a serai is posted to it (10 R325). -/
def settled (s t : State) (core inst n : Nat) (c : CallSlot) : Prop :=
  t.stalled = false ∧ t.slotAt core inst n = some c ∧
  (c.serai = none → t.sched.posts = s.sched.posts) ∧
  ∀ k, c.serai = some k → s.postRoom = true → ∃ p, t.sched.posts = s.sched.posts ++ [p] ∧ p.serai = k ∧ p.source = 3 ∧
    p.payload.head? = some (statusItem c) ∧ p.slot = some (inst * 512 + core, n)

end Sys2Proof.Claim

open Sys2Proof Sys2Proof.Machine Sys2Proof.Claim

/-- 10 R315, R316, R314, R312: RCALL with good items and a FREE slot sends its call, with the call id, label, function and
payload its items name, to the bank unit, traversal core or core that its target item names; its slot is PENDING; it drops the
issue stamp, and the call stands in its caller's request path, at the home of its target, until its function starts (R324). A bad
item or a slot in use raises OPERAND. -/
def Sys2Proof.Claim.RcallSendsItsCall : Prop :=
  (∀ (s u : State) (t k f : BitVec 5) (n c : BitVec 4) (l : Bool) (x y : Word) (ps : List Word) (kind : Nat)
    (page : Nat × Nat × Nat), s.mayIssue (.rcall t k f n c l) = true → agrees s → reads s t x → reads s k y →
    readsFrom s f n ps → targetItem x.toNat kind → replyItem s y.toNat → (slotOf s (fld y.toNat 0 6)).st = .free →
    (kind = 0 → (bankTarget (word (fld x.toNat 0 52))).run s = .ok page u) → (kind ≠ 0 → u = s ∧ page = (0, 0, 0)) →
    let target := if kind = 0 then fld page.1 33 7 * 8 + fld page.1 30 3 else if kind = 1 then fld x.toNat 0 4
      else fld x.toNat 0 9
    ∃ v call, exec (.rcall t k f n c l) s = .next v ∧ v.stalled = false ∧ landed v (word u.stamp) ∧
      v.here.sc.ctr.walk = u.here.sc.ctr.walk + 1 ∧ v.callAt u.remote.next = some call ∧
      call.caller = u.cur ∧ call.slot = fld y.toNat 0 6 ∧ call.id = fld y.toNat 44 20 ∧ call.label = fld y.toNat 28 16 ∧
      call.func = fld y.toNat 20 8 ∧ call.payload = ps ∧ call.kind = kind ∧ call.target = target ∧
      call.ctx = u.here.job.ctx ∧ call.stamp = u.stamp ∧ call.started = none ∧
      (slotOf v (fld y.toNat 0 6)).st = .pending ∧ (slotOf v (fld y.toNat 0 6)).id = fld y.toNat 44 20 ∧
      (slotOf v (fld y.toNat 0 6)).serai = (if bit y.toNat 19 then some (fld y.toNat 6 12) else none) ∧
      (∀ j, j ≠ fld y.toNat 0 6 → slotOf v j = slotOf u j) ∧
      (kind = 0 → ∃ q, (v.stack (target / 64)).waiting = (u.stack (target / 64)).waiting ++ [q] ∧ q.unit = target ∧
        q.toll = 32 ∧ q.call = some u.remote.next) ∧ u.sameMemory v ∧
      ∃ p, v.here.req.path = insertItem p u.here.req.path ∧ p.act = .call u.remote.next ∧ p.acc.walk = u.here.sc.ctr.walk ∧
        p.acc.cls = c.toNat ∧ p.acc.kinds = { w := true } ∧ p.acc.rel = (if l then some 3 else none) ∧
        p.acc.home = some (if kind = 0 then .channel (target / 8) else if kind = 1 then .trav target
          else .crew (clusterOf target))) ∧
  ∀ (s : State) (t k f : BitVec 5) (n c : BitVec 4) (l : Bool) (x y : Word) (ps : List Word),
    s.mayIssue (.rcall t k f n c l) = true → reads s t x → reads s k y → readsFrom s f n ps →
    ((∀ kind, ¬ targetItem x.toNat kind) ∨ ¬ replyItem s y.toNat ∨ (slotOf s (fld y.toNat 0 6)).st ≠ .free) →
    s.parks .operand → ∃ v, exec (.rcall t k f n c l) s = .next v ∧ s.entered v .s { cause := .operand }

/-- 10 R322-R325, R320, 14 R409, R411: RPOLL drops the status and the items of its slot. An outcome frees the slot,
acknowledges the reply (a loss sends none), and empties the ordinary lines; without RCTL a FAULT or REFUSED raises REMOTE, a
loss REMLOST, at the next word. WAIT waits for a PENDING slot. A recorded task writes its REPLY record; in replay the record
answers. -/
def Sys2Proof.Claim.RpollDropsAndFreesItsSlot : Prop :=
  let ended := fun (st : SlotState) => st = .done ∨ st = .fault ∨ st = .refused ∨ st = .lost
  let after := fun (i : Instr) (s u : State) (n : Nat) (st : SlotState) (items : List Word) =>
    (¬ ended st → exec i s = .next (u.retired { lat := 1, items := items })) ∧
    (ended st → s.here.sc.k.rctl = true ∨ st = .done → exec i s = .next (consumed u n st items)) ∧
    (s.here.sc.k.rctl = false → ∀ c : Cause, (st = .fault ∨ st = .refused) ∧ c = .remote ∨ st = .lost ∧ c = .remlost →
      (consumed u n st items).parks c →
      ∃ t, exec i s = .next t ∧ (consumed u n st items).entered t .s { cause := c })
  let live := fun (s : State) => s.here.job.recmode ≠ 2 ∨ s.records.released = true
  ∀ (s : State) (a : BitVec 5) (w : Bool) (x : Word), s.mayIssue (.rpoll a w) = true → agrees s → reads s a x →
    let n := x.toNat
    let c := slotToday s n
    (n < 64 → (c.st = .free ∨ c.serai = none) →
      (live s → ¬ (w = true ∧ c.st = .pending) →
        let u := if s.here.job.recmode = 1 then
            s.dispatch (dieOf s.cur) 7 [word (s.cur * 2 ^ 55 + s.here.job.tseq * 2 ^ 35 + n), statusItem c] else s
        after (.rpoll a w) s u n c.st (pollItems c (statusItem c))) ∧
      (live s → w = true → c.st = .pending → exec (.rpoll a w) s = .next { s with stalled := true }) ∧
      (¬ live s → s.nextReply = none → exec (.rpoll a w) s = .next { s with stalled := true }) ∧
      (¬ live s → ∀ k status, s.nextReply = some (k, n, status) →
        (status.toNat % 16 = 2 ∨ status.toNat % 16 = 3 → c.st ≠ .done → c.st ≠ .fault →
          exec (.rpoll a w) s = .next { s with stalled := true }) ∧
        ∀ (st : SlotState) (d : CallSlot),
          (status.toNat % 16, st) ∈ [(0, SlotState.free), (1, .pending), (2, .done), (3, .fault), (4, .refused), (5, .lost)] →
          (if st = .done ∨ st = .fault then (c.st = .done ∨ c.st = .fault) ∧ d = c else d = {}) →
          after (.rpoll a w) s (s.takeRecord (dieOf s.cur) k) n st (pollItems d status)) ∧
      (¬ live s → s.parks .diverge → ∀ k m status, s.nextReply = some (k, m, status) → m ≠ n →
        ∃ t, exec (.rpoll a w) s = .next t ∧ s.entered t .s { cause := .diverge })) ∧
    (64 ≤ n ∨ (c.st ≠ .free ∧ c.serai ≠ none) → s.parks .operand →
      ∃ t, exec (.rpoll a w) s = .next t ∧ s.entered t .s { cause := .operand })

/-- 10 R321, R317, R319: RRET in a remote function ends it: its reply carries DONE and the items it names, beyond 32,768 ticks
FAULT and WATCHDOG, and its runner is idle again. Outside a remote function it raises OPERAND. -/
def Sys2Proof.Claim.RretEndsTheFunctionWithItsItems : Prop :=
  (∀ (s : State) (a : BitVec 5) (n : BitVec 4) (xs : List Word) (r : Runner) (c : Call), s.mayIssue (.rret a n) = true →
    s.here.runner = some r → s.callAt r.call = some c → readsFrom s a n xs →
    (s.core (s.cur - 512)).deferred = false →
    ∃ t, exec (.rret a n) s = .next t ∧ t.here = {} ∧ (∀ k, k ≠ s.cur → t.core k = s.core k) ∧ s.sameMemory t ∧
      (s.stamp ≤ r.started + 32768 → replied s t r.call c .done 0 false false xs) ∧
      (r.started + 32768 < s.stamp → replied s t r.call c .fault 0x1D false false [])) ∧
  ∀ (s : State) (a : BitVec 5) (n : BitVec 4), s.mayIssue (.rret a n) = true → s.here.runner = none → s.parks .operand →
    ∃ t, exec (.rret a n) s = .next t ∧ s.entered t .s { cause := .operand }

/-- 10 R316-R320, 11 R348: CALL_START of a call that its target can take starts the function with the payload and the call
remembered in the reply cache: on a bank unit when its command is the next of its stack, on a runner at the clasp of its text.
A key found answered is answered again, one found running waits for that reply; a call refused or faulted is answered so; a call
that waits stays. -/
def Sys2Proof.Claim.CallsStartAtTheirTarget : Prop :=
  let remembered := fun (t : State) (c : Call) => ∃ x ∈ t.remote.cache, x.target = c.place ∧ x.ctx = c.ctx ∧ x.id = c.id
  (∀ (s u : State) (id : Nat) (c : Call), s.callAt id = some c → s.plan id c = (.wait, u) →
    exec (.callStart id) s = .next { s with stalled := true }) ∧
  (∀ (s u : State) (id : Nat) (c : Call), s.callAt id = some c → s.plan id c = (.found, u) →
    ∃ t, exec (.callStart id) s = .next t ∧ t.stalled = false ∧ t.remote.calls = u.remote.calls ∧ t.cores = u.cores ∧
      ∀ x ∈ t.remote.cache, x.target = c.place → x.ctx = c.ctx → x.id = c.id → c.stamp ≤ x.stamp) ∧
  (∀ (s u : State) (id : Nat) (c : Call), s.callAt id = some c → s.plan id c = (.discard, u) →
    ∃ t, exec (.callStart id) s = .next t ∧ t.stalled = false ∧ t.callAt id = none ∧ samePrograms u t) ∧
  (∀ (s u : State) (id why : Nat) (c : Call), s.callAt id = some c → s.plan id c = (.refuse why, u) →
    ∃ t, exec (.callStart id) s = .next t ∧ replied u t id c .refused why false false [] ∧ samePrograms u t ∧
      u.sameMemory t) ∧
  (∀ (s u : State) (id cause : Nat) (c : Call) (st : SlotState) (sat : Bool) (items : List Word) (m : Nat),
    s.callAt id = some c → s.plan id c = (.cached (st, cause, sat, items, m), u) →
    ∃ t, exec (.callStart id) s = .next t ∧ replied u t id c st cause sat true items ∧ samePrograms u t ∧
      u.sameMemory t) ∧
  (∀ (s u : State) (id : Nat) (c : Call) (x : Cause), s.callAt id = some c → s.plan id c = (.fault x, u) →
    ∃ t, exec (.callStart id) s = .next t ∧ replied u t id c .fault x.code false false [] ∧ remembered t c ∧
      samePrograms u t) ∧
  (∀ (s u : State) (id page size : Nat) (c : Call) (va : Word), s.callAt id = some c → s.plan id c = (.text va page size, u) →
    ∃ t, exec (.callStart id) s = .next t ∧ t.stalled = false ∧ remembered t c ∧
      t.callAt id = some { c with started := some u.stamp } ∧
      let k := t.core c.runner
      k.run = .running ∧ k.runner = some { call := id, page := page, size := size, started := u.stamp } ∧
        k.sc.ctr = { walk := 0, addr := va, stop := false } ∧ k.sc.strand = c.payload ∧ k.sc.flight = [] ∧ k.sc.calls = [] ∧
        k.job.ctx = c.ctx ∧ ∀ j, j ≠ c.runner → (t.core j).sc = (u.core j).sc) ∧
  ∀ (s u : State) (id e : Nat) (c : Call) (q : BankCmd), s.callAt id = some c → s.plan id c = (.bank e, u) →
    q.call = some id → s.nextCmd (c.target / 64) = some q → q.unit = c.target →
    ∃ t, exec (.callStart id) s = .next t ∧ t.stalled = false ∧ remembered t c ∧
      t.callAt id = some { c with started := some s.stamp } ∧
      (t.stack (c.target / 64)).level = (s.stack (c.target / 64)).level - q.toll ∧
      let b := t.unit c.target
      b.pc = e ∧ b.sat = false ∧ b.aside = some (s.unit c.target).st ∧ b.st.acc = List.replicate 64 0 ∧ b.st.mode = false ∧
        (∀ i : Fin 8, (b.st.h.getD 0 0).extractLsb' (64 * i) 64 = c.payload.getD i 0 ∨ 8 < c.payload.length) ∧
        b.st.rcur.toNat = fld c.pa 6 24 ∧ b.st.wcur.toNat = fld c.pa 6 24 ∧
        ∃ r, b.run = some r ∧ r.call = some id ∧ r.started = s.stamp

/-- 10 R319, R320, R325, R326: a call not started within 16,384 ticks whose key is not remembered is refused with 5; a function past 32,768 ticks ends with
FAULT WATCHDOG; a reply within its lifetime fills the slot that still waits for it and is discarded otherwise, or when it is too
old; a slot PENDING for 65,536 ticks is LOST; an acknowledgement frees the answered entry of its key; entries of a target
untouched for 8,454,144 ticks are freed. -/
def Sys2Proof.Claim.CallsAndRepliesMeetTheirLimits : Prop :=
  (∀ (s : State) (id : Nat) (c : Call), s.callAt id = some c → c.started = none →
    (c.stamp + 16384 < s.stamp → (∀ x ∈ s.remote.cache, ¬ (x.target = c.place ∧ x.ctx = c.ctx ∧ x.id = c.id)) →
      ∃ t, exec (.callLate id) s = .next t ∧ replied s t id c .refused 5 false false [] ∧ samePrograms s t) ∧
    ((∃ x ∈ s.remote.cache, x.target = c.place ∧ x.ctx = c.ctx ∧ x.id = c.id) → exec (.callLate id) s = stood s) ∧
    (s.stamp ≤ c.stamp + 16384 → exec (.callLate id) s = stood s)) ∧
  (∀ (s : State) (id n : Nat) (c : Call), s.callAt id = some c → c.started = some n →
    (s.stamp ≤ n + 32768 → exec (.callWatchdog id) s = stood s) ∧
    (n + 32768 < s.stamp → c.kind ≠ 0 → ∀ r, (s.core c.runner).runner = some r → r.call = id →
      (s.core (c.runner - 512)).deferred = false →
      ∃ t, exec (.callWatchdog id) s = .next t ∧ replied s t id c .fault 0x1D false false [] ∧ t.core c.runner = {}) ∧
    (n + 32768 < s.stamp → c.kind = 0 → ∀ r, (s.unit c.target).run = some r → r.call = some id →
      ∃ t, exec (.callWatchdog id) s = .next t ∧ replied s t id c .fault 0x1D (s.unit c.target).sat false [] ∧
        (t.unit c.target).run = none)) ∧
  (∀ (s : State) (n : Nat) (r : Reply), onItsWay s n r →
    let gone := { s with remote := { s.remote with replies := s.remote.replies.drop n } }
    (r.sent + 16384 < s.stamp → exec (.replyExpire n) s = moved gone ∧ exec (.replyArrival n) s = stood s) ∧
    (s.stamp ≤ r.sent + 16384 → exec (.replyExpire n) s = stood s ∧
      let fits := fun (c : CallSlot) =>
        s.slotAt r.caller r.inst r.slot = some c ∧ c.st = .pending ∧ c.id = r.id ∧ c.stamp = r.stamp ∧
          s.stamp < r.stamp + 65536
      (∀ c, fits c → ∃ t, exec (.replyArrival n) s = .next t ∧ settled s t r.caller r.inst r.slot { c with
        st := r.st, cause := r.cause, sat := r.sat, cached := r.cached, items := r.items, count := r.count } ∧
        t.remote = gone.remote) ∧
      ((∀ c, ¬ fits c) → exec (.replyArrival n) s = moved gone))) ∧
  (∀ (s : State) (core inst n : Nat) (c : CallSlot), core < 512 → n < 64 → s.slotAt core inst n = some c →
    let i := Instr.callLost ((inst * 512 + core) * 64 + n)
    (c.st = .pending → c.stamp + 65536 ≤ s.stamp →
      ∃ t, exec i s = .next t ∧ settled s t core inst n { c with st := .lost }) ∧
    (c.st ≠ .pending ∨ s.stamp < c.stamp + 65536 → exec i s = stood s)) ∧
  (∀ (s : State) (n k target ctx id : Nat), s.remote.acks.find? (fun p => p.1 == n) = some (k, (target, ctx, id)) →
    ∃ t, exec (.callAck n) s = .next t ∧ t.stalled = false ∧ (∀ p ∈ t.remote.acks, p.1 ≠ n) ∧
      (∀ x, x ∈ t.remote.cache ↔ x ∈ s.remote.cache ∧
        ¬ (x.target = target ∧ x.ctx = ctx ∧ x.id = id ∧ x.reply.isSome = true)) ∧ t.cores = s.cores) ∧
  ∀ (s : State) (target : Nat) (y : CacheEntry), y ∈ s.remote.cache → y.target = target →
    y.stamp + 8454144 ≤ s.stamp → ∃ t, exec (.replyCacheExpire target) s = .next t ∧ t.stalled = false ∧
      ∀ x, x ∈ t.remote.cache ↔ x ∈ s.remote.cache ∧ ¬ (x.target = target ∧ x.stamp + 8454144 ≤ s.stamp)

namespace Sys2Proof.Claim
open Sys2Proof.Machine

/-! ## Searches, merges, streams (11 R335-R354) -/

/-- An entry of the scoreboard has ended: it is free for the next launch. -/
def gone (t : State) (e : Nat) : Prop := (t.score e).st = .free ∧ (t.score e).search = none ∧ (t.score e).stream = none

/-- Entry e holds nothing that its end would pass on: no report, no successor, no record, no serai of its own. -/
def quiet (s : State) (e : Nat) : Prop :=
  let c := s.score e
  c.wb.post = false ∧ c.wb.succ = [] ∧ c.wb.record = false ∧ c.live = false ∧ c.bySerai = none

/-- The unit that serves entry e reads the n bytes at an address of the entry's context, or n bytes of one grain at a place; it
finds where an address lies; it writes bytes within one grain (08 R257, 14 R406, R410, R417, R418). -/
def unitReads (s : State) (who : LogWho) (e : Nat) (va : Word) (n : Nat) (bs : List Byte) (u : State) : Prop :=
  (unitLoads who e (s.score e).wb.ctx va n).run s = .ok bs u
def unitGrain (s : State) (who : LogWho) (e pa n : Nat) (va : Word) (bs : List Byte) (u : State) : Prop :=
  (unitLoad who e pa n va).run s = .ok bs u
def unitFinds (s : State) (e : Nat) (va : Word) (n : Need) (pa : Nat) : Prop :=
  (unitPlace (s.score e).wb.ctx va n).run s = .ok pa s
def unitWrites (s : State) (who : LogWho) (e pa : Nat) (bs : List Byte) (u : State) : Prop :=
  (unitStore who e pa bs).run s = .ok ⟨⟩ u

/-- A step that moves time on, after which entry e's stream is y. -/
def streams (o : Host.Outcome State Fault Refusal) (e : Nat) (y : Stream) (t : State) : Prop :=
  o = .next t ∧ t.stalled = false ∧ (t.score e).stream = some y

end Sys2Proof.Claim

open Sys2Proof Sys2Proof.Machine Sys2Proof.Claim

/-- 11 R342-R347, 12 R361: SEARCH with a good descriptor, ring and query of an INDEX region of its context claims the next slot
of its ring, moves CLAIM on by one and marks the slot pending, enters its search with the query and the snapshot of the region
as RUNNING once nothing of its class holds the access at the region, and drops the claim's number; with a full ring it waits. An unaligned descriptor raises ALIGN, a bad one OPERAND. -/
def Sys2Proof.Claim.SearchClaimsASlotAndStarts : Prop :=
  let opened := fun (s u1 u2 u3 u4 : State) (a : BitVec 5) (c : BitVec 4) (va : Word) (bs hs q : List Byte) =>
    let d := wordsOf bs 16
    let r := u1.region (fld (d.getD 0 0).toNat 0 8)
    let ring := d.getD 3 0
    let h := wordsOf hs 8
    let geo := (h.getD 2 0).toNat
    let x := u1.indexHead r
    s.mayIssue (.search a c) = true ∧ agrees s ∧ reads s a va ∧ va.toNat % 128 = 0 ∧
    (readVa va 128 c.toNat).run s = .ok bs u1 ∧ searchBad d = false ∧ r.valid = true ∧ r.index = true ∧ r.r = true ∧
    r.ctx = u1.here.job.ctx ∧
    (bit (d.getD 4 0).toNat 12 = true → (u1.serai (fld (d.getD 4 0).toNat 0 12)).ctx = some u1.here.job.ctx) ∧
    bit ring.toNat 63 = false ∧ (readVa ring 64 c.toNat).run u1 = .ok hs u2 ∧
    (h.getD 1 0).toNat ≤ (h.getD 0 0).toNat ∧ (h.getD 0 0).toNat - (h.getD 1 0).toNat ≤ fld geo 36 12 + 1 ∧
    fld geo 48 16 = 0 ∧ fld geo 8 28 = 0 ∧ (∀ i, 3 ≤ i → i < 8 → h.getD i 0 = 0) ∧
    64 + 16 * fld (d.getD 2 0).toNat 0 16 ≤ 256 * fld geo 0 8 ∧ (d.getD 1 0).toNat % x.e = 0 ∧
    (readVa (d.getD 1 0) (x.dim * x.e) c.toNat).run u2 = .ok q u3 ∧
    (checkPages .write (((ring + 256).toNat % 2 ^ 19 + 256 * fld geo 0 8 * (fld geo 36 12 + 1) + 2 ^ 19 - 1) / 2 ^ 19)
      (ring + 256)).run u3 = .ok ⟨⟩ u4
  (∀ (s u1 u2 u3 u4 u5 u6 u7 u8 u9 : State) (a : BitVec 5) (c : BitVec 4) (va : Word) (bs hs q : List Byte)
    (head loc e v l : Nat) (src : Option Region) (k : Option Nat), opened s u1 u2 u3 u4 a c va bs hs q →
    let d := wordsOf bs 16
    let no := fld (d.getD 0 0).toNat 0 8
    let ring := d.getD 3 0
    let geo := ((wordsOf hs 8).getD 2 0).toNat
    let claim := ((wordsOf hs 8).getD 0 0).toNat
    let m := fld geo 36 12 + 1
    let slot := ring + word (256 + 256 * fld geo 0 8 * (claim % m))
    claim - ((wordsOf hs 8).getD 1 0).toNat < m → names u4 ring .write head u5 → clear u5 c.toNat head 16 { w := true } none →
    passes u5 head 8 u6 → plain head → u6.partBad head 8 = none →
    names (u6.write head (leBytes 8 (claim + 1))) slot .write loc u7 →
    clear u7 c.toNat loc 64 { w := true } none → passes u7 loc 64 u8 → plain loc → u8.partBad loc 64 = none →
    loc + 64 ≤ head ∨ head + 8 ≤ loc →
    let r := u8.region no
    let u := u8.write loc (dwordBytes (slotHeader 0 0 0 claim 0 0 0 0 slot))
    let w : Waybill := {
      kind := 1, ctx := u1.here.job.ctx, prio := fld (d.getD 5 0).toNat 0 8, record := u.here.job.recmode != 0 }
    goesOn u { walk := u.here.sc.ctr.walk, cls := c.toNat, home := some (.region no (u1.region no).die) } →
    (enterScore w (if bit u.sched.fenced.toNat (u1.region no).die then u.sched.master else (u1.region no).die)).run u =
      .ok e u9 → u9.snapshot no (launchKey u.cur u.here) = some (v, l, src, k) →
    ∃ t, exec (.search a c) s = .next t ∧ t.stalled = false ∧ landed t (word claim) ∧ (t.score e).st = .running ∧
      (∃ x, (t.score e).search = some x ∧ x.query = q ∧ x.version = v ∧ x.logseq = l ∧ x.slot = slot ∧ x.claim = claim ∧
        x.hopsMax = fld (d.getD 2 0).toNat 32 16 ∧ x.beam = fld (d.getD 2 0).toNat 16 16 ∧
        x.k = fld (d.getD 2 0).toNat 0 16 ∧ x.begun = false ∧
        x.post = (if bit (d.getD 4 0).toNat 12 then some (fld (d.getD 4 0).toNat 0 12) else none)) ∧
      (s.here.job.recmode = 0 → u9.here.job.recmode = 0 → v = r.version ∧ l = r.logpos ∧ t.dword head = word (claim + 1) ∧
        t.dword loc = 0 ∧ t.dword (loc + 8) = word claim ∧ t.dword (loc + 40) = slot)) ∧
  (∀ (s u1 u2 u3 u4 : State) (a : BitVec 5) (c : BitVec 4) (va : Word) (bs hs q : List Byte),
    opened s u1 u2 u3 u4 a c va bs hs q →
    let h := wordsOf hs 8
    (h.getD 0 0).toNat - (h.getD 1 0).toNat = fld (h.getD 2 0).toNat 36 12 + 1 →
    exec (.search a c) s = .next { s with stalled := true }) ∧
  (∀ (s : State) (a : BitVec 5) (c : BitVec 4) (va : Word), s.mayIssue (.search a c) = true → reads s a va →
    va.toNat % 128 ≠ 0 → s.parks .align →
    ∃ t, exec (.search a c) s = .next t ∧ s.entered t .s (faulted .align va 0 0 9)) ∧
  ∀ (s u : State) (a : BitVec 5) (c : BitVec 4) (va : Word) (bs : List Byte), s.mayIssue (.search a c) = true →
    reads s a va → va.toNat % 128 = 0 → (readVa va 128 c.toNat).run s = .ok bs u → searchBad (wordsOf bs 16) = true →
    s.parks .operand → ∃ t, exec (.search a c) s = .next t ∧ s.entered t .s { cause := .operand }

/-- 11 R334, R338, R339, R345-R348, R330, 14 R418: a hop of a search whose pages read well, with a traversal core free at the
controller of its first page, starts its pool with the entry node, expands the first node of the pool not yet expanded, which
brings the neighbours not yet seen into the pool, of which the first max(BEAM, K) in rank order stay, or scores the lists
nearest the query; it waits while both cores run functions. A page that cannot be read begins the end of the search with the
page's cause and address, counted on the region's die. A spent search begins its end with the best entries after its log. Its
slot is written part by part, the header last; then its post goes out and its entry is free. -/
def Sys2Proof.Claim.SearchHopsAndEnds : Prop :=
  let page := fun (s : State) (x : Search) => (s.hopPages x (s.indexHead x.reg)).findSome? fun p =>
    ((s.page (x.reg.pageKey p)).fault).map fun c => (c, p)
  let due := fun (s : State) (e n : Nat) (x : Search) =>
    (s.score e).search = some x ∧ x.ending = none ∧ x.spent (s.indexHead x.reg).graph = false ∧
    n ≤ 7 * (s.hopPages x (s.indexHead x.reg)).length
  let scored := fun (s : State) (r : Region) (h : IndexHead) (q : List Byte) (v : Nat) =>
    (s.nodeVector r h v).map fun vec => (scoreOf h.l2 (signedElems h.e q) vec, v)
  let closing := fun (t : State) (e : Nat) (x : Search) (d : Ending) (l : List (Int × Nat)) =>
    (t.score e).search = some { x with ending := some d } ∧
    d.parts.getLast? = some (x.slot, dwordBytes d.header) ∧
    ((d.parts.dropLast.map (·.2)).flatten = resultBytes x.k l) ∧
    ∀ i a bs, d.parts.dropLast[i]? = some (a, bs) →
      a = x.slot + 64 + word ((d.parts.take i).map (fun p => p.2.length)).sum
  (∀ (s : State) (e n : Nat) (x : Search), due s e n x → page s x = none →
    let h := s.indexHead x.reg
    s.hopBlocked (s.hopAt x h) = false →
    ∃ t y, exec (.searchHop e n) s = .next t ∧ t.stalled = false ∧ (t.score e).search = some y ∧
      y.requeues = x.requeues + n ∧ y.begun = true ∧ y.query = x.query ∧ y.slot = x.slot ∧ y.version = x.version ∧
      (∀ j, j ≠ e → t.score j = s.score j) ∧ t.cores = s.cores ∧
      (h.graph = true → x.begun = false → y.pool = (scored s x.reg h x.query h.entry).toList ∧ y.seen = [h.entry] ∧
        y.hops = x.hops) ∧
      (h.graph = true → x.begun = true → ∀ u, x.nextNode = some u →
        let new := (s.neighbours x.reg h u).eraseDups.filter fun v => !x.seen.contains v
        y.hops = x.hops + 1 ∧ y.expanded = x.expanded ++ [u] ∧ y.seen = x.seen ++ new ∧
        y.pool = (ranked (x.pool ++ new.filterMap (scored s x.reg h x.query))).take (max x.beam x.k)) ∧
      (h.graph = false → y.hops = x.hops ∧ ∀ p, p ∈ y.pool ↔
        ∃ l ∈ (s.centroids x.reg h (signedElems h.e x.query)).take x.beam, ∃ m ∈ s.listMembers x.reg h l.2,
          p = (scoreOf h.l2 (signedElems h.e x.query) m.1, m.2))) ∧
  (∀ (s : State) (e n : Nat) (x : Search), due s e n x → s.hopBlocked (s.hopAt x (s.indexHead x.reg)) = true →
    exec (.searchHop e n) s = stood s) ∧
  (∀ (s : State) (e n : Nat) (x : Search) (c : Cause) (p : Nat), due s e n x →
    s.hopBlocked (s.hopAt x (s.indexHead x.reg)) = false → page s x = some (c, p) →
    ∃ t d, exec (.searchHop e n) s = .next t ∧ t.stalled = false ∧ closing t e x d [] ∧
      d.why = some (c, word (x.region * 2 ^ 42 + p * 16384)) ∧
      d.header = slotHeader 2 c.code 0 x.claim x.requeues x.hops x.version x.logseq x.slot ∧
      (c = .hallmark → (t.counters x.reg.die).hmerr = (s.counters x.reg.die).hmerr + 1) ∧
      (c = .uncorr → (t.counters x.reg.die).ucerr = (s.counters x.reg.die).ucerr + 1)) ∧
  (∀ (s : State) (e : Nat) (x : Search), (s.score e).search = some x → x.ending = none →
    let h := s.indexHead x.reg
    x.spent h.graph = true →
    let log := (x.reg.log.take x.logseq).drop x.reg.merged
    let best := if x.stale then []
      else (ranked (applyLog h (signedElems h.e x.query) (bestOf x.pool) log)).take x.k
    ∃ t d, exec (.searchDone e) s = .next t ∧ t.stalled = false ∧ closing t e x d best ∧ d.why = none ∧
      d.header = slotHeader (if x.stale then 3 else 1) 0 best.length x.claim x.requeues x.hops x.version x.logseq x.slot) ∧
  ∀ (s u : State) (e pa : Nat) (x : Search) (d : Ending) (a : Word) (bs : List Byte) (ps : List (Word × List Byte)),
    (s.score e).search = some x → x.ending = some d → d.parts = (a, bs) :: ps → unitFinds s e a .write pa →
    unitWrites s x.who e pa bs u →
    (ps ≠ [] → exec (.searchDone e) s =
      moved (u.setScore e { (u.score e) with search := some { x with ending := some { d with parts := ps } } })) ∧
    (ps = [] → quiet u e → d.why = none → u.postRoom = true →
      ∃ t, exec (.searchDone e) s = .next t ∧ t.stalled = false ∧ gone t e ∧ u.sameMemory t ∧ t.cores = u.cores ∧
        t.sched.posts = u.sched.posts ++ (match x.post with
          | some n => [{ serai := n, source := 2, payload := d.header }]
          | none => [])) ∧
    (ps = [] → quiet u e → ∀ w, d.why = some w → (u.actionEntry (u.score e).wb.ctx w.1.code = 0) → u.postRoom = true →
      x.who.mode ≠ 1 →
      ∃ t, exec (.searchDone e) s = .next t ∧ t.stalled = false ∧ gone t e ∧
        t.sched.posts = u.sched.posts ++ (match x.post with
          | some n => [{ serai := n, source := 2, payload := d.header }]
          | none => []))

/-- 11 R340, R328: a merge of an INDEX region without HOLD begins with the entries published so far and the pages the region
then has; when it ends version V + 1 stands with them merged: an id that none of them names is as it was, and the last entry for
an id decides it. -/
def Sys2Proof.Claim.MergesMakeTheNextVersion : Prop :=
  (∀ (s : State) (n : Nat), let r := s.region n
    r.index = true → r.hold = false → r.merged < r.logpos → r.merging = none →
    exec (.indexMergeStart n) s = moved (s.setRegion n { r with merging := some ⟨r.logpos, r.ctrl, r.base, r.pages⟩ })) ∧
  (∀ (s : State) (n : Nat), let r := s.region n
    r.index = false ∨ r.hold = true ∨ r.logpos ≤ r.merged ∨ r.merging.isSome = true →
    exec (.indexMergeStart n) s = stood s) ∧
  ∀ (s : State) (n : Nat) (m : Merge), let r := s.region n
    r.merging = some m →
    let log := (r.log.take m.upto).drop r.merged
    ∃ v, exec (.indexMergeDone n) s = .next { (s.setRegion n { r with
        version := r.version + 1
        merged := m.upto
        cur := v
        merging := none }) with
        fresh := s.fresh + 1
        stalled := false } ∧
      v.choices = r.cur.choices ++ [s.fresh] ∧
      (∀ id, (∀ g ∈ log, leNat (g.take 4) ≠ id) → v.find id = r.cur.find id) ∧
      ∀ gs g, log = gs ++ [g] → v.find (leNat (g.take 4)) =
        some (if fld (leNat ((g.drop 4).take 4)) 0 1 = 1 then none else some (g.drop 8))

/-- 11 R351, 12 R363, 07 R219: a READY stream whose record and queue are good starts on D2's resident crew once the accesses its
launch orders first have performed; it waits until then. A record that breaks Table 130 ends it with OPERAND, a queue whose
geometry is another with QFAULT. -/
def Sys2Proof.Claim.StreamsStartOnD2 : Prop :=
  let ready := fun (s : State) (e : Nat) => (s.score e).st = .ready ∧ (s.score e).wb.kind = 2
  let opens := fun (s : State) (e : Nat) (bs : List Byte) (u : State) =>
    ready s e ∧ (s.crew 8).resident ≠ none ∧ s.sched.electing = false ∧ s.launchClear (s.score e) = true ∧
    unitReads (s.setScore e { (s.score e) with st := .running }) ⟨(s.score e).mode, 0x181, 0⟩ e (s.score e).wb.entry 64 bs u
  let ends := fun (u : State) (e : Nat) => quiet u e ∧ (u.score e).stream = none ∧ (u.score e).search = none ∧
    (u.score e).mode ≠ 1
  (∀ (s u v : State) (e : Nat) (bs gs : List Byte), opens s e bs u →
    let d := wordsOf bs 8
    let ctl := fld (d.getD 2 0).toNat 0 26
    streamBad d = false →
    unitGrain u ⟨(s.score e).mode, 0x181, 0⟩ e (padLoc 8 (ctl + 16)) 8 (word (2 ^ 63 + ctl + 16)) gs v →
    word (leNat gs) = d.getD 3 0 → d.getD 3 0 ≠ 0 →
    ∃ t x, streams (exec (.streamStart e) s) e x t ∧ (t.score e).st = (v.score e).st ∧
      x.table = d.getD 0 0 ∧ x.tbytes = fld (d.getD 1 0).toNat 32 16 ∧
      x.nent = fld (d.getD 1 0).toNat 0 16 ∧ x.q.ctl = ctl ∧ x.q.geom = d.getD 3 0 ∧ x.entry = 0 ∧ x.held = none ∧
      v.sameMemory t ∧ t.cores = v.cores) ∧
  (∀ (s : State) (e : Nat), ready s e → ((s.crew 8).resident = none ∨ s.launchClear (s.score e) = false) →
    exec (.streamStart e) s = stood s) ∧
  (∀ (s u : State) (e : Nat) (bs : List Byte), opens s e bs u → streamBad (wordsOf bs 8) = true →
    ends u e → u.actionEntry (u.score e).wb.ctx Cause.operand.code = 0 →
    ∃ t, exec (.streamStart e) s = .next t ∧ t.stalled = false ∧ gone t e ∧ u.sameMemory t) ∧
  ∀ (s u v : State) (e : Nat) (bs gs : List Byte), opens s e bs u →
    let d := wordsOf bs 8
    let ctl := fld (d.getD 2 0).toNat 0 26
    streamBad d = false →
    unitGrain u ⟨(s.score e).mode, 0x181, 0⟩ e (padLoc 8 (ctl + 16)) 8 (word (2 ^ 63 + ctl + 16)) gs v →
    word (leNat gs) ≠ d.getD 3 0 → ends v e → v.actionEntry (v.score e).wb.ctx Cause.qfault.code = 0 →
    ∃ t, exec (.streamStart e) s = .next t ∧ t.stalled = false ∧ gone t e ∧ v.sameMemory t

/-- 11 R352, R354, 08 R268: a stream at its next entry pins it in one action (its count of pins is raised where it lies) and
holds it, with the region of a block in flash as it then stands, or the place of a block in memory, and pins the frame where
the block lies in a 512 KiB DRAM page. Behind the last entry the stream ends. -/
def Sys2Proof.Claim.StreamsPinTheirEntries : Prop :=
  let reaches := fun (s u : State) (e pa : Nat) (x : Stream) (bs : List Byte) (a b : Word) =>
    (s.score e).stream = some x ∧ x.held = none ∧ x.entry < x.nent ∧
    unitFinds s e (x.table + word (16 * x.entry)) .both pa ∧ plain pa ∧
    unitGrain s x.who e pa 16 (x.table + word (16 * x.entry)) bs u ∧
    a = word (leNat (bs.take 8)) ∧ b = word (leNat (bs.drop 8)) ∧
    fld b.toNat 24 8 < 255 ∧ fld b.toNat 0 16 ≠ 0 ∧ fld a.toNat 52 10 = 0 ∧ fld b.toNat 16 8 = 0
  (∀ (s : State) (e : Nat) (x : Stream), (s.score e).stream = some x → x.held = none → x.nent ≤ x.entry → quiet s e →
    ∃ t, exec (.streamEntry e) s = .next t ∧ t.stalled = false ∧ gone t e) ∧
  (∀ (s u : State) (e pa : Nat) (x : Stream) (bs : List Byte) (a b : Word), reaches s u e pa x bs a b →
    fld a.toNat 62 2 = 2 →
    ∃ t y, streams (exec (.streamEntry e) s) e y t ∧ y.held = some (a, b) ∧
      y.reg = some (u.region (fld a.toNat 42 8)) ∧ y.entry = x.entry ∧ y.copied = [] ∧
      t.dword (pa + 8) = b + 0x1000000 ∧ changedOnly u t (pa + 8) 8) ∧
  ∀ (s u : State) (e pa : Nat) (x : Stream) (bs : List Byte) (a b : Word) (at_ : Nat) (fr : Option Nat),
    reaches s u e pa x bs a b → fld a.toNat 62 2 = 1 →
    let w := u.write (pa + 8) (leBytes 8 (b + 0x1000000).toNat)
    w.blockPlace (s.score e).wb.ctx (fld a.toNat 0 52) (fld b.toNat 0 16 * x.tbytes) = some (at_, fr) →
    (fr = none →
      ∃ t y, streams (exec (.streamEntry e) s) e y t ∧ y.held = some (a, b) ∧ y.block = at_ ∧ y.frame = x.frame ∧
        t.dword (pa + 8) = b + 0x1000000 ∧ changedOnly u t (pa + 8) 8) ∧
    ∀ f, fr = some f →
      let ft := (w.dword (w.pages.ftbase.toNat + 8 * f)).toNat
      fld ft 48 16 ≠ 0 → bit ft 39 = false → fld ft 40 8 < 255 →
      (pa + 16 ≤ u.pages.ftbase.toNat + 8 * f ∨ u.pages.ftbase.toNat + 8 * f + 8 ≤ pa) →
      ∃ t y, streams (exec (.streamEntry e) s) e y t ∧ y.held = some (a, b) ∧ y.block = at_ ∧ y.frame = some f ∧
        t.dword (pa + 8) = b + 0x1000000 ∧ t.dword (u.pages.ftbase.toNat + 8 * f) = word (ft + 2 ^ 40)

/-- 11 R352-R354, 07 R220: the block of a pinned entry goes into the queue piece by piece: a producer slot is claimed when one is
free (it waits while none is), the piece is read, its slot is written grain by grain with zeros behind the piece, PROD moves on
by one; the last piece of a block is published only when the block's CRC is the entry's, and after it the pins drop and the
stream goes on to its next entry. -/
def Sys2Proof.Claim.StreamsCopyTheirBlocks : Prop :=
  let on := fun (s : State) (e : Nat) (x : Stream) (a b : Word) => (s.score e).stream = some x ∧ x.held = some (a, b)
  let total := fun (x : Stream) (b : Word) => fld b.toNat 0 16 * x.tbytes
  let size := fun (x : Stream) (b : Word) => min (geomBytes x.q.geom) (fld b.toNat 0 16 * x.tbytes - x.copied.length)
  (∀ (s u v : State) (e : Nat) (x : Stream) (a b : Word) (ps cs : List Byte), on s e x a b → x.claim = none →
    x.copied.length < total x b →
    unitGrain s x.who e (padLoc 8 x.q.ctl) 8 (word (2 ^ 63 + x.q.ctl)) ps u →
    unitGrain u x.who e (padLoc 8 (x.q.ctl + 8)) 8 (word (2 ^ 63 + (x.q.ctl + 8))) cs v →
    leNat cs ≤ leNat ps →
    (leNat ps - leNat cs = geomSlots x.q.geom → exec (.streamEntry e) s = stood s) ∧
    (leNat ps - leNat cs < geomSlots x.q.geom →
      exec (.streamEntry e) s = moved (v.setStream e { x with claim := some (leNat ps) }))) ∧
  (∀ (s u : State) (e p : Nat) (x : Stream) (a b : Word) (bs : List Byte), on s e x a b → x.claim = some p → x.reg = none →
    x.got.length < size x b →
    let done := x.copied.length + x.got.length
    unitGrain s x.who e (x.block + done) (min (size x b - x.got.length) (256 - (x.block + done) % 256))
      (word (fld a.toNat 0 52 + done)) bs u →
    exec (.streamEntry e) s = moved (u.setStream e { x with got := x.got ++ bs })) ∧
  (∀ (s : State) (e p : Nat) (x : Stream) (r : Region) (a b : Word), on s e x a b → x.claim = some p → x.reg = some r →
    x.got = [] → 0 < size x b →
    let off := fld a.toNat 0 42 + x.copied.length
    r.valid = true → r.ctx = (s.score e).wb.ctx → r.r = true → fld a.toNat 50 2 = 0 →
    (off + size x b - 1) / 16384 < (if r.index then r.pages else min r.pages r.fill) →
    (∀ q, off / 16384 ≤ q → q ≤ (off + size x b - 1) / 16384 → (s.page (r.pageKey q)).fault = none) →
    let bytes := (List.range (size x b)).map fun i =>
      Sparse.get (0 : Byte) (s.page (r.pageKey ((off + i) / 16384))).bytes ((off + i) % 16384)
    exec (.streamEntry e) s = moved (s.setStream e { x with got := bytes })) ∧
  (∀ (s u : State) (e p : Nat) (x : Stream) (a b : Word), on s e x a b → x.claim = some p → size x b ≤ x.got.length →
    x.put < geomBytes x.q.geom →
    let bs := (x.got.drop x.put).take 256
    unitWrites s x.who e
      (padLoc 8 (geomBase x.q.geom + p % geomSlots x.q.geom * geomBytes x.q.geom + x.put))
      (bs ++ List.replicate (256 - bs.length) 0) u →
    exec (.streamEntry e) s = moved (u.setStream e { x with put := x.put + 256 })) ∧
  (∀ (s u : State) (e p : Nat) (x : Stream) (a b : Word), on s e x a b → x.claim = some p → size x b ≤ x.got.length →
    geomBytes x.q.geom ≤ x.put →
    let all := x.copied ++ x.got
    (all.length < total x b ∨ (crc32c all).toNat = fld b.toNat 32 32 →
      unitWrites s x.who e (padLoc 8 x.q.ctl) (leBytes 8 (p + 1)) u →
      exec (.streamEntry e) s = moved (u.setStream e { x with claim := none, got := [], put := 0, copied := all })) ∧
    (total x b ≤ all.length → (crc32c all).toNat ≠ fld b.toNat 32 32 → quiet s e → (s.score e).search = none →
      (s.score e).mode ≠ 1 → s.actionEntry (s.score e).wb.ctx Cause.hallmark.code = 0 →
      ∃ t, exec (.streamEntry e) s = .next t ∧ t.stalled = false ∧ gone t e)) ∧
  ∀ (s u : State) (e pa : Nat) (x : Stream) (a b : Word), on s e x a b → x.claim = none → total x b ≤ x.copied.length →
    s.translate (s.score e).wb.ctx (x.table.toNat + 16 * x.entry + 8) .write = .ok pa →
    (unitGo x.who e pa 8).run s = .ok ⟨⟩ u →
    ∃ t y, streams (exec (.streamEntry e) s) e y t ∧ y.held = none ∧ y.frame = none ∧ y.entry = x.entry + 1 ∧
      (x.frame = none → u.translate (u.score e).wb.ctx (x.table.toNat + 16 * x.entry + 8) .write = .ok pa →
        (u.score e).stream = some x → plain pa → fld (u.dword pa).toNat 24 8 ≠ 0 →
        t.dword pa = u.dword pa - 0x1000000 ∧ changedOnly u t pa 8)

namespace Sys2Proof.Claim
open Sys2Proof.Machine

/-! ## Pages and invalidations (08) -/

/-- An address that PGSHARE and PGDROP accept: that of a 512 KiB page in the range of a context (08 R264). -/
def pageAddr (va : Word) : Prop := va.toNat % 2 ^ 19 = 0 ∧ fld va.toNat 52 12 = 0

/-- Every scalar access of the worker before has performed (08 R264). -/
def swept (s : State) : Prop := ∀ p ∈ s.here.req.path, p.acc.eng = .s → ∃ e n, p.act = .seals e n

/-- The status item of Table 82. -/
def pageItem (count frame status : Nat) : Drop := { lat := 1, items := [word (count * 2 ^ 48 + frame * 2 ^ 4 + status)] }

/-- A walk that fails otherwise than at a bad table entry. -/
def missing {α : Type} (r : Except XFault α) : Prop := ∃ f, r = .error f ∧ f.cause ≠ .hallmark ∧ f.cause ≠ .uncorr

/-- No TLB holds a translation of a page in the range. -/
def purged (t : State) (ctx va size : Nat) : Prop :=
  (∀ k, ∀ x ∈ (t.core k).tlb, ¬ (x.ctx = ctx ∧ x.va < va + size ∧ va < x.va + x.size)) ∧
  ∀ c, ∀ x ∈ (t.crew c).tlb, ¬ (x.ctx = ctx ∧ x.va < va + size ∧ va < x.va + x.size)

end Sys2Proof.Claim

open Sys2Proof Sys2Proof.Machine Sys2Proof.Claim

/-- 08 R252, R253: a walk reads the root table's entry for va[51:41], then the next for va[40:30], and for a 512 KiB page a third
for va[29:19]; a leaf gives its address, size and permissions. An absent entry is NOTPRESENT at its level with reason 1, a
reserved bit PROTECT with reason 5, an invalid context NOTPRESENT at level 0 with reason 2, an address above 2^52 PROTECT with
reason 3. -/
def Sys2Proof.Claim.WalksFollowTheTables : Prop :=
  let table := fun (e : Nat) => fld e 14 30 * 2 ^ 14
  let clean := fun (e : Nat) => bit e 63 = true ∧ fld e 59 3 = 0 ∧ fld e 44 12 = 0 ∧ fld e 0 14 = 0
  let leaf := fun (e size : Nat) => (table e, size, bit e 56, bit e 57, bit e 58)
  ∀ (s : State) (ctx va : Nat),
    ((s.ctx ctx).valid = false → walk s ctx va = .error ⟨.notpresent, 0, 2⟩) ∧
    ((s.ctx ctx).valid = true → fld va 52 11 ≠ 0 → walk s ctx va = .error ⟨.protect, 0, 3⟩) ∧
    ((s.ctx ctx).valid = true → fld va 52 11 = 0 →
      let a1 := (s.ctx ctx).root.toNat * 2 ^ 14 + 8 * fld va 41 11
      let e1 := (s.dword a1).toNat
      let a2 := table e1 + 8 * fld va 30 11
      let e2 := (s.dword a2).toNat
      let a3 := table e2 + 8 * fld va 19 11
      let e3 := (s.dword a3).toNat
      (∀ c, s.verify a1 8 = some c → walk s ctx va = .error ⟨c, 1, 11⟩) ∧
      (s.verify a1 8 = none → bit e1 63 = false → walk s ctx va = .error ⟨.notpresent, 1, 1⟩) ∧
      (s.verify a1 8 = none → bit e1 63 = true → ¬ clean e1 → walk s ctx va = .error ⟨.protect, 1, 5⟩) ∧
      (s.verify a1 8 = none → clean e1 → bit e1 62 = true → walk s ctx va = .error ⟨.protect, 1, 4⟩) ∧
      (s.verify a1 8 = none → clean e1 → bit e1 62 = false →
        (s.verify a2 8 = none → bit e2 63 = false → walk s ctx va = .error ⟨.notpresent, 2, 1⟩) ∧
        (s.verify a2 8 = none → clean e2 → bit e2 62 = true →
          (table e2 % 2 ^ 30 = 0 → walk s ctx va = .ok (leaf e2 (2 ^ 30))) ∧
          (table e2 % 2 ^ 30 ≠ 0 → walk s ctx va = .error ⟨.protect, 2, 4⟩)) ∧
        (s.verify a2 8 = none → clean e2 → bit e2 62 = false →
          (s.verify a3 8 = none → bit e3 63 = false → walk s ctx va = .error ⟨.notpresent, 3, 1⟩) ∧
          (s.verify a3 8 = none → clean e3 → bit e3 62 = false → walk s ctx va = .error ⟨.protect, 3, 4⟩) ∧
          (s.verify a3 8 = none → clean e3 → bit e3 62 = true → table e3 % 2 ^ 19 = 0 →
            walk s ctx va = .ok (leaf e3 (2 ^ 19))))))

/-- 08 R264, R265, Table 82: PGSHARE of a 512 KiB DRAM page with COUNT from 1 to 65,534 onto a free level-3 entry writes that
entry with the masked permissions, counts the frame once more and drops both; every other case changes nothing and drops its
status. An unaligned address raises ALIGN. -/
def Sys2Proof.Claim.PgshareMapsAndCountsTheFrame : Prop :=
  (∀ (s : State) (a b : BitVec 5) (m : BitVec 3) (dst src : Word), s.mayIssue (.pgshare a b m) = true → agrees s →
    reads s a dst → reads s b src → pageAddr dst → pageAddr src → swept s →
    let ctx := s.here.job.ctx
    let drops := fun (count frame status : Nat) =>
      exec (.pgshare a b m) s = .next (s.retired (pageItem count frame status))
    (missing (walk s ctx src.toNat) → drops 0 0 2) ∧
    ∀ pa size r w x, walk s ctx src.toNat = .ok (pa, size, r, w, x) →
      (size = 2 ^ 30 → drops 0 0 5) ∧
      (size = 2 ^ 19 → place pa ≠ .dram → drops 0 0 6) ∧
      (size = 2 ^ 19 → place pa = .dram →
        let f := pa / 2 ^ 19
        let at_ := s.pages.ftbase.toNat + 8 * f
        let ft := (s.dword at_).toNat
        let n := fld ft 48 16
        (missing (walkTable s ctx dst.toNat) → drops n f 3) ∧
        (walkTable s ctx dst.toNat = .ok none → drops n f 4) ∧
        ∀ e, walkTable s ctx dst.toNat = .ok (some e) →
          (bit (s.dword e).toNat 63 = true → drops n f 4) ∧
          (bit (s.dword e).toNat 63 = false → n = 0 → drops n f 7) ∧
          (bit (s.dword e).toNat 63 = false → n = 65535 → drops n f 1) ∧
          (bit (s.dword e).toNat 63 = false → 0 < n → n < 65535 → (e + 8 ≤ at_ ∨ at_ + 8 ≤ e) →
            let leaf := word (2 ^ 63 + 2 ^ 62 + (r && m.getLsbD 2).toNat * 2 ^ 56 + (w && m.getLsbD 1).toNat * 2 ^ 57 +
              (x && m.getLsbD 0).toNat * 2 ^ 58 + pa)
            exec (.pgshare a b m) s = .next (((s.writeWord e leaf).writeWord at_ (word (ft + 2 ^ 48))).retired
              (pageItem (n + 1) f 0))))) ∧
  ∀ (s : State) (a b : BitVec 5) (m : BitVec 3) (dst src : Word), s.mayIssue (.pgshare a b m) = true → reads s a dst →
    reads s b src → dst.toNat % 2 ^ 19 ≠ 0 → s.parks .align →
    ∃ t, exec (.pgshare a b m) s = .next t ∧ s.entered t .s (faulted .align dst 0 2 9)

/-- 08 R266, R261, R267, Table 82: PGDROP of a mapped 512 KiB DRAM page clears its entry, counts its frame once less and takes
the translation from every TLB; at COUNT 0 the frame is freed, or kept for its pins with FREEQ. It waits while an access made
through the page is still to perform, or a channel runs on it, which is told first; every other case changes nothing and drops its status. -/
def Sys2Proof.Claim.PgdropUnmapsCountsAndFrees : Prop :=
  ∀ (s : State) (a : BitVec 5) (va : Word), s.mayIssue (.pgdrop a) = true → agrees s → reads s a va → pageAddr va →
    swept s →
    let ctx := s.here.job.ctx
    let i : Inval := { seq := 0, ctx := some ctx, range := some (va.toNat, va.toNat + 2 ^ 19) }
    let drops := fun (count frame status : Nat) => exec (.pgdrop a) s = .next (s.retired (pageItem count frame status))
    (missing (walk s ctx va.toNat) → drops 0 0 10) ∧
    ∀ pa size r w x, walk s ctx va.toNat = .ok (pa, size, r, w, x) →
      (size = 2 ^ 30 → drops 0 0 5) ∧
      (size = 2 ^ 19 → place pa ≠ .dram → drops 0 0 6) ∧
      (size = 2 ^ 19 → place pa = .dram →
        let f := pa / 2 ^ 19
        let at_ := s.pages.ftbase.toNat + 8 * f
        let ft := (s.dword at_).toNat
        let n := fld ft 48 16
        (n = 0 → drops 0 f 7) ∧
        (0 < n → s.windowRuns i = true → s.windowTold i = false → exec (.pgdrop a) s = .next { s.revoke i with stalled := true }) ∧
        (0 < n → s.windowRuns i = true → s.windowTold i = true → exec (.pgdrop a) s = stood s) ∧
        (0 < n → s.windowRuns i = false → s.heldUnder i = true → exec (.pgdrop a) s = stood s) ∧
        (∀ e, 0 < n → s.windowRuns i = false → s.heldUnder i = false → walkTable s ctx va.toNat = .ok (some e) →
          (e + 8 ≤ at_ ∨ at_ + 8 ≤ e) →
          ∃ t, exec (.pgdrop a) s = .next t ∧ t.stalled = false ∧ purged t ctx va.toNat (2 ^ 19) ∧
            t.here.sc.ctr.walk = s.here.sc.ctr.walk + 1 ∧
            (1 < n → landed t (word ((n - 1) * 2 ^ 48 + f * 2 ^ 4)) ∧ t.dword e = 0 ∧ t.dword at_ = word (ft - 2 ^ 48)) ∧
            (n = 1 → fld ft 40 8 ≠ 0 → landed t (word (f * 2 ^ 4 + 9)) ∧ t.dword e = 0 ∧
              fld (t.dword at_).toNat 48 16 = 0 ∧ bit (t.dword at_).toNat 39 = true) ∧
            (n = 1 → fld ft 40 8 = 0 → landed t (word (f * 2 ^ 4 + 8)) ∧
              (f ∈ t.pages.ringq ∨ t.pages.freeprod = s.pages.freeprod + 1))))

/-- 08 R261: the oldest invalidation completes once no access made through its pages is still to perform and no channel keeps
it: its translations leave every TLB and INVDONE takes its number; then the oldest held INVCMD begins under the next number,
with the range it was written with. Until then it stays. -/
def Sys2Proof.Claim.InvalidationsCompleteInOrder : Prop :=
  (∀ (s : State), s.pages.invals = [] → exec .invalComplete s = stood s) ∧
  ∀ (s : State) (i : Inval) (rest : List Inval), s.pages.invals = i :: rest →
    (s.heldUnder i = true ∨ s.windowRuns i = true → exec .invalComplete s = stood s) ∧
    (s.heldUnder i = false → s.windowRuns i = false →
      ∃ t, exec .invalComplete s = .next t ∧ t.stalled = false ∧ t.pages.invdone = i.seq ∧ s.sameMemory t ∧
        (∀ k, ∀ x, x ∈ (t.core k).tlb ↔ x ∈ (s.core k).tlb ∧ i.coversPage x.ctx x.va x.size = false) ∧
        (∀ c, ∀ x, x ∈ (t.crew c).tlb ↔ x ∈ (s.crew c).tlb ∧ i.coversPage x.ctx x.va x.size = false) ∧
        (s.pages.heldInv = [] → t.pages.invals = rest ∧ t.pages.inviss = s.pages.inviss) ∧
        ∀ v vs, s.pages.heldInv = v :: vs → t.pages.heldInv = vs ∧ t.pages.inviss = s.pages.inviss + 1 ∧
          t.pages.invals = rest ++ [{ v with seq := s.pages.inviss + 1 }])

namespace Sys2Proof.Claim
open Sys2Proof.Machine

/-! ## Coolant (13) -/

/-- A zone mask (13 R398). -/
def maskOk (x : Word) : Prop := x ≠ 0 ∧ x.toNat < 2 ^ 36

/-- Zone z of a mask. -/
def named (mask : Word) (z : Nat) : Prop := z < 36 ∧ bit mask.toNat z = true

/-- CAP of a zone (13 Table 142). -/
def capOf (z : Nat) : Nat := if z < 32 then 160 else 200

/-- The flow a zone keeps for itself, and the sum over the zones when f changes them (13 R395). -/
def keeps (z : Zone) : Nat := if z.held then max z.minf z.floor else z.floor
def kept (s : State) (f : Nat → Zone → Zone) : Nat := ((List.range 36).map fun z => keeps (f z (s.zone z))).sum

/-- What a granted request leaves of each zone (13 R398). -/
def granted (mask : Word) (h : Word) (prio maxf minf n : Nat) (z : Zone) : Zone :=
  if bit mask.toNat n then { z with held := true, holder := h, prio := prio, maxf := maxf, minf := minf } else z

/-- The state agrees with s but for the zones, which are as f makes them of s. -/
def zones (s t : State) (f : Nat → Zone → Zone) : Prop := ∀ z, z < 36 → t.zone z = f z (s.zone z)

/-- The item of CRSV (13 Table 148): the room left, the refused zones, the status. -/
def crsvItem (s : State) (refused status : Nat) : Word :=
  word ((s.cool.budget - kept s fun _ z => z) * 2 ^ 46 + refused * 2 ^ 4 + status)

/-- The cores of a zone (13 R392). -/
def under (z k : Nat) : Prop := 8 * z ≤ k ∧ k < 8 * z + 8

/-- The step that STATE reads: 3 from t0 + 9 on stands for the stop (1), the parking (2) and the gating (3) that begin at t0 and
t0 + 8 (13 Table 150). -/
def stepOf (z : Zone) (now : Nat) : Nat :=
  if z.state = 3 ∧ now < z.seq0 + 8 then 1 else if z.state = 3 ∧ now = z.seq0 + 8 then 2 else z.state

/-- The four temperatures of a reading. -/
def temps (r : ZoneReading) : List Int := [r.t0.toInt, r.t1.toInt, r.t2.toInt, r.t3.toInt]

/-- PARK answers a cause on core k (12 R381), whose task is not recorded, with no function and no open load there. -/
def parksOn (s : State) (k : Nat) (c : Cause) : Prop :=
  let x := s.core k
  fld (s.actionEntry x.job.ctx c.code) 62 2 = 2 ∧ x.job.recmode ≠ 1 ∧ x.runner = none ∧
    (s.core (runnerKey k)).runner = none ∧ x.sc.loads = []

/-- A condition has held since its start for n ticks. -/
def lasted (start : Option Nat) (now n : Nat) : Prop := ∃ t, start = some t ∧ t + n ≤ now

end Sys2Proof.Claim

open Sys2Proof Sys2Proof.Machine Sys2Proof.Claim

/-- 13 R398, R395, Table 148: CRSV takes every zone of its mask for its waybill where none is held by another, none is in the
dry sequence and the reserved flows fit BUDGET, and reports the room left; otherwise it changes nothing and drops its status
with the refused zones. CREL frees the named zones that its waybill holds. CQRY drops holder, reservation and state of a zone,
state word as s0. -/
def Sys2Proof.Claim.CoolantWordsReserveFreeAndShow : Prop :=
  (∀ (s : State) (a b : BitVec 5) (x y : Word), s.mayIssue (.crsv a b) = true → agrees s → reads s a x → reads s b y →
    maskOk x → y.toNat < 2 ^ 24 →
    let minf := fld y.toNat 0 12
    let maxf := fld y.toNat 12 12
    minf ≤ maxf → (∀ z, named x z → maxf ≤ capOf z) →
    let h := s.here.job.handle
    let f := granted x h (s.prioOf h) maxf minf
    let bits := fun (p : Nat → Bool) => (((List.range 36).filter fun z => bit x.toNat z && p z).map fun z => 2 ^ z).sum
    let busy := fun (z : Nat) => (s.zone z).held && (s.zone z).holder != h
    let dry := fun (z : Nat) => decide (1 ≤ (s.zone z).state) && decide ((s.zone z).state ≤ 10)
    let drops := fun (refused status : Nat) =>
      exec (.crsv a b) s = .next (s.retired { lat := 1, items := [crsvItem s refused status] })
    ((∃ z, named x z ∧ busy z = true) → drops (bits busy) 1) ∧
    ((∀ z, named x z → busy z = false) → (∃ z, named x z ∧ dry z = true) → drops (bits dry) 3) ∧
    ((∀ z, named x z → busy z = false) → (∀ z, named x z → dry z = false) →
      (s.cool.budget < kept s f → drops 0 2) ∧
      (kept s f ≤ s.cool.budget → ∃ t, exec (.crsv a b) s = .next t ∧ t.stalled = false ∧ zones s t f ∧
        landed t (word ((s.cool.budget - kept s f) * 2 ^ 46)) ∧ t.here.sc.ctr.walk = s.here.sc.ctr.walk + 1 ∧
        s.sameMemory t ∧ ∀ k, k ≠ s.cur → t.core k = s.core k))) ∧
  (∀ (s : State) (a b : BitVec 5) (x y : Word), s.mayIssue (.crsv a b) = true → reads s a x → reads s b y →
    (¬ maskOk x ∨ 2 ^ 24 ≤ y.toNat ∨ fld y.toNat 12 12 < fld y.toNat 0 12 ∨
      ∃ z, named x z ∧ capOf z < fld y.toNat 12 12) → s.parks .operand →
    ∃ t, exec (.crsv a b) s = .next t ∧ s.entered t .s { cause := .operand }) ∧
  (∀ (s : State) (a : BitVec 5) (x : Word), s.mayIssue (.crel a) = true → agrees s → reads s a x → maskOk x →
    ∃ t, exec (.crel a) s = .next t ∧ t.stalled = false ∧ t.here = s.here.scalarDone s.stamp {} ∧ s.sameMemory t ∧
      zones s t fun n z =>
        if bit x.toNat n ∧ z.held = true ∧ z.holder = s.here.job.handle then
          { z with held := false, holder := 0, prio := 0, maxf := 0, minf := 0 }
        else z) ∧
  (∀ (s : State) (a : BitVec 5) (x : Word), s.mayIssue (.crel a) = true → reads s a x → ¬ maskOk x → s.parks .operand →
    ∃ t, exec (.crel a) s = .next t ∧ s.entered t .s { cause := .operand }) ∧
  (∀ (s : State) (a : BitVec 5) (x : Word), s.mayIssue (.cqry a) = true → reads s a x → x.toNat < 36 →
    let z := s.zone x.toNat
    exec (.cqry a) s = .next (s.retired { lat := 1, items := [z.holder,
      word (z.held.toNat * 2 ^ 63 + z.prio * 2 ^ 40 + z.maxf * 2 ^ 24 + z.minf * 2 ^ 12 + z.floor),
      word (z.dry.toNat * 2 ^ 40 + stepOf z s.stamp * 2 ^ 32 + z.flow.toNat * 2 ^ 16 + z.valve)] })) ∧
  ∀ (s : State) (a : BitVec 5) (x : Word), s.mayIssue (.cqry a) = true → reads s a x → 36 ≤ x.toNat → s.parks .operand →
    ∃ t, exec (.cqry a) s = .next t ∧ s.entered t .s { cause := .operand }

/-- 13 R397, 12 R369: the one HELD waybill is granted its coolant once it needs none or all its zones can be reserved for it
together, whether its streams run or not, and leaves HELD for READY once it is granted and its streams run or have ended; it
stays HELD otherwise. -/
def Sys2Proof.Claim.HeldWaybillsWaitForTheirCoolant : Prop :=
  ∀ (s : State) (e : Nat) (c : Score), s.liveScores.filter (fun p => p.2.st == .held) = [(e, c)] → s.score e = c →
    let need := c.wb.cool.toNat
    let mask : Word := word (fld need 0 36)
    let h := word ((c.seq - 1) * 2 ^ 16 + e / 4096 * 2 ^ 14 + e % 4096)
    let f := granted mask h c.wb.prio (fld need 48 12) (fld need 36 12)
    let ready := ∀ x ∈ c.wb.strm, ∀ j, s.named x = some j → (s.score j).st = .running ∨ (s.score j).st = .ended
    let free := (∀ z, named mask z → ((s.zone z).held = false ∨ (s.zone z).holder = h) ∧
      ((s.zone z).state = 0 ∨ 10 < (s.zone z).state)) ∧ kept s f ≤ s.cool.budget
    let comes := fun (g : Nat → Zone → Zone) => ∃ t, exec .coolGrant s = .next t ∧ t.stalled = false ∧ zones s t g ∧
      (t.score e).cooled = true ∧ (ready → (t.score e).st = .ready) ∧ (¬ ready → (t.score e).st = .held)
    (c.cooled = false → (need = 0 ∨ c.wb.kind = 1) → comes fun _ z => z) ∧
    (c.cooled = false → need ≠ 0 → c.wb.kind ≠ 1 → free → comes f) ∧
    (c.cooled = false → need ≠ 0 → c.wb.kind ≠ 1 → ¬ free → exec .coolGrant s = stood s) ∧
    (c.cooled = true → ready → comes fun _ z => z) ∧
    (c.cooled = true → ¬ ready → exec .coolGrant s = stood s)

/-- 13 R393, R400, R401, R403: a measurement of the 36 zones and the package, no sooner than 800 ticks after the last, takes its
readings in; a zone newly dry, or a zone at TTRIP that a cooler spell has armed, goes to state 3 with its cores gated and its
running tasks parked; a zone at TWARN for 800 ticks stops its tasks with COOLTEMP. -/
def Sys2Proof.Claim.MeasurementsMoveTheZones : Prop :=
  (∀ (s : State) (rs : List ZoneReading) (p : PkgReading), rs.length ≠ 36 ∨ (∃ n, s.cool.measured = some n ∧
    s.stamp < n + 800) → exec (.sensorMeasure rs p) s = stood s) ∧
  (∀ (s : State) (rs : List ZoneReading) (p : PkgReading), rs.length = 36 →
    (∀ n, s.cool.measured = some n → n + 800 ≤ s.stamp) →
    ∃ t, exec (.sensorMeasure rs p) s = .next t ∧ t.stalled = false ∧ t.cool.measured = some s.stamp ∧
      t.cool.inlett = p.inlet ∧ t.cool.pkgflow = p.flow.toNat ∧ t.cool.lowin = decide (p.inlet.toInt < 320) ∧
      t.cool.budget = s.cool.budget ∧
      ∀ z r, rs[z]? = some r →
        (t.zone z).dry = r.dry ∧ (t.zone z).flow = r.flow ∧ (t.zone z).t0 = r.t0 ∧ (t.zone z).t1 = r.t1 ∧
        (t.zone z).t2 = r.t2 ∧ (t.zone z).t3 = r.t3 ∧ (t.zone z).valve = (s.zone z).valve ∧
        (r.dry = true → (s.zone z).state = 0 ∨ (s.zone z).state = 11 ∨ (s.zone z).tripped = true →
          (t.zone z).state = 3 ∧ (t.zone z).seq0 = s.stamp ∧ (t.zone z).tripped = false ∧
          ∀ k, under z k → (t.core k).gated = true ∧ (t.core k).run ≠ .running) ∧
        (r.dry = false → (s.zone z).tripArmed = true → s.cool.ttrip.toInt ≤ (t.zone z).tmax.toInt →
          (s.zone z).state = 0 ∨ (s.zone z).state = 11 →
          (t.zone z).state = 3 ∧ (t.zone z).tripped = true ∧
          ∀ k, under z k → (t.core k).gated = true ∧ (t.core k).run ≠ .running)) ∧
  (∀ (s : State) (rs : List ZoneReading) (p : PkgReading) (z : Nat) (r : ZoneReading), rs.length = 36 →
    (∀ n, s.cool.measured = some n → n + 800 ≤ s.stamp) → rs[z]? = some r →
    (∀ y q, rs[y]? = some q → q.dry = false ∧ (∀ x ∈ temps q, x < s.cool.ttrip.toInt) ∧ (s.zone y).valve ≠ 255 ∧
      (y ≠ z → ∀ x ∈ temps q, x < s.cool.twarn.toInt)) →
    (s.zone z).tempArmed = true → lasted (s.zone z).hotSince s.stamp 800 → (∃ x ∈ temps r, s.cool.twarn.toInt ≤ x) →
    (∀ k, under z k → (s.core k).run = .running → parksOn s k .cooltemp) →
    ∃ t, exec (.sensorMeasure rs p) s = .next t ∧ t.stalled = false ∧ (t.zone z).tempArmed = false ∧
      ∀ k, under z k → let c := s.core k
        let d := t.core k
        (c.run = .running → d.run = .parked ∧ d.stop.cause = .cooltemp ∧ fld d.sc.f.cause.toNat 8 6 = Cause.cooltemp.code ∧
          fld d.sc.f.cause.toNat 14 2 = 0 ∧ d.stop.walk = c.sc.ctr.walk ∧ d.sc.ctr = c.sc.ctr ∧ d.sc.strand = c.sc.strand) ∧
        (c.run ≠ .running → d = c)) ∧
  (∀ (s : State) (z : Nat), z < 36 → (s.zone z).tripped = true → lasted (s.zone z).coolSince s.stamp 80000 →
    ∃ t, exec (.tripUngate z) s = .next t ∧ t.stalled = false ∧ (t.zone z).tripped = false ∧ (t.zone z).state = 0) ∧
  (∀ (s : State) (z : Nat), (s.zone z).tripped = false ∨ ¬ lasted (s.zone z).coolSince s.stamp 80000 →
    exec (.tripUngate z) s = stood s) ∧
  (∀ (s : State), (s.cool.limit = false ∧
      (lasted s.cool.badSince s.stamp 800000 ∨ lasted s.cool.lowFlowSince s.stamp 800000) →
    exec .limitEnter s = moved { s with cool := { s.cool with limit := true } }) ∧
    (s.cool.limit = true ∧ lasted s.cool.goodSince s.stamp 80000000 →
    exec .limitExit s = moved { s with cool := { s.cool with limit := false } })) ∧
  ∀ (s : State), (s.cool.limit = true → exec .limitEnter s = stood s) ∧ (s.cool.limit = false → exec .limitExit s = stood s)

/-- 13 R401, Table 150: the dry-channel sequence: at t0 + 1,600 the valve closes, at + 9,600 the channel is purged, at + 409,600
the valve opens to 51, from + 1,209,600 the zone is verified; 80,000 wet ticks give the ramp, none by + 1,609,600 a new pass
with t0 so that it stands at step 4, the third time DEAD; at the end of the ramp the zone is released. Before its time, in
another state or while tripped a step waits. -/
def Obligations.DrySequenceRunsStepByStep : Prop :=
  let step := fun (i : Instr) (z fro after : Nat) (f : Zone → Zone) => ∀ s : State,
    ((s.zone z).state = fro → (s.zone z).tripped = false → (s.zone z).seq0 + after ≤ s.stamp →
      exec i s = moved (s.setZone z (f (s.zone z)))) ∧
    ((s.zone z).state = fro → s.stamp < (s.zone z).seq0 + after → exec i s = stood s) ∧
    ((s.zone z).tripped = true → exec i s = stood s)
  let elsewhere := fun (i : Instr) (z fro : Nat) => ∀ s : State, (s.zone z).state ≠ fro → exec i s = stood s
  (∀ z, step (.dryCloseValve z) z 3 1600 fun x => { x with state := 4, valve := 0 }) ∧
  (∀ z, step (.dryPurge z) z 4 9600 fun x => { x with state := 5 }) ∧
  (∀ z, step (.dryRefill z) z 5 409600 fun x => { x with state := 6, valve := 51 }) ∧
  (∀ z, step (.dryVerify z) z 6 1209600 fun x => { x with state := 7, wetSince := none }) ∧
  (∀ z, elsewhere (.dryCloseValve z) z 3 ∧ elsewhere (.dryPurge z) z 4 ∧ elsewhere (.dryRefill z) z 5 ∧
    ∀ s : State, (s.zone z).state ≠ 6 → (s.zone z).state ≠ 7 → exec (.dryVerify z) s = stood s) ∧
  (∀ (s : State) (z : Nat), (s.zone z).state = 7 → (s.zone z).tripped = false →
    (lasted (s.zone z).wetSince s.stamp 80000 → (s.zone z).seq0 + 1289600 ≤ s.stamp →
      exec (.dryVerify z) s = moved (s.setZone z { (s.zone z) with state := 8 })) ∧
    (¬ lasted (s.zone z).wetSince s.stamp 80000 →
      (s.stamp < (s.zone z).seq0 + 1609600 → exec (.dryVerify z) s = stood s) ∧
      ((s.zone z).seq0 + 1609600 ≤ s.stamp → (s.zone z).fails ≠ 2 →
        exec (.dryVerify z) s = moved (s.setZone z { (s.zone z) with
          state := 4
          valve := 0
          fails := (s.zone z).fails + 1
          seq0 := s.stamp - 1600
          wetSince := none })) ∧
      ((s.zone z).seq0 + 1609600 ≤ s.stamp → (s.zone z).fails = 2 → z < 36 →
        ∃ t, exec (.dryVerify z) s = .next t ∧ t.stalled = false ∧ (t.zone z).state = 10))) ∧
  ∀ (s : State) (z : Nat), ((s.zone z).state ≠ 9 ∨ (s.zone z).tripped = true → exec (.dryRelease z) s = stood s) ∧
    ((s.zone z).state = 9 → (s.zone z).tripped = false → z < 36 → ∃ t, exec (.dryRelease z) s = .next t ∧ t.stalled = false ∧ (t.zone z).state = 0)

/-- 13 R399, R403, Table 145: every 800 ticks the controller sets each zone's target to its reserved flow with its part of the
surplus, and the valve of a zone outside the dry sequence to the position that meets it; a zone whose valve stands wide open
below its target reads 11 (HOT) until the target is met; in a trip the valve follows its target too. In the ramp (8) the valve
moves by 16 toward it. The position itself is a free value (log 12).
-/
def Sys2Proof.Claim.ValvesFollowTheTargets : Prop :=
  (∀ (s : State) (n : Nat), s.cool.valved = some n → s.stamp < n + 800 → exec .valveUpdate s = stood s) ∧
  ∀ (s : State), (∀ n, s.cool.valved = some n → n + 800 ≤ s.stamp) →
    ∃ t, exec .valveUpdate s = .next t ∧ t.stalled = false ∧ t.cool.valved = some s.stamp ∧ t.fresh = s.fresh + 1 ∧
      t.cores = s.cores ∧ t.cool.budget = s.cool.budget ∧
      ∀ z < 36, let x := s.zone z
        let y := t.zone z
        let pos := (Config.valvePos z y.target s.fresh).toNat
        keeps x ≤ y.target ∧ (s.cool.limit = true ∨ x.held = false → y.target = keeps x) ∧
        (x.held = true → y.target ≤ max x.maxf (keeps x)) ∧ y.held = x.held ∧ y.holder = x.holder ∧
        (x.state = 0 ∨ x.state = 11 → y.valve = pos ∧
          y.state = if x.flow.toNat < y.target ∧ (pos = 255 ∨ x.state = 11) then 11 else 0) ∧
        (x.tripped = true → x.state = 3 → y.valve = pos ∧ y.state = 3) ∧
        (x.tripped = false → x.state = 8 → if pos ≤ x.valve + 16 then y.valve = pos ∧ y.state = 9
          else y.valve = x.valve + 16 ∧ y.state = 8) ∧
        (x.tripped = false → x.state ≠ 0 → x.state ≠ 8 → x.state ≠ 11 → y.valve = x.valve ∧ y.state = x.state)

namespace Sys2Proof.Claim
open Sys2Proof.Machine

/-! ## The register window (01 R18) -/

/-- A register write from the host link: the word and the offset it goes to. -/
def registerWrite (i : Instr) (o : Nat) (v : Word) : Prop :=
  (∃ c k, c < 9 ∧ k < 0x40 ∧ i = .tollCapWrite c k v ∧ o = 0x10000 + 0x40 * c + k) ∨
  (∃ c k, c < 16 ∧ k < 0x40 ∧ i = .stackBucketWrite c k v ∧ o = 0x30000 + 0x40 * c + k) ∨
  (∃ c, c < 64 ∧ i = .contextWrite c v ∧ o = 0x20000 + 16 * c) ∨
  (i = .invcmd v ∧ o = 0x20450) ∨ (i = .freeconsWrite v ∧ o = 0x20420) ∨
  (∃ r, r < 256 ∧ i = .regionWrite r v ∧ o = 0x40000 + 0x40 * r) ∨
  (∃ r, r < 256 ∧ i = .regionFillWrite r v ∧ o = 0x40018 + 0x40 * r) ∨
  (i = .dieFence v ∧ o = 0x50008) ∨ (i = .killwb v ∧ o = 0x50048) ∨ (i = .hpost v ∧ o = 0x50088) ∨
  (∃ z, z < 36 ∧ i = .coolRearm z v ∧ o = 0x60000 + 0x20 * z) ∨
  (∃ z, z < 36 ∧ i = .coolFloorWrite z v ∧ o = 0x60010 + 0x20 * z) ∨
  (i = .coolLimitsWrite v ∧ o = 0x60800) ∨ (i = .recctlWrite v ∧ o = 0x70000) ∨ (i = .keyctx v ∧ o = 0x72020) ∨
  (i = .hxgo v ∧ o = 0x72418) ∨ (o < 0x80000 ∧ o % 8 = 0 ∧ i = .regWrite o v)

/-- The interface is locked and the register at o is one that it protects then (14 R422). -/
def refused (s : State) (o : Nat) : Prop :=
  (s.trust.tdisp = .configLocked ∨ s.trust.tdisp = .run) ∧
    (0x20000 ≤ o ∧ o < 0x21000 ∨ 0x70000 ≤ o ∧ o < 0x71000)

/-- A register of plain value at o: v goes in where ok holds and reads back; another value is ignored whole (00 R6). -/
def plainRegister (o : Nat) (ok : Word → Prop) (reads : Word → Word) : Prop :=
  ∀ (s : State) (v : Word), (ok v → (s.writeReg o v).readReg o = reads v) ∧ (¬ ok v → s.writeReg o v = s)

end Sys2Proof.Claim

open Sys2Proof Sys2Proof.Machine Sys2Proof.Claim

/-- 01 R18, 14 R422, R428: a register write over the host link reaches the register at its offset; while the interface is locked
a protected register is refused with an Unsupported Request and nothing changes; without power or in recovery nothing answers. -/
def Sys2Proof.Claim.RegisterWritesReachTheirOffset : Prop :=
  ∀ (s : State) (i : Instr) (o : Nat) (v : Word), registerWrite i o v →
    (s.trust.powered = true → s.trust.recovery = false →
      (¬ refused s o → exec i s = moved (s.writeReg o v)) ∧
      (refused s o → exec i s = moved { s with sent := s.sent ++ [.unsupported o] })) ∧
    (s.trust.powered = false ∨ s.trust.recovery = true → exec i s = stood s)

/-- 00 R6, 08 Table 76, 10 Table 107, R316, 12 Table 141, 14 Tables 153, 157, 159-161: each register of plain value takes a
value without reserved bits and reads it back, and ignores any other write whole. -/
def Sys2Proof.Claim.PlainRegistersReadBackWhatTheyTake : Prop :=
  let same := fun (v : Word) => v
  let below := fun (n : Nat) (v : Word) => v.toNat < 2 ^ n
  plainRegister 0x20400 (fun v => v.toNat < 2 ^ 44 ∧ v.toNat % 2 ^ 24 = 0) same ∧
  plainRegister 0x20408 (fun v => v.toNat < 2 ^ 44 ∧ v.toNat % 8 = 0) same ∧
  plainRegister 0x20410 (fun v => v.toNat ≤ 21) same ∧
  plainRegister 0x20440 (below 52) (fun v => word (v.toNat / 2 ^ 19 * 2 ^ 19)) ∧
  plainRegister 0x20448 (below 34) same ∧
  (∀ c < 9, plainRegister (0x10000 + 0x40 * c) (below 32) same ∧ plainRegister (0x10008 + 0x40 * c) (below 16) same) ∧
  (∀ k < 16, plainRegister (0x30000 + 0x40 * k) (below 32) same ∧ plainRegister (0x30008 + 0x40 * k) (below 16) same ∧
    plainRegister (0x30018 + 0x40 * k) (fun v => 4 ≤ v.toNat ∧ v.toNat ≤ 32 ∧ v.toNat % 4 = 0) same) ∧
  (∀ c < 64, plainRegister (0x33000 + 16 * c) (fun v => v.toNat < 2 ^ 52 ∧ v.toNat % 8 = 0) same ∧
    plainRegister (0x33008 + 16 * c) (fun v => v.toNat ≤ 256) same ∧
    plainRegister (0x72200 + 8 * c) (fun _ => True) same) ∧
  (∀ r < 256, plainRegister (0x40008 + 0x40 * r) (below 24) same ∧ plainRegister (0x40010 + 0x40 * r) (below 34) same ∧
    plainRegister (0x40038 + 0x40 * r) (below 33) same) ∧
  plainRegister 0x50018 (fun v => v.toNat < 2 ^ 44 ∧ v.toNat % 2 ^ 15 = 0) same ∧
  plainRegister 0x50020 (fun v => v.toNat < 2 ^ 44 ∧ v.toNat % 2 ^ 16 = 0) same ∧
  plainRegister 0x50028 (fun _ => True) same ∧ plainRegister 0x50030 (below 32) same ∧
  plainRegister 0x50038 (fun _ => True) same ∧ plainRegister 0x50080 (fun v => v.toNat % 8 = 0) same ∧
  plainRegister 0x70008 (fun v => v.toNat < 2 ^ 44 ∧ v.toNat % 2 ^ 12 = 0) same ∧
  plainRegister 0x71080 (below 16) same ∧ plainRegister 0x72400 (fun _ => True) same ∧
  plainRegister 0x72408 (fun v => v.toNat < 2 ^ 52 ∧ v.toNat % 256 = 0) same ∧
  plainRegister 0x72410 (fun v => v.toNat < 2 ^ 32 ∧ v.toNat % 256 = 0 ∧ v ≠ 0) same ∧
  plainRegister 0x77000 (below 44) same ∧ plainRegister 0x77008 (below 44) same ∧ plainRegister 0x77010 (below 8) same

/-- 06 R188, 08 R250, R261, R267, 11 R328, 12 R366, R389, R390, Table 141, 13 R397, R401, 14 R404, R421, R427: what the writes
that act do: CAP lowers a level above it; clearing VALID erases a context's key; INVCMD issues the next invalidation; FILL takes
only 0; FENCE fences dies for good and sends the master's away; KILLWB ends the live entry it names; HPOST posts to a serai open
to the host; REARM revives a DEAD zone at step 4 with its valve closed; a read-only bit that is set in the data voids no write; SETTING begins a session; KEYCTX loads the key registers; HXGO queues its transfer. -/
def Obligations.ActingRegistersDoWhatTheyName : Prop :=
  ∀ (s : State) (v : Word), let n := v.toNat
    (∀ c < 9, n < 2 ^ 32 → ((s.writeReg (0x10000 + 0x40 * c) v).bucket c).level = min (s.bucket c).level n) ∧
    (∀ k < 16, n < 2 ^ 32 → ((s.writeReg (0x30000 + 0x40 * k) v).stack k).level = min (s.stack k).level n) ∧
    (∀ c < 64, let t := s.writeReg (0x20000 + 16 * c) v
      (fld n 44 19 ≠ 0 ∨ fld n 0 14 ≠ 0 → t = s) ∧
      (fld n 44 19 = 0 → fld n 0 14 = 0 → (t.ctx c).valid = bit n 63 ∧ (t.ctx c).root.toNat = fld n 14 30 ∧
        (bit n 63 = false → (t.ctx c).key = 0 ∧ (t.ctx c).keyok = false) ∧
        (bit n 63 = true → (t.ctx c).key = (s.ctx c).key ∧ (t.ctx c).keyok = (s.ctx c).keyok))) ∧
    (fld n 16 48 = 0 → fld n 6 8 = 0 → s.pages.inviss - s.pages.invdone ≠ 16 →
      let t := s.writeReg 0x20450 v
      t.pages.inviss = s.pages.inviss + 1 ∧ ∃ i, t.pages.invals = s.pages.invals ++ [i] ∧ i.seq = s.pages.inviss + 1 ∧
        i.ctx = (if bit n 15 then none else some (fld n 0 6)) ∧
        i.range = (if bit n 14 then none
          else some (s.pages.invaddr, s.pages.invaddr + s.pages.invlen.toNat * 2 ^ 19))) ∧
    (fld n 16 48 = 0 → fld n 6 8 = 0 → s.pages.inviss - s.pages.invdone = 16 →
      ∃ i, s.writeReg 0x20450 v = { s with pages := { s.pages with heldInv := s.pages.heldInv ++ [i] } } ∧
        i.ctx = (if bit n 15 then none else some (fld n 0 6)) ∧
        i.range = (if bit n 14 then none
          else some (s.pages.invaddr, s.pages.invaddr + s.pages.invlen.toNat * 2 ^ 19))) ∧
    (∀ c < 64, let t := s.writeReg (0x20008 + 16 * c) v
      (fld n 32 29 ≠ 0 → t = s) ∧
      (fld n 32 29 = 0 → (t.ctx c).hostio = bit n 63 ∧ (t.ctx c).lockreq = bit n 62 ∧ (t.ctx c).salt.toNat = fld n 0 32 ∧
        (t.ctx c).keyok = (s.ctx c).keyok ∧ (t.ctx c).key = (s.ctx c).key)) ∧
    (s.writeReg 0x20420 v).pages.freecons = v ∧
    (∀ r < 256, let t := s.writeReg (0x40000 + 0x40 * r) v
      (1 < fld n 61 2 ∨ bit n 58 = true ∨ fld n 0 44 ≠ 0 → t = s) ∧
      (fld n 61 2 ≤ 1 → bit n 58 = false → fld n 0 44 = 0 → (t.region r).w = bit n 60 ∧ (t.region r).r = bit n 59 ∧
        (t.region r).ctx = fld n 52 6 ∧ (t.region r).ctrl = fld n 44 8 ∧ (t.region r).fill = (s.region r).fill ∧
        (bit n 63 = false ∨ fld n 44 8 = 0 → (t.region r).valid = false) ∧
        (bit n 61 = false → (t.region r).index = false)) ∧
      (v = 0 → ((s.writeReg (0x40018 + 0x40 * r) v).region r).fill = 0) ∧
      (v ≠ 0 → s.writeReg (0x40018 + 0x40 * r) v = s)) ∧
    (n < 8 → let t := s.writeReg 0x50008 v
      t.sched.fenced = s.sched.fenced ||| BitVec.ofNat 3 n ∧
      (s.sched.master < 3 → bit n s.sched.master = true → bit s.sched.fenced.toNat s.sched.master = false →
        t.sched.electing = true)) ∧
    (8 ≤ n → s.writeReg 0x50008 v = s) ∧
    (∀ e, s.named v = some e → (s.score e).st ≠ .ended → (s.score e).wb.post = false ∨ s.postRoom = true →
      gone (s.writeReg 0x50048 v) e) ∧ (s.named v = none → s.writeReg 0x50048 v = s) ∧
    (let len := fld n 24 4
      let k := s.serai (fld n 0 12);
      fld n 28 36 = 0 → fld n 12 12 = 0 → 1 ≤ len → len ≤ 14 →
      (s.trust.tdisp ≠ .error → k.hostOk = true → k.ctx ≠ none → s.postRoom = true →
        ∃ ws : List Word, ws.length = len ∧ (s.writeReg 0x50088 v).sched.posts = s.sched.posts ++
          [{ serai := fld n 0 12, source := 1, payload := ws }] ∧
          ∀ i < len, (ws.getD i 0).toNat = leNat (getBytes s.host (s.sched.hmsg.toNat + 8 * i) 8)) ∧
      (s.trust.tdisp = .error ∨ k.hostOk = false ∨ k.ctx = none →
        (s.writeReg 0x50088 v).sched.dropped = s.sched.dropped + 1)) ∧
    (∀ z < 36, let x := s.zone z
      let reserved := fld n 42 22 ≠ 0 ∨ fld n 8 8 ≠ 0
      let reserved2 := fld n 48 15 ≠ 0 ∨ fld n 36 4 ≠ 0
      (¬ reserved → bit n 41 = true → x.state = 10 →
        let y := (s.writeReg (0x60000 + 0x20 * z) v).zone z
        y.state = 4 ∧ y.fails = 0 ∧ y.valve = 0 ∧ y.seq0 = s.stamp - 1600) ∧
      (reserved ∨ bit n 41 = false ∨ x.state ≠ 10 → s.writeReg (0x60000 + 0x20 * z) v = s) ∧
      (¬ reserved2 → fld n 0 12 ≤ capOf z →
        (s.writeReg (0x60010 + 0x20 * z) v).zone z = { x with floor := fld n 0 12 }) ∧
      (reserved2 ∨ capOf z < fld n 0 12 → s.writeReg (0x60010 + 0x20 * z) v = s)) ∧
    (fld n 48 16 = 0 → fld n 12 4 = 0 → let t := s.writeReg 0x60800 v
      t.cool.budget = fld n 0 12 ∧ t.cool.twarn.toNat = fld n 16 16 ∧ t.cool.ttrip.toNat = fld n 32 16) ∧
    (let t := s.writeReg 0x70000 v;
      (2 < n → t = s) ∧ (n ≤ 2 → t.records.setting = n) ∧
      (n = 1 ∨ n = 2 → t.records.session = s.records.session + 1 ∧ ∀ k, (t.core k).starts = 0)) ∧
    (n < 64 → let t := s.writeReg 0x72020 v
      (t.ctx n).keyok = true ∧ t.trust.keys = [0, 0, 0, 0] ∧
      ∀ i : Fin 4, (t.ctx n).key.extractLsb' (64 * i) 64 = s.trust.keys.getD i 0) ∧
    (n < 2 ^ 18 → (s.writeReg 0x72418 v).trust.moves = s.trust.moves ++ [{
      host := s.trust.hxhost, dev := s.trust.hxdev, len := s.trust.hxlen, ctx := fld n 12 6, serai := fld n 0 12 }])

namespace Sys2Proof.Claim
open Sys2Proof.Machine

/-! ## The host, peers, power, errors (14, 01) -/

/-- The package answers on its host link (14 R428). -/
def linked (s : State) : Prop := s.trust.powered = true ∧ s.trust.recovery = false

/-- An aligned doubleword of the register window. -/
def registerAt (pa n : Nat) : Prop := place pa = .reg ∧ n = 8 ∧ pa % 8 = 0

/-- DRAM or KV memory that an access from outside may reach: not plaintext of a context, within one block of 4 KiB (14 R426,
R431; the block is log 10). -/
def openTo (s : State) (pa n : Nat) : Prop :=
  (place pa = .dram ∨ place pa = .kv) ∧ 0 < n ∧ pa % 0x1000 + n ≤ 0x1000 ∧
    (place pa = .dram → bit (s.dword (s.pages.ftbase.toNat + 8 * (pa / 2 ^ 19))).toNat 37 = false)

/-- An access from outside passes its home (14 R406, R410); or it waits there. -/
def admitted (s : State) (pa n : Nat) (u : State) : Prop :=
  s.logRoom ⟨s.records.setting, 0x180, 0⟩ pa n = true ∧
    ∃ v, s.ordered ⟨s.records.setting, 0x180, 0⟩ pa n = some v ∧ u = (v.passGate hostGate pa).chargeDram pa n
def barred (s : State) (pa n : Nat) : Prop :=
  s.logRoom ⟨s.records.setting, 0x180, 0⟩ pa n = false ∨ s.ordered ⟨s.records.setting, 0x180, 0⟩ pa n = none

/-- Grains a to j of a transfer move, from state u a to state u j: each translates into plain memory, passes its home, and is
written with the host's bytes (14 R427). -/
def grainsMove (m : HostMove) (a j : Nat) (u : Nat → State) : Prop :=
  ∀ i, a ≤ i → i < j → ∃ pa w, (u i).translate m.ctx (m.dev + 256 * i) .write = .ok pa ∧ plain pa ∧
    admitted (u i) pa 256 w ∧ Config.hostFails w.fresh = false ∧
    u (i + 1) = { w with fresh := w.fresh + 1 }.write pa (getBytes w.host (m.host + word (256 * i)).toNat 256)

/-- The size of a peer's access. -/
def peerBytes : PeerOp → Nat
  | .read n => n
  | .write bs _ => bs.length
  | .atomic .. => 8

end Sys2Proof.Claim

open Sys2Proof Sys2Proof.Machine Sys2Proof.Claim

/-- 14 R426, R431, R416-R418: over a live link the host reads memory that is open to it, good bytes as they are and bad ones as
a counted poisoned completion, and registers; its writes change exactly their bytes. What is not open is answered with an
Unsupported Request and untouched. In recovery its writes go to the recovery mailbox (R428). -/
def Sys2Proof.Claim.HostReadsAndWritesOpenMemory : Prop :=
  (∀ (s u : State) (pa n : Nat), linked s → openTo s pa n → admitted s pa n u →
    (u.verify pa n = none →
      exec (.hostRead pa n) s = moved { u with sent := u.sent ++ [.read pa (u.bytes pa n) false] }) ∧
    (u.verify pa n ≠ none → ∃ t, exec (.hostRead pa n) s = .next t ∧ t.stalled = false ∧
      t.sent = u.sent ++ [.read pa (u.bytes pa n) true] ∧ t.trust.poisoned = u.trust.poisoned + 1 ∧ u.sameMemory t)) ∧
  (∀ (s : State) (pa n : Nat), linked s → registerAt pa n → exec (.hostRead pa n) s =
    moved { s with sent := s.sent ++ [.read pa (leBytes 8 (s.readReg (pa - 0x20000000000)).toNat) false] }) ∧
  (∀ (s : State) (pa n : Nat), linked s → ¬ registerAt pa n → ¬ openTo s pa n →
    exec (.hostRead pa n) s = moved { s with sent := s.sent ++ [.unsupported pa] }) ∧
  (∀ (s u : State) (pa : Nat) (bs : List Byte), linked s → openTo s pa bs.length → admitted s pa bs.length u →
    ∃ t, exec (.hostWrite pa bs) s = .next t ∧ t.stalled = false ∧ (∀ i, (h : i < bs.length) → t.byte (pa + i) = bs[i]) ∧
      changedOnly u t pa bs.length ∧ t.cores = u.cores ∧ t.sent = u.sent) ∧
  (∀ (s : State) (pa : Nat) (bs : List Byte), linked s → registerAt pa bs.length → ¬ refused s (pa - 0x20000000000) →
    exec (.hostWrite pa bs) s = moved (s.writeReg (pa - 0x20000000000) (word (leNat bs)))) ∧
  (∀ (s : State) (pa : Nat) (bs : List Byte), linked s → registerAt pa bs.length → refused s (pa - 0x20000000000) →
    exec (.hostWrite pa bs) s = moved { s with sent := s.sent ++ [.unsupported (pa - 0x20000000000)] }) ∧
  (∀ (s : State) (pa : Nat) (bs : List Byte), linked s → ¬ registerAt pa bs.length → ¬ openTo s pa bs.length →
    exec (.hostWrite pa bs) s = moved { s with sent := s.sent ++ [.unsupported pa] }) ∧
  (∀ (s : State) (pa : Nat) (bs : List Byte), s.trust.powered = true → s.trust.recovery = true →
    ∃ t, exec (.hostWrite pa bs) s = .next t ∧ t.stalled = false ∧ s.sameMemory t ∧ t.cores = s.cores ∧
      t.trust.mailbox = putBytes s.trust.mailbox pa bs) ∧
  ∀ (s : State) (pa n : Nat) (bs : List Byte), (¬ linked s → exec (.hostRead pa n) s = stood s) ∧
    (s.trust.powered = false → exec (.hostWrite pa bs) s = stood s)

/-- 14 R432, 09 R286, Table 88: a peer's access inside EXPORT to open memory performs at its home: a read is answered with its
bytes and its grains' marks, a write changes exactly its bytes, an atomic is answered with the old value and leaves what Table
88 says, nothing on a bad grain; outside EXPORT it is refused. -/
def Sys2Proof.Claim.PeersReachExportedMemory : Prop :=
  let inside := fun (s : State) (pa : Nat) (op : PeerOp) => s.trust.explo.toNat ≤ pa ∧
    pa + peerBytes op ≤ s.trust.exphi.toNat + 1 ∧ openTo s pa (peerBytes op)
  (∀ (s u : State) (pa n : Nat), s.trust.powered = true → inside s pa (.read n) → admitted s pa n u →
    exec (.peerAccess pa (.read n)) s = moved { u with
      sent := u.sent ++ [.answered pa (u.bytes pa n) ((grainsOf pa n).map u.grain)] }) ∧
  (∀ (s u : State) (pa : Nat) (bs : List Byte) (mark : BitVec 32), s.trust.powered = true → inside s pa (.write bs mark) →
    admitted s pa bs.length u →
    ∃ t, exec (.peerAccess pa (.write bs mark)) s = .next t ∧ t.stalled = false ∧
      (∀ i, (h : i < bs.length) → t.byte (pa + i) = bs[i]) ∧ changedOnly u t pa bs.length ∧
      ∀ g, pa ≤ 256 * g → 256 * g + 256 ≤ pa + bs.length → t.grain g = (mark, false)) ∧
  (∀ (s u : State) (pa : Nat) (op : AtomOp) (b c : Word), s.trust.powered = true → inside s pa (.atomic op b c) →
    pa % 8 = 0 → admitted s pa 8 u →
    ∃ t, exec (.peerAccess pa (.atomic op b c)) s = .next t ∧ t.stalled = false ∧ changedOnly u t pa 8 ∧
      t.sent = u.sent ++ [.answered pa (u.bytes pa 8) [u.grain (pa / 256)]] ∧
      (u.verify pa 8 = none → t.dword pa = (atomLeaves op (u.dword pa) b c).getD (u.dword pa)) ∧
      (u.verify pa 8 ≠ none → t.dword pa = u.dword pa)) ∧
  (∀ (s : State) (pa : Nat) (op : PeerOp), s.trust.powered = true →
    ¬ inside s pa op ∨ (peerBytes op = 8 ∧ (∃ o b c, op = .atomic o b c) ∧ pa % 8 ≠ 0) →
    exec (.peerAccess pa op) s = moved { s with sent := s.sent ++ [.refusedPeer pa] }) ∧
  ∀ (s : State) (pa : Nat) (op : PeerOp), s.trust.powered = false → exec (.peerAccess pa op) s = stood s

/-- 14 R427, R422: the oldest host transfer ends with its status posted to its serai, 6 as source code: refused with PROTECT in
ERROR or without HOSTIO, with OPERAND for a serai not of its context. Its grains move one after the other, each with the
host's bytes: after the last the status is 0; an address that does not translate ends it with the fault's cause, a host that
fails with UNCORR; before a grain that waits at its home it stops, to go on there. -/
def Obligations.HostTransfersMoveAndPost : Prop :=
  let posted := fun (s t : State) (m : HostMove) (rest : List HostMove) (status : Nat) => t.stalled = false ∧
    t.trust.moves = rest ∧ s.sameMemory t ∧ (s.postRoom = true →
    t.sched.posts = s.sched.posts ++ [{ serai := m.serai, source := 6, payload := [word status, word m.dev, word m.len] }])
  (∀ (s : State), s.trust.moves = [] → exec .hostTransferDone s = stood s) ∧
  (∀ (s : State) (m : HostMove) (rest : List HostMove), s.trust.moves = m :: rest → m.at_ = 0 →
    (s.trust.tdisp = .error ∨ (s.ctx m.ctx).hostio = false →
      ∃ t, exec .hostTransferDone s = .next t ∧ posted s t m rest Cause.protect.code) ∧
    (s.trust.tdisp ≠ .error → (s.ctx m.ctx).hostio = true → (4096 ≤ m.serai ∨ (s.serai m.serai).ctx ≠ some m.ctx) →
      ∃ t, exec .hostTransferDone s = .next t ∧ posted s t m rest Cause.operand.code)) ∧
  ∀ (s : State) (m : HostMove) (rest : List HostMove) (a n j : Nat) (u : Nat → State), s.trust.moves = m :: rest →
    m.at_ = 256 * a → m.len = 256 * n → (a = 0 → s.trust.tdisp ≠ .error ∧ (s.ctx m.ctx).hostio = true ∧ m.serai < 4096 ∧
      (s.serai m.serai).ctx = some m.ctx) →
    u a = s → a ≤ j → j ≤ n → grainsMove m a j u →
    (j = n → ∃ t, exec .hostTransferDone s = .next t ∧ posted (u n) t m rest 0) ∧
    (j < n →
      (∀ f, (u j).translate m.ctx (m.dev + 256 * j) .write = .error f →
        ∃ t, exec .hostTransferDone s = .next t ∧ posted (u j) t m rest f.cause.code) ∧
      ∀ pa, (u j).translate m.ctx (m.dev + 256 * j) .write = .ok pa →
        (∀ w, admitted (u j) pa 256 w → Config.hostFails w.fresh = true →
          ∃ t, exec .hostTransferDone s = .next t ∧ posted w t m rest Cause.uncorr.code) ∧
        (barred (u j) pa 256 → a < j →
          exec .hostTransferDone s = moved { u j with trust := { (u j).trust with
            moves := { m with at_ := 256 * j } :: rest } }) ∧
        (barred (u j) pa 256 → a = j →
          ∃ t, exec .hostTransferDone s = .next t ∧ s.sameMemory t ∧ t.trust = s.trust ∧ t.cores = s.cores))

/-- 14 R422, R428-R430, 01 R28: a transition sets the interface state; attestation after boot reports nonce, digest, version,
interface state, SETTING and the contexts' bits, signed with both identity keys; Fosyn releases the package with the first accepted image of slot A, slot B and
the mailbox, or goes to recovery; after a loss of power only flash's published state and the boot flash stand, and POWER_ON
starts the rest from reset. -/
def Sys2Proof.Claim.TrustBootAndPower : Prop :=
  (∀ (s : State) (d : Tdisp), (linked s → exec (.tdispTransition d) s = moved { s with trust := { s.trust with tdisp := d } }) ∧
    (¬ linked s → exec (.tdispTransition d) s = stood s)) ∧
  (∀ (s : State) (x : BitVec 256), linked s → s.trust.released = true →
    ∃ r : Attest, r.nonce = x ∧ r.digest = s.trust.digest ∧ r.version = s.trust.version ∧ r.tdisp = s.trust.tdisp ∧
      r.setting = s.records.setting ∧ r.bits.length = 64 ∧
      (∀ n < 64, r.bits[n]? = some ((s.ctx n).hostio, (s.ctx n).lockreq)) ∧
      exec (.spdmAttest x) s = moved { s with
        fresh := s.fresh + 1
        sent := s.sent ++ [.report r (s.trust.signed 0 r) (s.trust.signed 1 r)] }) ∧
  (∀ (s : State) (x : BitVec 256), ¬ linked s ∨ s.trust.released = false → exec (.spdmAttest x) s = stood s) ∧
  (∀ (s : State), s.trust.powered = true → s.trust.released = false → s.trust.recovery = false →
    let good := fun (i : Image) => i.edKey = s.trust.fusedEd ∧ i.mlKey = s.trust.fusedMl ∧ i.edSig = true ∧ i.mlSig = true ∧
      s.trust.fusedMin ≤ i.version
    let boots := fun (i : Image) => exec .fosynBoot s = moved { s with trust := { s.trust with
      released := true
      digest := i.digest
      version := i.version
      fusedMin := if i.raise then max s.trust.fusedMin i.version else s.trust.fusedMin } }
    (good s.trust.imageA → boots s.trust.imageA) ∧
    (¬ good s.trust.imageA → good s.trust.imageB → boots s.trust.imageB) ∧
    (¬ good s.trust.imageA → ¬ good s.trust.imageB → ∀ i, s.trust.recoveryImage = [i] → good i → boots i) ∧
    (¬ good s.trust.imageA → ¬ good s.trust.imageB → (∀ i ∈ s.trust.recoveryImage, ¬ good i) →
      exec .fosynBoot s = moved { s with trust := { s.trust with recovery := true } })) ∧
  (∀ (s : State), s.trust.powered = false ∨ s.trust.released = true ∨ s.trust.recovery = true →
    exec .fosynBoot s = stood s) ∧
  ∀ (s : State), let kept := fun (t : State) => t.stalled = false ∧ t.mem = [] ∧ t.grains = [] ∧ t.cores = [] ∧ t.crews = [] ∧
      t.sched = {} ∧ t.pages = {} ∧ t.records = {} ∧ t.banks = {} ∧ t.remote = {} ∧ t.cool = {} ∧ t.buckets = [] ∧ t.stamp = 0 ∧
      t.flash.pages = s.flash.pages ∧ t.trust.imageA = s.trust.imageA ∧ t.trust.imageB = s.trust.imageB ∧
      t.trust.fusedEd = s.trust.fusedEd ∧ t.trust.fusedMl = s.trust.fusedMl ∧ t.trust.fusedSecret = s.trust.fusedSecret ∧
      t.trust.fusedMin = s.trust.fusedMin ∧ t.trust.released = false ∧ t.trust.tdisp = .configUnlocked ∧ t.host = s.host ∧
      ∀ n, (t.region n).fill = (s.region n).fill ∧ (t.region n).index = (s.region n).index ∧
        (t.region n).version = (s.region n).version ∧ (t.region n).log = (s.region n).log ∧ (t.region n).valid = false
    (∃ t, exec .powerLoss s = .next t ∧ kept t ∧ t.trust.powered = false) ∧
    ∃ t, exec .powerOnReset s = .next t ∧ kept t ∧ t.trust.powered = true

/-- 14 R417-R419, 06 R186, R204, 11 R330: an error strikes one place: a corrected one is counted on its die, a grain is poisoned or
its hallmark mismatches, a flash page fails its next reads, a checker, a cell, a tile row, a side byte is bad. Throttling lowers
or raises the clock of a core whose task has not pinned it. -/
def Sys2Proof.Claim.ErrorsAndThrottlingStrike : Prop :=
  ∀ (s : State),
    (∀ d, exec (.eccError (.corrected d)) s =
      moved (s.setCounters d { (s.counters d) with corrected := (s.counters d).corrected + 1 })) ∧
    (∀ loc, ∃ t, exec (.eccError (.grain loc)) s = .next t ∧ t.stalled = false ∧
      t.grain (loc / 256) = ((s.grain (loc / 256)).1, true) ∧ (∀ g, g ≠ loc / 256 → t.grain g = s.grain g) ∧
      t.mem = s.mem ∧ t.cores = s.cores) ∧
    (∀ loc x, ∃ t, exec (.eccError (.mismatch loc x)) s = .next t ∧ t.stalled = false ∧
      t.grain (loc / 256) = ((s.grain (loc / 256)).1 ^^^ x, (s.grain (loc / 256)).2) ∧
      (∀ g, g ≠ loc / 256 → t.grain g = s.grain g) ∧ t.mem = s.mem ∧ t.cores = s.cores) ∧
    (∀ p n bad, ∃ t, exec (.eccError (.flashPage p n bad)) s = .next t ∧ t.stalled = false ∧
      (t.page p).failing = n ∧ (t.page p).badMark = ((s.page p).badMark || bad) ∧ (t.page p).bytes = (s.page p).bytes) ∧
    (∀ k, exec (.eccError (.checker k)) s = moved (s.setCore k { (s.core k) with checkerBad := true })) ∧
    (∀ k r c, exec (.eccError (.cell k r c)) s =
      moved (s.setCore k { (s.core k) with badCells := (r, c) :: (s.core k).badCells })) ∧
    (∀ k t r, exec (.eccError (.tileRow k true t r)) s = moved (s.setCore k { (s.core k) with
      tiles := { (s.core k).tiles with bad := (t, r) :: (s.core k).tiles.bad } })) ∧
    (∀ k t r, exec (.eccError (.tileRow k false t r)) s = moved (s.setCore k { (s.core k) with
      tiles := { (s.core k).tiles with bad := (vtile t, r) :: (s.core k).tiles.bad } })) ∧
    (∀ k o, exec (.eccError (.sideMemory k o)) s = moved (s.setCore k { (s.core k) with
      tiles := { (s.core k).tiles with sideBad := o :: (s.core k).tiles.sideBad } })) ∧
    (s.here.sc.k.clkpin = false → ∀ b, exec (.clockThrottle b) s = moved (s.setHere { s.here with slow := b })) ∧
    (s.here.sc.k.clkpin = true → exec (.clockThrottle true) s = stood s ∧
      exec (.clockThrottle false) s = moved (s.setHere { s.here with slow := false }))

namespace Sys2Proof.Claim
open Sys2Proof.Machine

/-! ## The scheduler's steps (12) -/

/-- The task of the current core has ended at its TEXIT: every engine stands there, nothing is left to perform, the matrix
engine is free (02 R42, 06 R179). -/
def atItsEnd (s : State) : Prop :=
  s.here.awake = true ∧ s.here.sc.ctr.stop = true ∧ s.here.vec.ctr.stop = true ∧ s.here.mat.ctr.stop = true ∧
    s.here.cpy.ctr.stop = true ∧ s.here.cpy.runs = [] ∧ s.here.sc.pend = none ∧ s.here.sc.loads = [] ∧
    s.here.req.path = [] ∧ s.here.mat.busy ≤ s.stamp ∧ (s.core (runnerKey s.cur)).runner = none

/-- A task starts on core c at the entry of its waybill, at span position p of n (12 R372, 02 R31, 04 Table 46). -/
def started (c : Core) (w : Waybill) (id j p n : Nat) : Prop :=
  let at0 : Counter := { walk := 0, addr := w.entry, stop := false }
  c.run = .running ∧ c.sc.ctr = at0 ∧ c.vec.ctr = at0 ∧ c.mat.ctr = at0 ∧ c.cpy.ctr = at0 ∧ c.sc.strand = [] ∧
    c.sc.flight = [] ∧ c.sc.beat = 0 ∧ c.sc.calls = [] ∧ c.job.inst = id ∧ c.job.ctx = w.ctx ∧ c.job.pos = p ∧
    c.job.count = n ∧ c.job.stages = w.stages ∧ c.job.handler = decide (w.kind = 3) ∧ c.sc.k.convoy = w.convoy ∧
    c.sc.f.range = (if w.chunk = 0 then word (w.first * 2 ^ 32 + w.count)
      else word ((w.first + j * w.chunk) * 2 ^ 32 +
        (min (w.first + j * w.chunk + w.chunk) (w.first + w.count) - (w.first + j * w.chunk))))

/-- The scratchpad of cluster c reads as zero and its tag table is empty (07 R209). -/
def freshPad (t : State) (c : Nat) : Prop :=
  (∀ a, padLoc c 0 ≤ a → a < padLoc c 0 + 0x4000000 → t.byte a = 0) ∧ (t.crew c).tags = []

/-- Instance id of entry e stands in the checkpoint area, and its clusters are free (12 R385). -/
def checkpointed (t : State) (e : Nat) (i : Inst) : Prop :=
  (∀ c ∈ i.clusters, (t.crew c).resident = none) ∧ ∃ j ∈ (t.score e).insts, j.id = i.id ∧ j.saved.isSome = true

end Sys2Proof.Claim

open Sys2Proof Sys2Proof.Machine Sys2Proof.Claim

/-- 02 R42, 12 R374, R376, R359, R370: when all four engines stand at the TEXIT and nothing is left to perform the task ends: its
core is idle and its record says ended; the last task of an instance frees its clusters, the last of a waybill ends the
waybill. Before that nothing happens. -/
def Sys2Proof.Claim.TasksEndWhenEveryEngineStops : Prop :=
  (∀ (s : State), ¬ atItsEnd s → exec .taskEnd s = stood s) ∧
  (∀ (s : State), atItsEnd s → s.instOf s.cur = none → ∃ t, exec .taskEnd s = .next t ∧ t.stalled = false ∧
    t.here.run = .idle ∧ s.sameMemory t ∧ ∀ k, k ≠ s.cur → t.core k = s.core k) ∧
  ∀ (s : State) (e : Nat) (i : Inst) (r : TaskRec), atItsEnd s → s.instOf s.cur = some (e, i) → (s.score e).insts = [i] →
    r ∈ i.tasks → r.core = s.cur → (s.score e).wb.succ = [] →
    ((∃ x ∈ i.tasks, x.core ≠ s.cur ∧ x.ended = false) → ∃ t, exec .taskEnd s = .next t ∧ t.stalled = false ∧
      t.here.run = .idle ∧ ∃ j ∈ (t.score e).insts, j.id = i.id ∧ ∀ x ∈ j.tasks, x.core = s.cur → x.ended = true ∧
        x.trig = true) ∧
    ((∀ x ∈ i.tasks, x.core ≠ s.cur → x.ended = true ∧ ((s.core x.core).run = .idle ∨ (s.core x.core).job.inst ≠ i.id)) →
      i.saved = none → (s.score e).killed = none →
      ((s.score e).again ≠ [] ∨ (s.score e).next < (s.score e).wb.instances → ∃ t, exec .taskEnd s = .next t ∧
        t.stalled = false ∧ t.here.run = .idle ∧ (t.score e).insts = [] ∧ (t.score e).st = (s.score e).st ∧
        (t.score e).done = (s.score e).done + 1 ∧ ∀ c ∈ i.clusters, (t.crew c).resident = none) ∧
      ((s.score e).again = [] → (s.score e).wb.instances ≤ (s.score e).next →
        (s.score e).wb.post = false ∨ s.postRoom = true → ∃ t, exec .taskEnd s = .next t ∧
        t.stalled = false ∧ t.here.run = .idle ∧ gone t e ∧ ∀ c ∈ i.clusters, (t.crew c).resident = none))

/-- 12 R371, R372, R359, 07 R209, 01 R22: the head of the selection order whose next instance can be placed now starts it:
every cluster it takes is resident with a fresh scratchpad, every worker runs at the entry with its place in the span, and the
waybill runs. Nothing issues without a head, while a master is elected, or before the package is released. -/
def Sys2Proof.Claim.InstancesIssueInSelectionOrder : Prop :=
  (∀ (s : State), s.selection = [] ∨ s.sched.electing = true ∨ s.trust.released = false →
    exec .instanceIssue s = stood s) ∧
  ∀ (s : State) (e : Nat) (h : Score) (l : List (Nat × Score)) (cs : List Nat), s.selection = (e, h) :: l →
    s.score e = h → s.sched.electing = false → s.distHeld s.sched.master = false → s.trust.released = true →
    s.records.setting ≠ 2 → s.launchClear h = true → (∀ i ∈ h.insts, i.saved = none) → h.again = [] →
    h.next < h.wb.instances → s.placement h s.vacant = some cs → (spanCores h.wb.shape cs).Nodup →
    let ks := spanCores h.wb.shape cs
    let id := s.sched.nextInst
    ∃ t, exec .instanceIssue s = .next t ∧ t.stalled = false ∧ (t.score e).st = .running ∧
      (t.score e).next = h.next + 1 ∧ (∃ i, (t.score e).insts = h.insts ++ [i] ∧ i.id = id ∧ i.j = h.next ∧
        i.issued = s.stamp ∧ i.clusters = cs ∧ i.tasks.map (·.core) = ks) ∧
      (∀ p k, ks[p]? = some k → started (t.core k) h.wb id h.next p ks.length) ∧
      (∀ k, k ∉ ks → t.core k = s.core k) ∧ (∀ c ∈ cs, (t.crew c).resident = some id) ∧
      (h.wb.record = false → ∀ c ∈ cs, freshPad t c)

/-- 12 R385, R386, Table 140: where the head of the selection can be placed neither now nor when the victims already chosen have
gone, the one placed instance of lower PRIO that holds a cluster it lacks gives way: it drains when its rest is short and none of its
tasks is stopped, else it is checkpointed where the area has room, else issued again where its waybill allows, else it stays. A
call on its cores puts the decision off. -/
def Sys2Proof.Claim.PreemptionFollowsTheTable : Prop :=
  (∀ (s : State) (e : Nat) (h : Score) (l : List (Nat × Score)), s.selection = (e, h) :: l →
    (s.placement h s.vacant).isSome = true ∨ s.sched.electing = true → exec .preemptDecision s = stood s) ∧
  ∀ (s : State) (e e1 : Nat) (h : Score) (i : Inst) (l : List (Nat × Score)), s.selection = (e, h) :: l →
    s.placed = [(e1, i)] → e1 ≠ e → i.draining = false → i ∈ (s.score e1).insts → (s.score e1).wb.prio < h.tokens s.stamp →
    i.clusters.any (s.lacks h s.vacant) = true → (s.score e1).killed = none → s.sched.electing = false → s.placement h s.vacant = none →
    let c := s.score e1
    let short := c.wb.est - (s.stamp - i.issued) ≤ s.sched.drainT.toNat ∧ ∀ r ∈ i.tasks, (s.core r.core).run ≠ .parked
    let calls := ∃ r ∈ i.tasks, (s.core (runnerKey r.core)).runner.isSome = true
    let room := s.sched.ckUsed + i.units ≤ s.sched.ckunits.toNat
    (short → ∃ t, exec .preemptDecision s = .next t ∧ t.stalled = false ∧ t.cores = s.cores ∧
      ∃ j ∈ (t.score e1).insts, j.id = i.id ∧ j.draining = true) ∧
    (¬ short → calls → exec .preemptDecision s = stood s) ∧
    (¬ short → ¬ calls → room → ∃ t, exec .preemptDecision s = .next t ∧ t.stalled = false ∧ checkpointed t e1 i ∧
      t.sched.ckUsed = s.sched.ckUsed + i.units) ∧
    (¬ short → ¬ calls → ¬ room → c.wb.reissueOk = true → ∃ t, exec .preemptDecision s = .next t ∧ t.stalled = false ∧
      (t.score e1).again = c.again ++ [i.j] ∧ (t.score e1).reissues = c.reissues + 1 ∧
      (∀ j ∈ (t.score e1).insts, j.id ≠ i.id) ∧ ∀ c ∈ i.clusters, (t.crew c).resident = none) ∧
    (¬ short → ¬ calls → ¬ room → c.wb.reissueOk = false → exec .preemptDecision s = stood s)

/-- 12 R367: a bound serai with a message launches its handler on D0's scoreboard (the master's when D0 is fenced), one at a
time. -/
def Sys2Proof.Claim.HandlersLaunchForMessages : Prop :=
  (∀ (s u : State) (n ctx e prod cons : Nat) (w : Waybill), (s.serai n).ctx = some ctx → (s.serai n).bound = some w →
    (s.serai n).running = none → (s.serai n).bad = false → s.sched.electing = false → s.distHeld s.sched.master = false →
    s.seraiCounts ctx (s.serai n) = (.ok (prod, cons), u) →
    lowestFree s (if bit s.sched.fenced.toNat 0 then s.sched.master else 0) e →
    (prod ≤ cons → exec (.handlerLaunch n) s = stood s) ∧
    (cons < prod → w.record = false → w.fencedOut s.sched.fenced = false →
      ∃ t, exec (.handlerLaunch n) s = .next t ∧ t.stalled = false ∧
        (t.score e).wb = w ∧ (t.score e).seq = (s.score e).seq + 1 ∧ (t.score e).bySerai = some n ∧
        (t.score e).msg = word ((s.serai n).ring.toNat + 256 + 128 * (cons % ((s.serai n).slots + 1))) ∧
        (t.serai n).running = some e ∧ (∀ j, j ≠ e → t.score j = s.score j) ∧ t.cores = s.cores ∧ s.sameMemory t)) ∧
  ∀ (s : State) (n : Nat), (s.serai n).running.isSome = true ∨ (s.serai n).bound = none ∨ s.sched.electing = true →
    exec (.handlerLaunch n) s = stood s

/-- 12 R366, 14 R417, R418: the posts held for a serai arrive in their order: the first of them goes into the next slot of its
ring, the others keep their places, and the first that waited at its source is held then. It waits while the ring is full, and
is dropped and counted where the ring does not translate or its header or slot cannot be used. -/
def Sys2Proof.Claim.PostsArriveInOrder : Prop :=
  ∀ (s : State) (n : Nat) (p : Post) (l1 l2 : List Post), s.sched.electing = false → s.distHeld s.sched.master = false →
    s.sched.posts = l1 ++ p :: l2 → (∀ x ∈ l1, x.serai ≠ n) → p.serai = n → p.slot = none → p.ack = none →
    let q := s.serai n
    let left := fun (t : State) =>
      (s.sched.sources = [] → t.sched.posts = l1 ++ l2 ∧ t.sched.sources = []) ∧
      ∀ x xs, s.sched.sources = x :: xs → s.sched.posts.length = 16384 → x.ends = none →
        t.sched.posts = l1 ++ l2 ++ [x] ∧ t.sched.sources = xs
    let drops := ∃ t, exec (.devicePostDeliver n) s = .next t ∧ t.stalled = false ∧ left t ∧
      t.sched.dropped = s.sched.dropped + 1
    (q.ctx = none → drops) ∧
    ∀ ctx, q.ctx = some ctx →
      (∀ f, s.translate ctx q.ring.toNat .both = .error f → drops) ∧
      ∀ head, s.translate ctx q.ring.toNat .both = .ok head → plain head →
        (s.verify head 16 ≠ none → drops) ∧
        (s.verify head 16 = none →
          let prod := (s.dword head).toNat
          let cons := (s.dword (head + 8)).toNat
          (q.slots + 1 ≤ prod - cons → exec (.devicePostDeliver n) s = stood s) ∧
          (prod - cons < q.slots + 1 →
            let slot := q.ring.toNat + 256 + 128 * (prod % (q.slots + 1))
            (∀ f, s.translate ctx slot .write = .error f → drops) ∧
            ∀ pa, s.translate ctx slot .write = .ok pa → plain pa →
              (s.partBad pa 128 ≠ none → drops) ∧
              (s.partBad pa 128 = none → p.payload.length ≤ 14 → (pa + 128 ≤ head ∨ head + 8 ≤ pa) →
                ∃ t, exec (.devicePostDeliver n) s = .next t ∧ t.stalled = false ∧ left t ∧
                  t.sched.dropped = s.sched.dropped ∧
                  t.dword pa = word (p.source * 2 ^ 56 + p.payload.length * 2 ^ 52) ∧ t.dword (pa + 8) = word prod ∧
                  (∀ i < 14, t.dword (pa + 16 + 8 * i) = p.payload.getD i 0) ∧ t.dword head = word (prod + 1) ∧
                  ∀ a, (a < pa ∨ pa + 128 ≤ a) → (a < head ∨ head + 8 ≤ a) → t.byte a = s.byte a)))

/-- 12 R389, R388, 14 R420, 02 R41: an election makes the lowest die that is not fenced master; a die whose control fails, or
whose ASSAY count rises by ASSAYLIM within 80,000,000 ticks, is fenced, once. A deadlocked worker's task takes SEALFAULT, one
that has issued nothing for the limit WATCHDOG, at the word its first engine waits on; a worker that rests in WAIT or TRET takes
none. -/
def Obligations.ElectionsFencesAndWatchdogs : Prop :=
  (∀ (s : State) (d : Nat), d < 3 → bit s.sched.fenced.toNat d = false → (∀ j < d, bit s.sched.fenced.toNat j = true) →
    (s.sched.electing = true → ∃ t, exec .masterElection s = .next t ∧ t.stalled = false ∧ t.sched.master = d ∧
      t.sched.electing = false ∧ t.cores = s.cores) ∧
    (s.sched.electing = false → exec .masterElection s = stood s)) ∧
  (∀ (s : State) (d : Nat) (b : Bool), d < 3 →
    let near := ((s.counters d).recent.filter fun t => decide (s.stamp ≤ t + 80000000)).length
    let fails := b = true ∨ (s.trust.assaylim ≠ 0 ∧ s.trust.assaylim ≤ near)
    (bit s.sched.fenced.toNat d = false → fails → ∃ t, exec (.dieFailure d b) s = .next t ∧ t.stalled = false ∧
      bit t.sched.fenced.toNat d = true ∧ (s.sched.master = d → t.sched.electing = true)) ∧
    (bit s.sched.fenced.toNat d = true ∨ ¬ fails → exec (.dieFailure d b) s = stood s)) ∧
  (∀ (s : State), (s.deadlocked = false → exec .sealfault s = stood s) ∧
    ∀ e, s.deadlocked = true → s.here.firstEngine = some e → s.parks .sealfault →
      ∃ t, exec .sealfault s = .next t ∧ s.enteredAt t e (s.here.waitsAt e) { cause := .sealfault }) ∧
  ∀ (s : State), s.here.awake = true →
    let rests := s.here.sc.ctr.stop = false ∧ ∃ w, s.scalarWord = some w ∧
      ((∃ a, instrOf w = .waitTick a) ∨ (∃ a, instrOf w = .waitSerai a) ∨ ∃ a, instrOf w = .tret a)
    (s.stamp - s.here.lastIssue < s.sched.wdlimit.toNat ∨ rests → exec .watchdog s = stood s) ∧
    ∀ e, s.sched.wdlimit.toNat ≤ s.stamp - s.here.lastIssue → ¬ rests → s.here.firstEngine = some e →
      s.parks .watchdog → ∃ t, exec .watchdog s = .next t ∧ s.enteredAt t e (s.here.waitsAt e) { cause := .watchdog }

namespace Sys2Proof.Claim
open Sys2Proof.Machine

/-! ## Bank units and timetables (10 R292-R312) -/

/-- The unit whose turn it is, as it stands in a state. -/
def turn (s : State) : BankUnit := s.unit s.curUnit

/-- The unit whose turn it is becomes b, and nothing else happens. -/
def unitGoes (s : State) (b : BankUnit) : Host.Outcome State Fault Refusal :=
  .next { s.setUnit s.curUnit b with stalled := false }

/-- The unit's progress past a word (10 Table 102): the next word, or the same one while REP has repeats left. -/
def onward (b x : BankUnit) : BankUnit :=
  match b.rep with
  | some (n + 2) => { x with rep := some (n + 1) }
  | _ => { x with rep := none, pc := x.pc + 1 }

/-- In a command, where the unit meets a condition, a word of the unit's program turns its unit b into x as `rel` says; after
a REP of 0 it is skipped. -/
def wordDoes (pre : BankUnit → Prop) (i : Instr) (rel : BankUnit → BankUnit → Prop) : Prop :=
  ∀ s : State, (turn s).run.isSome = true → pre (turn s) →
    ((turn s).rep = some 0 → exec i s = unitGoes s { turn s with rep := none, pc := (turn s).pc + 1 }) ∧
    ((turn s).rep ≠ some 0 → ∃ x, rel (turn s) x ∧ exec i s = unitGoes s (onward (turn s) x))

/-- Lanes of a value in MODE 0 and 1 (10 R294). -/
def unitBits (m : Bool) : Nat := if m then 16 else 8
def lane (n : Nat) (v : BitVec 512) (l : Nat) : BitVec n := v.extractLsb' (n * l) n
def lanes (m : Bool) (w : BitVec 512) (f : (l : Nat) → BitVec (unitBits m)) : Prop :=
  ∀ l, l < 512 / unitBits m → lane (unitBits m) w l = f l

/-- An integer clamped to a signed number of n bits. -/
def clampTo (n : Nat) (x : Int) : Int := max (-(2 ^ (n - 1))) (min (2 ^ (n - 1) - 1) x)

/-- What the unit becomes when v is written to a port that takes effect in the unit alone (10 Tables 102 and 104). -/
def portTakes (d : Nat) (v : BitVec 512) (b x : BankUnit) : Prop :=
  let n := unitBits b.st.mode
  let o := fun (p : Nat) (l : Nat) => lane (unitBits b.st.mode) (b.st.port p) l
  let u := fun (l : Nat) => lane (unitBits b.st.mode) v l
  if d < 8 then x = { b with st := { b.st with h := b.st.h.set d v } }
  else match d with
  | 0x09 => x = { b with st := { b.st with rcur := v.setWidth 24 } }
  | 0x0A => x = { b with st := { b.st with wcur := v.setWidth 24 } }
  | 0x0B => x = { b with st := { b.st with k := v.setWidth 32 } }
  | 0x0C => x = { b with st := { b.st with k := b.st.k - 1, g := decide (b.st.k ≠ 1) } }
  | 0x0E => x = { b with st := { b.st with mode := decide (v.toNat % 2 ^ 32 = 1) } }
  | 0x11 => x = { b with st := { b.st with g := decide (v.toNat % 2 ^ 32 ≠ 0) } }
  | 0x13 => ∃ w, lanes b.st.mode w (fun l => o 0x12 l + u l) ∧ x = { b with st := b.st.setPort 0x14 w }
  | 0x16 => ∃ w, lanes b.st.mode w (fun l => if (o 0x15 l).slt (u l) then u l else o 0x15 l) ∧
      x = { b with st := b.st.setPort 0x17 w }
  | 0x19 => ∃ w, lanes b.st.mode w (fun l => if (o 0x18 l).slt (u l) then BitVec.allOnes n else 0) ∧
      x = { b with st := { (b.st.setPort 0x1A w) with g := (o 0x18 0).slt (u 0) } }
  | 0x1C => ∃ w, lanes b.st.mode w (fun l => (u l).sshiftRight ((b.st.port 0x1B).toNat % 2 ^ 16)) ∧
      x = { b with st := b.st.setPort 0x1D w }
  | 0x1F =>
    let sum := fun (l : Nat) => (o 0x1E l).toInt * (u l).toInt + (b.st.acc.getD l 0).toInt
    ∃ acc, acc.length = b.st.acc.length ∧
      (∀ l, l < b.st.acc.length → acc[l]? = if l < 512 / n then some (BitVec.ofInt 32 (clampTo 32 (sum l))) else b.st.acc[l]?) ∧
      x = { b with
        st := { b.st with acc := acc }
        sat := b.sat || (List.range (min b.st.acc.length (512 / n))).any fun l => clampTo 32 (sum l) != sum l }
  | 0x20 => x = { b with st := { b.st with acc := List.replicate 64 0 } }
  | 0x22 =>
    let down := fun (c : BitVec 32) => (c.sshiftRight ((b.st.port 0x21).toNat % 2 ^ 16)).toInt
    ∃ w, (∀ l c, l < 512 / n → b.st.acc[l]? = some c → lane n w l = BitVec.ofInt n (clampTo n (down c))) ∧
      x = { b with
        st := b.st.setPort 0x23 w
        sat := b.sat || (b.st.acc.take (512 / n)).any fun c => clampTo n (down c) != down c }
  | 0x12 | 0x15 | 0x18 | 0x1B | 0x1E | 0x21 => x = { b with st := b.st.setPort d v }
  | _ => False

/-- The value that a port other than COL reads as (10 Table 102). -/
def portGives (x : UnitState) (p : Nat) (v : BitVec 512) : Prop :=
  if p < 8 then x.h[p]? = some v
  else match p with
  | 0x09 => v = x.rcur.setWidth 512
  | 0x0A => v = x.wcur.setWidth 512
  | 0x0B => v = x.k.setWidth 512
  | 0x0E => v = if x.mode then 1 else 0
  | 0x11 => v = if x.g then 1 else 0
  | 0x14 | 0x17 | 0x1A | 0x1D | 0x23 => v = x.port p
  | 0x24 | 0x25 | 0x26 | 0x27 => ∀ i, i < 16 → x.acc[16 * (p - 0x24) + i]? = some (v.extractLsb' (32 * i) 32)
  | _ => False

/-- The word that writes v to a port with a word of its own. -/
def portInstr (d : Nat) (v : BitVec 512) : Option Instr :=
  match d with
  | 0x08 => some (.colWrite v) | 0x0C => some (.kdec v) | 0x0D => some (.pcWrite v) | 0x0E => some (.modeWrite v)
  | 0x0F => some (.ret v) | 0x10 => some (.rep v) | 0x13 => some (.addT v) | 0x16 => some (.maxT v) | 0x19 => some (.cmpT v)
  | 0x1C => some (.shfT v) | 0x1F => some (.macT v) | 0x20 => some (.accz v) | 0x22 => some (.pakT v)
  | _ => none

/-- A guard of a move word holds in a unit (10 Table 103). -/
def guarded (g : BitVec 2) (b : BankUnit) : Prop := g = 0 ∨ g = 1 ∧ b.st.g = true ∨ g = 2 ∧ b.st.g = false

/-- The value of an immediate (10 R295). -/
def immediate (i : BitVec 16) : BitVec 512 := BitVec.ofNat 512 (i.signExtend 32).toNat

/-- The command of unit u has faulted with cause c: the call it ran for is answered FAULT; a timetable's channel stands in
FAULT with the cause and the group, the running channels of its X.BANKGO are told to stop and the armed ones go back to LOADED
(10 R296, R305). -/
def commandFaults (s t : State) (u : Nat) (r : UnitRun) (c : Cause) : Prop :=
  t.stalled = false ∧ (t.unit u).run = none ∧
  (∀ id q, r.call = some id → s.callAt id = some q → replied s t id q .fault c.code (s.unit u).sat false []) ∧
  (r.call = none → (s.chan (u / 8)).st = .running →
    (t.chan (u / 8)).st = .fault ∧ (t.chan (u / 8)).cause = c.code ∧ (t.chan (u / 8)).group = u % 8 ∧
    (t.chan (u / 8)).entry = (s.chan (u / 8)).entry ∧
    ∀ n, n ≠ u / 8 → t.chan n =
      if (s.chan n).owner ≠ (s.chan (u / 8)).owner then s.chan n
      else if (s.chan n).st = .running then { s.chan n with stopping := true }
      else if (s.chan n).st = .armed then { s.chan n with st := .loaded }
      else s.chan n)

/-- A location lies in the window of a command (10 R298). -/
def inWindow (r : UnitRun) (pa : Nat) : Prop := ∃ w ∈ r.window, w.1 ≤ pa ∧ pa < w.1 + w.2

/-- The line that a cursor names (10 R292). -/
def lineAt (s : State) (c : BitVec 24) : Nat := s.curUnit * 2 ^ 30 + c.toNat * 64

/-- A command of the channel's timetable waits or runs. -/
def waving (s : State) (ch : Nat) : Prop :=
  (∃ q ∈ (s.stack (ch / 8)).waiting, q.call = none ∧ q.unit / 8 = ch) ∨
    ∃ g r, g < 8 ∧ (s.unit (8 * ch + g)).run = some r ∧ r.call = none

/-- The ticks that a command may run (10 R296, R319), and whether it has run longer. -/
def limitOf (r : UnitRun) : Nat := if r.call.isSome then 32768 else 65536

/-- A COL access of the unit at pa may perform: a timetable's is behind the accesses of its X.BANKGO's worker that come first
(10 R308); recording off. -/
def colFree (s : State) (r : UnitRun) (pa : Nat) (ks : Kinds) : Prop :=
  r.who.mode = 0 ∧ (r.call.isSome = true ∨ s.chanHeld (s.curUnit / 8) pa 64 ks = false)

/-- A timetable entry's fields (10 Table 106). -/
def kindOf (w : Word) : Nat := w.toNat / 2 ^ 60
def durOf (w : Word) : Nat := w.toNat % 2 ^ 16

/-- The commands a RUN entry puts to its stack: one for each group named, ascending (10 R304, R310). -/
def waveOf (ch : Nat) (w : Word) (qs : List BankCmd) : Prop :=
  qs.map (·.unit) = ((List.range 8).filter fun g => bit w.toNat (52 + g)).map (8 * ch + ·) ∧
    ∀ q ∈ qs, q.call = none ∧ q.toll = (durOf w + 3) / 4 ∧ q.entry = w.toNat / 2 ^ 48 % 16 ∧
      q.keep = bit w.toNat 40 ∧ q.line = w.toNat / 2 ^ 16 % 2 ^ 24

end Sys2Proof.Claim

open Sys2Proof Sys2Proof.Machine Sys2Proof.Claim

/-- 10 R294, R295, R296, R297, Tables 102-104: the words of a unit's program. A trigger, MODE, KDEC and ACCZ do to their unit
what their port says, and the program goes on; a REP repeats the next word or skips it. A move or an immediate whose guard holds
writes its value as that port's word does, or to the plain port it names; one whose guard fails moves nothing. -/
def Sys2Proof.Claim.UnitWordsActOnTheirPorts : Prop :=
  (∀ v : BitVec 512,
    wordDoes (fun _ => True) (.addT v) (portTakes 0x13 v) ∧ wordDoes (fun _ => True) (.maxT v) (portTakes 0x16 v) ∧
    wordDoes (fun _ => True) (.cmpT v) (portTakes 0x19 v) ∧ wordDoes (fun _ => True) (.shfT v) (portTakes 0x1C v) ∧
    wordDoes (fun _ => True) (.macT v) (portTakes 0x1F v) ∧ wordDoes (fun _ => True) (.pakT v) (portTakes 0x22 v) ∧
    wordDoes (fun _ => True) (.accz v) (portTakes 0x20 v) ∧ wordDoes (fun _ => True) (.kdec v) (portTakes 0x0C v) ∧
    (v.toNat % 2 ^ 32 < 2 → wordDoes (fun _ => True) (.modeWrite v) (portTakes 0x0E v))) ∧
  (∀ (s : State) (g : BitVec 2) (d p : BitVec 6) (v : BitVec 512) (i : Instr), (turn s).run.isSome = true →
    guarded g (turn s) → portGives (turn s).st p.toNat v → portInstr d.toNat v = some i →
    exec (.move g d p) s = exec i s) ∧
  (∀ (s : State) (g : BitVec 2) (d : BitVec 6) (k : BitVec 16) (i : Instr), (turn s).run.isSome = true →
    guarded g (turn s) → portInstr d.toNat (immediate k) = some i → exec (.moveImm g d k) s = exec i s) ∧
  (∀ (g : BitVec 2) (d p : BitVec 6) (v : BitVec 512),
    (d.toNat < 8 ∨ d.toNat ∈ [0x09, 0x0A, 0x0B, 0x11, 0x12, 0x15, 0x18, 0x1B, 0x1E, 0x21]) →
    wordDoes (fun b => guarded g b ∧ portGives b.st p.toNat v) (.move g d p) (portTakes d.toNat v) ∧
    ∀ k, wordDoes (guarded g) (.moveImm g d k) (portTakes d.toNat (immediate k))) ∧
  ∀ (g : BitVec 2) (d p : BitVec 6) (k : BitVec 16), g ≠ 3 →
    let pre := fun (b : BankUnit) => ¬ guarded g b ∧ (d.toNat ∉ [0x0D, 0x0F, 0x10] ∨ b.rep = none)
    wordDoes pre (.move g d p) (fun b x => x = b) ∧ wordDoes pre (.moveImm g d k) (fun b x => x = b)

/-- 10 R298, R308: COL. A write puts the line at WCUR and moves the cursor; where its grain was bad or poisoned it lands, stays
so and faults the command. A move from COL verifies the grain, reads the line at RCUR, moves the cursor, and then writes as a
move of that value. A line outside the command's window faults with PROTECT; an access of a timetable's command waits for the
accesses of its X.BANKGO's worker that come first. Recording off, here. -/
def Obligations.ColumnAccessesStayInTheirWindow : Prop :=
  (∀ (s : State) (r : UnitRun) (v : BitVec 512), (turn s).run = some r → (turn s).rep = none →
    let b := turn s
    let pa := lineAt s b.st.wcur
    (¬ inWindow r pa → ∃ t, exec (.colWrite v) s = .next t ∧ commandFaults s t s.curUnit r .protect ∧ s.sameMemory t) ∧
    (inWindow r pa → r.call = none → s.chanHeld (s.curUnit / 8) pa 64 { cw := true } = true →
      exec (.colWrite v) s = stood s) ∧
    (inWindow r pa → colFree s r pa { cw := true } →
      (s.verify pa 64 = none → ∃ t, exec (.colWrite v) s = .next t ∧ t.stalled = false ∧ t.bytes pa 64 = leBytes 64 v.toNat ∧
        changedOnly s t pa 64 ∧ (∀ g, t.grain g = s.grain g) ∧ t.cores = s.cores ∧ (∀ u, u ≠ s.curUnit → t.unit u = s.unit u) ∧
        t.unit s.curUnit = { b with st := { b.st with wcur := b.st.wcur + 1 }, pc := b.pc + 1 }) ∧
      ∀ c, s.verify pa 64 = some c → ∃ t, exec (.colWrite v) s = .next t ∧ commandFaults s t s.curUnit r c ∧
        t.bytes pa 64 = leBytes 64 v.toNat ∧ changedOnly s t pa 64 ∧ ∀ g, t.grain g = s.grain g)) ∧
  ∀ (s : State) (r : UnitRun) (g : BitVec 2) (d : BitVec 6), (turn s).run = some r → (turn s).rep = none →
    guarded g (turn s) → d.toNat < 0x23 →
    let b := turn s
    let pa := lineAt s b.st.rcur
    let line := BitVec.ofNat 512 (leNat (s.bytes pa 64))
    let next := { b with st := { b.st with rcur := b.st.rcur + 1 } }
    (¬ inWindow r pa → ∃ t, exec (.move g d 8) s = .next t ∧ commandFaults s t s.curUnit r .protect ∧ s.sameMemory t) ∧
    (inWindow r pa → colFree s r pa { cr := true } → s.records.waiting = [] →
      (s.verify pa 64 = none →
        (∀ i, portInstr d.toNat line = some i → exec (.move g d 8) s = exec i (s.setUnit s.curUnit next)) ∧
        (d.toNat < 8 ∨ d.toNat ∈ [0x09, 0x0A, 0x0B, 0x11, 0x12, 0x15, 0x18, 0x1B, 0x1E, 0x21] →
          ∃ x, portTakes d.toNat line next x ∧ exec (.move g d 8) s = unitGoes s { x with pc := x.pc + 1 })) ∧
      ∀ c, s.verify pa 64 = some c →
        ∃ t, exec (.move g d 8) s = .next t ∧ commandFaults s t s.curUnit r c ∧ s.sameMemory t)

/-- 10 R294, R296, R307, R321: PC, REP, RET and a clasp move. RET ends the command: a call's reply carries the value's eight
words, and the state that the call set aside comes back. None of them may follow a REP, MODE takes 0 or 1 alone, and a
timetable's command ends after 65,536 ticks, at its RET at the latest, a call's at its RET after 32,768: OPERAND and WATCHDOG. -/
def Sys2Proof.Claim.SteeringWordsJumpRepeatAndEnd : Prop :=
  (∀ (s : State) (r : UnitRun) (v : BitVec 512) (l : BitVec 16), (turn s).run = some r → (turn s).rep = none →
    s.stamp ≤ r.started + limitOf r →
    exec (.pcWrite v) s = unitGoes s { turn s with pc := v.toNat % 256 } ∧
    exec (.rep v) s = unitGoes s { turn s with rep := some (v.toNat % 2 ^ 16), pc := (turn s).pc + 1 } ∧
    exec (.claspMove l) s = unitGoes s { turn s with pc := (turn s).pc + 1 } ∧
    ∃ t, exec (.ret v) s = .next t ∧ t.stalled = false ∧ t.unit s.curUnit =
        { turn s with run := none, aside := none, st := (turn s).aside.getD (turn s).st } ∧
      (∀ id q, r.call = some id → s.callAt id = some q → replied s t id q .done 0 (turn s).sat false
        ((List.range 8).map fun i => v.extractLsb' (64 * i) 64)) ∧
      (r.call = none → t.remote = s.remote ∧ (t.chan (s.curUnit / 8)).doneAt = max (s.chan (s.curUnit / 8)).doneAt s.stamp) ∧
      s.sameMemory t) ∧
  (∀ (s : State) (r : UnitRun) (v : BitVec 512), (turn s).run = some r → (turn s).rep = none →
    r.started + limitOf r < s.stamp →
    ∃ t, exec (.ret v) s = .next t ∧ commandFaults s t s.curUnit r .watchdog ∧ s.sameMemory t) ∧
  (∀ (s : State) (r : UnitRun) (v : BitVec 512) (l : BitVec 16), (turn s).run = some r → (turn s).rep.isSome = true →
    ∀ i ∈ [Instr.pcWrite v, .rep v, .ret v, .claspMove l],
      ∃ t, exec i s = .next t ∧ commandFaults s t s.curUnit r .operand ∧ s.sameMemory t) ∧
  (∀ (s : State) (r : UnitRun) (v : BitVec 512), (turn s).run = some r → (turn s).rep ≠ some 0 → 2 ≤ v.toNat % 2 ^ 32 →
    ∃ t, exec (.modeWrite v) s = .next t ∧ commandFaults s t s.curUnit r .operand ∧ s.sameMemory t) ∧
  ∀ s : State,
    (∀ r, (turn s).run = some r → r.call = none → r.started + 65536 < s.stamp →
      ∃ t, exec .bankCmdWatchdog s = .next t ∧ commandFaults s t s.curUnit r .watchdog) ∧
    ((∀ r, (turn s).run = some r → r.call = none → s.stamp ≤ r.started + 65536) → exec .bankCmdWatchdog s = stood s)

/-- 10 R296, R299, R304, R307, R312: an upload that no earlier command precedes replaces store and entry table between
commands. The first command waiting at a stack issues once its unit is between commands, the stack's level admits its toll and
the channel has fewer active units than PERMIT ÷ 4, with PERMIT at most 16 in limited mode (13 R403): its unit starts at the
word its entry names, with SAT 0; otherwise the stack serves none, though a later one were ready. -/
def Sys2Proof.Claim.CommandsAndImagesReachTheirUnit : Prop :=
  (∀ s : State,
    (∀ ws rest, (turn s).run = none → (turn s).uploads = (0, ws) :: rest → exec .bankImageLoad s = unitGoes s { turn s with
      store := ws.drop 16
      entries := (ws.take 16).map (fun w => if w = 0x80000000 then none else some w.toNat)
      uploads := rest }) ∧
    ((turn s).run.isSome = true ∨ (turn s).uploads = [] ∨ (∃ n ws rest, (turn s).uploads = (n + 1, ws) :: rest) →
      exec .bankImageLoad s = stood s)) ∧
  (∀ (s : State) (k : Nat) (q : BankCmd) (rest : List BankCmd), (s.stack k).waiting = q :: rest → q.call = none →
    (s.unit q.unit).run.isSome = true ∨ (∃ ws l, (s.unit q.unit).uploads = (0, ws) :: l) →
    exec (.bankCmdIssue k) s = stood s) ∧
  ∀ (s : State) (k : Nat) (q : BankCmd) (rest : List BankCmd), (s.stack k).waiting = q :: rest → q.call = none →
    (s.unit q.unit).run = none → (∀ p, (s.unit q.unit).uploads.head? = some p → p.1 ≠ 0) →
    (s.chan (q.unit / 8)).lastCmd ≠ some s.stamp →
    let st := s.stack k
    let b := s.unit q.unit
    let active := ((List.range 8).filter fun g => (s.unit (q.unit / 8 * 8 + g)).run.isSome).length
    let admitted := (q.toll : Int) ≤ st.level ∨ st.level = st.cap ∧ st.cap < q.toll
    let permit := if s.cool.limit then min st.permit 16 else st.permit
    (admitted ∧ 4 * (active + 1) ≤ permit → ∃ t, exec (.bankCmdIssue k) s = .next t ∧ t.stalled = false ∧
      t.stack k = { st with level := st.level - q.toll, waiting := rest } ∧
      (∀ n, n ≠ q.unit → t.unit n = s.unit n) ∧ t.cores = s.cores ∧ s.sameMemory t ∧
      ∀ p, b.entries[q.entry]? = some (some p) → (t.chan (q.unit / 8)).lastCmd = some s.stamp ∧ ∃ x, t.unit q.unit = x ∧
        x.pc = p ∧ x.sat = false ∧ x.rep = none ∧ x.store = b.store ∧ x.run = some ⟨s.stamp, q.window, none, q.cls, q.who⟩ ∧
        x.st = if q.keep then b.st else { b.st with rcur := BitVec.ofNat 24 q.line, wcur := BitVec.ofNat 24 q.line }) ∧
    (¬ admitted ∨ permit < 4 * (active + 1) → exec (.bankCmdIssue k) s = stood s)

/-- 10 R300-R306, R301, R309: the channels of one X.BANKGO start together at their tick; an entry begins at the later of its
nominal start plus the slip and the end of the one before, puts its wave to the stack or charges a refresh, and ends once its
time is over and its wave has ended; the slip grows by what it is late. A refresh more than 24,960 ticks late is forced, and the
slip grows by the time this takes (any value). -/
def Sys2Proof.Claim.TimetablesRunTheirEntries : Prop :=
  (∀ (s : State) (n : Nat), (s.chan n).st = .armed → (s.chan n).start ≤ s.stamp →
    ∃ t, exec (.timetableStart n) s = .next t ∧ t.stalled = false ∧ t.cores = s.cores ∧ ∀ m,
      if (s.chan m).st = .armed ∧ (s.chan m).owner = (s.chan n).owner then
        (t.chan m).st = .running ∧ (t.chan m).entry = 0 ∧ (t.chan m).nominal = (s.chan n).start ∧ (t.chan m).began = none ∧
        (t.chan m).slip = (s.chan m).slip ∧ (t.chan m).table = (s.chan m).table
      else t.chan m = s.chan m) ∧
  (∀ (s : State) (n : Nat), (s.chan n).st ≠ .armed ∨ s.stamp < (s.chan n).start → exec (.timetableStart n) s = stood s) ∧
  (∀ (s : State) (n : Nat) (w : Word), (s.chan n).st = .running → (s.chan n).table[(s.chan n).entry]? = some w →
    let c := s.chan n
    let k := s.stack (n / 8)
    (c.began = none →
      (c.nominal + c.slip ≤ s.stamp ∧ c.ended ≤ s.stamp → ∃ t, exec (.timetableEntry n) s = .next t ∧ t.stalled = false ∧
        (t.chan n).began = some (max (c.nominal + c.slip) c.ended) ∧ (t.chan n).slip = c.slip ∧ (t.chan n).st = .running ∧
        (kindOf w = 0 → t.stack (n / 8) = k) ∧
        (kindOf w = 1 → ∃ qs, waveOf n w qs ∧ t.stack (n / 8) = { k with waiting := k.waiting ++ qs }) ∧
        (kindOf w = 2 → t.stack (n / 8) = { k with level := k.level - 8 })) ∧
      (s.stamp < c.nominal + c.slip ∨ s.stamp < c.ended → exec (.timetableEntry n) s = stood s)) ∧
    ∀ b, c.began = some b →
      let fin := max (b + durOf w) c.doneAt
      let late := fin - (c.nominal + durOf w)
      let last := c.entry + 1 = c.table.length
      (s.stamp < b + durOf w ∨ waving s n → exec (.timetableEntry n) s = stood s) ∧
      (b + durOf w ≤ s.stamp → ¬ waving s n → ∃ t, exec (.timetableEntry n) s = .next t ∧ t.stalled = false ∧
        (t.chan n).slip = c.slip + late ∧ (t.chan n).nominal = c.nominal + durOf w ∧ (t.chan n).ended = fin ∧
        (t.chan n).passes = (if last then c.passes + 1 else c.passes) ∧ (t.chan n).began = none ∧
        (c.revoked = true → (t.chan n).st = .fault ∧ (t.chan n).cause = Cause.protect.code) ∧
        (c.revoked = false → c.stopping = true ∨ (last ∧ c.goal ≤ c.passes + 1) →
          (t.chan n).st = .loaded ∧ (t.chan n).entry = c.entry) ∧
        (c.revoked = false → c.stopping = false → ¬ (last ∧ c.goal ≤ c.passes + 1) →
          (t.chan n).st = .running ∧ (t.chan n).entry = if last then 0 else c.entry + 1))) ∧
  ∀ (s : State) (n : Nat),
    ((s.chan n).st = .running → (s.chan n).lastRefresh + 24960 < s.stamp → ∃ t x, exec (.forcedRefresh n) s = .next t ∧
      t.stalled = false ∧ t.chan n = { s.chan n with
        lastRefresh := s.stamp, forced := (s.chan n).forced + 1, slip := (s.chan n).slip + x } ∧
      ∀ m, m ≠ n → t.chan m = s.chan m) ∧
    ((s.chan n).st ≠ .running ∨ s.stamp ≤ (s.chan n).lastRefresh + 24960 → exec (.forcedRefresh n) s = stood s)

/-- 10 R303, R305, 07 R235: the first X.BANKGO in flight that waits for its channels completes when all have stopped; where one of
them has faulted it then raises REMOTE. While one of them runs it waits. A stopping one waits for its channels to stop. Without
such a word in flight nothing happens. -/
def Sys2Proof.Claim.BankgoCompletesWhenItsChannelsStop : Prop :=
  (∀ (s : State), s.here.awake = true → s.gatedBelow = false → s.here.cpy.runs.find? (fun r : CopyRun => r.passed) = none →
    exec .bankgoComplete s = stood s) ∧
  ∀ (s : State) (a c : BitVec 4) (r : CopyRun), s.here.awake = true → s.gatedBelow = false →
    s.here.cpy.runs.find? (fun r : CopyRun => r.passed) = some r → r.word = .xBankgo a c →
    let stop := bit (r.words.getD 2 0).toNat 0
    let named := fun n => n < 128 ∧ bit (r.words.getD (n / 64) 0).toNat (n % 64) = true
    let mine := fun n => named n ∧ (s.chan n).owner = some (s.here.job.inst * 512 + s.cur, r.walk)
    let free := s.setHere { s.here with cpy := { s.here.cpy with runs := s.here.cpy.runs.filter fun x => x.id != r.id } }
    let busy := fun n => (s.chan n).st = .armed ∨ (s.chan n).st = .running ∨ waving s n
    (stop = false → (∃ n, mine n ∧ busy n) → exec .bankgoComplete s = stood s) ∧
    (stop = false → (∀ n, mine n → ¬ busy n) →
      ((∀ n, mine n → (s.chan n).st ≠ .fault) → exec .bankgoComplete s = moved free) ∧
      ((∃ n, mine n ∧ (s.chan n).st = .fault) → free.parks .remote →
        ∃ t, exec .bankgoComplete s = .next t ∧ free.enteredAt t .x (free.here.cutAt .x) { cause := .remote })) ∧
    (stop = true →
      ((∃ n, named n ∧ (s.chan n).st = .running ∧ (s.chan n).stopping = true) → exec .bankgoComplete s = stood s) ∧
      ((∀ n, named n → (s.chan n).st = .running → (s.chan n).stopping = false) → exec .bankgoComplete s = moved free))

namespace Sys2Proof.Claim
open Sys2Proof.Machine

/-! ## Vector words (05) -/

/-- The vector engine may issue word i. -/
def vecTurn (s : State) (i : Instr) : Prop := s.engineMayIssue .v i = true

/-- The mode of the binding, the lanes of a row in it (W), the bits of a lane (05 R135, R140, R144). -/
def splitOf (s : State) : Bool := s.here.vec.bind.split
def lanesOf (s : State) : Nat := if splitOf s then 256 else 128
def laneWide (s : State) : Nat := if splitOf s then 40 else 80

/-- The tile and row that an operand code names; vector tiles count from 32 (05 R141). -/
def rowCode (v : Vec) (x : BitVec 6) : Option (Nat × Nat) :=
  if x.toNat < 16 then some (32 + v.bind.w, v.bind.vb + x.toNat)
  else if x.toNat < 32 then some (32 + v.bind.w, v.bind.vb + 16 + (x.toNat - 16 + v.rrb) % 16)
  else if x.toNat < 48 then some (v.bind.t, v.bind.cb + (x.toNat - 32))
  else none

/-- Lane l of a row of the tiles, in the binding's mode; lane l of a source operand, zero for the zero row. -/
def cell (s : State) (x : Tiles) (p : Nat × Nat) (l : Nat) : Nat :=
  (x.rowAt p.1 p.2).toNat / 2 ^ (laneWide s * l) % 2 ^ laneWide s
def source (s : State) (x : BitVec 6) (l : Nat) : Nat :=
  match rowCode s.here.vec x with
  | some p => cell s s.here.tiles p l
  | none => 0

/-- An operand is no port and agrees with the binding's mode (05 R142); a source's row holds no error (05 R153). -/
def nameable (s : State) (x : BitVec 6) : Prop :=
  (x.toNat < 48 ∨ x.toNat = 52) ∧
    (32 ≤ x.toNat → x.toNat < 48 → (s.here.tiles.infoAt s.here.vec.bind.t).split = splitOf s)
def readable (s : State) (x : BitVec 6) : Prop :=
  nameable s x ∧ ∀ p, rowCode s.here.vec x = some p → p ∉ s.here.tiles.bad

/-- Bit l of predicate g, and the active lanes under it (05 R144, R146). -/
def guardBit (s : State) (g l : Nat) : Bool := g == 0 || (s.here.vec.preds.getD (g - 1) 0).getLsbD l
def laneOn (s : State) (g l : Nat) : Bool := decide (l < lanesOf s) && decide (l < s.here.vec.vlen) && guardBit s g l

/-- The tile whose status word takes the flags of a word with destination d (03 R87, 05 R141). -/
def flagTile (s : State) (d : BitVec 6) : Nat := match rowCode s.here.vec d with | some p => p.1 | none => 32 + s.here.vec.bind.w

/-- Word i retires with a result row for d: `val l` is lane l, or none where the lane keeps its contents; bit b of the status
word is set where `flag b` holds; the SR generator becomes gen. Every other row, mode and status word is as before. -/
def rowGives (s : State) (i : Instr) (d : BitVec 6) (val : Nat → Option Nat) (flag : Nat → Prop) (gen : BitVec 64) : Prop :=
  let old := s.here.tiles
  ∃ x : Tiles,
    exec i s = .next ((s.setHere { s.here with tiles := x, vec := { s.here.vec with gen := gen } }).engineRetired .v) ∧
    (∀ p, rowCode s.here.vec d = some p →
      (∀ l, l < lanesOf s → cell s x p l = (val l).getD (cell s old p l)) ∧
      ∀ tile r, 128 * tile + r ≠ 128 * p.1 + p.2 → x.rowAt tile r = old.rowAt tile r) ∧
    (rowCode s.here.vec d = none → ∀ tile r, x.rowAt tile r = old.rowAt tile r) ∧
    (∀ tile, (x.infoAt tile).split = (old.infoAt tile).split ∧ ∀ b, b < 6 →
      ((x.infoAt tile).status.getLsbD b = true ↔
        (old.infoAt tile).status.getLsbD b = true ∨ tile = flagTile s d ∧ flag b)) ∧
    (∀ p ∈ x.bad, p ∈ old.bad) ∧ (∀ p ∈ old.bad, some p ≠ rowCode s.here.vec d → p ∈ x.bad) ∧
    x.side = old.side ∧ x.sideBad = old.sideBad

/-- No flag. -/
def noFlag : Nat → Prop := fun _ => False

/-- A word of type t over sources xs with destination d meets its operand rules (05 R142). -/
def rowReady (s : State) (i : Instr) (t : Nat) (xs : List (BitVec 6)) (d : BitVec 6) : Prop :=
  vecTurn s i ∧ ¬ (t = 6 ∧ splitOf s = true) ∧ (∀ x ∈ xs, readable s x) ∧ nameable s d

/-- Elements of type t: how many to a lane, how wide, and how they compute (03 Table 36, 05 R156, R157). -/
def elemsOf (s : State) (t : Nat) : Nat := subs t (splitOf s)
def elemWide (s : State) (t : Nat) : Nat := elemBits t (splitOf s)
def elemKind (s : State) (t : Nat) : Elem := elemOf t (splitOf s) (s.here.vec.vtype.toNat / 16 % 4)

/-- Element e of a lane, and the lane that n elements make; the bits of a lane that a type occupies. -/
def elem (s : State) (t x e : Nat) : Nat := x / 2 ^ (elemWide s t * e) % 2 ^ elemWide s t
def laneFrom (s : State) (t : Nat) (f : Nat → Nat) : Nat :=
  ((List.range (elemsOf s t)).map fun e => f e % 2 ^ elemWide s t * 2 ^ (elemWide s t * e)).sum
def occupies (s : State) (t x : Nat) : Nat := x % 2 ^ (elemsOf s t * elemWide s t)

/-- 05 R157: the effect of a word that computes f on the elements of its sources, in every active lane. -/
def elementwise (i : Instr) (t g : State → Nat) (d : BitVec 6) (xs : List (BitVec 6)) (f : Elem → List Nat → Nat × Flags) :
    Prop :=
  ∀ s : State, rowReady s i (t s) xs d →
    let out := fun (l e : Nat) => f (elemKind s (t s)) (xs.map fun x => elem s (t s) (source s x l) e)
    rowGives s i d (fun l => if laneOn s (g s) l then some (laneFrom s (t s) fun e => (out l e).1) else none)
      (fun b => ∃ l e, laneOn s (g s) l = true ∧ e < elemsOf s (t s) ∧ (out l e).2.getLsbD b = true) s.here.vec.gen

/-- 05 R156: a result by its type's regime: floats round once by RNE, IN saturates with SAT, the others wrap. -/
def regime (k : Elem) (float : FFmt → FVal × Flags) (int : Int) : Nat × Flags :=
  match k with
  | .float f => ((f.round .rne 0 (float f).1).1, (float f).2 ||| (f.round .rne 0 (float f).1).2)
  | .sat n => ((BitVec.ofInt n (clampTo n int)).toNat, if clampTo n int = int then 0 else flagSat)
  | .wrap n => ((BitVec.ofInt n int).toNat, 0)

/-- The functions of R156 on a pair of elements, by number: add, sub, mul, min, max, and, or, xor. -/
def arith (o : LaneOp) (k : Elem) (x y : Nat) : Nat × Flags :=
  let a := sext k.bits x
  let b := sext k.bits y
  match o with
  | .add => regime k (fun f => (f.decode x).add .rne (f.decode y)) (a + b)
  | .sub => regime k (fun f => (f.decode x).add .rne (f.decode y).neg) (a - b)
  | .mul => regime k (fun f => (f.decode x).mul (f.decode y)) (a * b)
  | .min => (match k with
    | .float f => if (f.decode x).isNan || (f.decode y).isNan then f.cnan else if (f.decode y).ordLt (f.decode x) then y else x
    | _ => if b < a then y else x, 0)
  | .max => (match k with
    | .float f => if (f.decode x).isNan || (f.decode y).isNan then f.cnan else if (f.decode x).ordLt (f.decode y) then y else x
    | _ => if b < a then x else y, 0)
  | .and => (x &&& y, 0)
  | .or => (x ||| y, 0)
  | .xor => (x ^^^ y, 0)

/-- The shifts of R158 on an element by an element, on integer kinds. -/
def shifted (o : ShiftOp) (k : Elem) (x a : Nat) : Nat × Flags :=
  let n := k.bits
  match o with
  | .shl => (match k with
    | .sat _ => regime k (fun _ => (.nan, 0)) (sext n x * 2 ^ a)
    | _ => (if n ≤ a then 0 else x * 2 ^ a % 2 ^ n, 0))
  | .shr => (if n ≤ a then 0 else x / 2 ^ a, 0)
  | .sar => ((BitVec.ofInt n (if n ≤ a then (if sext n x < 0 then -1 else 0) else sext n x / 2 ^ a)).toNat, 0)
  | .rol => (x * 2 ^ (a % n) % 2 ^ n + x / 2 ^ (n - a % n), 0)

/-- a * b + c or a * b - c handled once (05 R159); |x| and -x (05 R160). -/
def fusedOf (neg : Bool) (k : Elem) (x y z : Nat) : Nat × Flags :=
  let p := sext k.bits x * sext k.bits y
  regime k (fun f =>
    let m := (f.decode x).mul (f.decode y)
    let r := m.1.add .rne (if neg then (f.decode z).neg else f.decode z)
    (r.1, m.2 ||| r.2)) (if neg then p - sext k.bits z else p + sext k.bits z)
def signOf (neg : Bool) (k : Elem) (x : Nat) : Nat × Flags :=
  match k with
  | .float f =>
    if (f.decode x).isNan then (f.cnan, 0)
    else
      let mag := x % 2 ^ (f.e + f.m)
      (if neg && x == mag then mag + 2 ^ (f.e + f.m) else mag, 0)
  | _ => let v := sext k.bits x; regime k (fun _ => (.nan, 0)) (if neg then -v else if v < 0 then -v else v)

/-- The relation of V.CMP between two elements (05 R161). -/
def relation (c : Nat) (k : Elem) (x y : Nat) : Prop :=
  match k with
  | .float f =>
    let a := f.decode x
    let b := f.decode y
    let un := a.isNan = true ∨ b.isNan = true
    match c with
    | 0 => ¬ un ∧ a.lt b = false ∧ b.lt a = false
    | 1 => un ∨ a.lt b = true ∨ b.lt a = true
    | 2 => ¬ un ∧ a.lt b = true
    | 3 => ¬ un ∧ b.lt a = false
    | _ => un
  | _ =>
    match c with
    | 0 => sext k.bits x = sext k.bits y
    | 1 => sext k.bits x ≠ sext k.bits y
    | 2 => sext k.bits x < sext k.bits y
    | 3 => sext k.bits x ≤ sext k.bits y
    | _ => False

/-- The tree of 03 R91: the value and the flags at node i of level n, over the leaves g. -/
def treeNode (f : Nat → Nat → Nat × Flags) (g : Nat → Nat) : Nat → Nat → Nat × Flags
  | 0, i => (g i, 0)
  | n + 1, i =>
    let a := treeNode f g n (2 * i)
    let b := treeNode f g n (2 * i + 1)
    ((f a.1 b.1).1, a.2 ||| b.2 ||| (f a.1 b.1).2)

/-- The running prefix of 03 R92 at position i. -/
def prefixAt (f : Nat → Nat → Nat × Flags) (g : Nat → Nat) : Nat → Nat × Flags
  | 0 => (g 0, 0)
  | i + 1 => f (prefixAt f g i).1 (g (i + 1))

/-- The operation of V.RED and V.SCAN by sub-code, and the identity that stands for an inactive lane (03 R91, 05 R169). -/
def redFn (o : Nat) : LaneOp := match o with | 0 => .add | 1 => .min | 2 => .max | 3 => .and | 4 => .or | _ => .xor
def neutral (o : Nat) (k : Elem) : Nat :=
  match k, o with
  | _, 3 => 2 ^ k.bits - 1
  | .float f, 0 => 2 ^ (f.e + f.m)
  | .float f, 1 => f.infBits
  | .float f, 2 => 2 ^ (f.e + f.m) + f.infBits
  | _, 1 => 2 ^ (k.bits - 1) - 1
  | _, 2 => 2 ^ (k.bits - 1)
  | _, _ => 0

/-- An element converted to another kind in mode md with draw u (03 R88, Table 41). -/
def converted (k d : Elem) (md : Rnd) (u x : Nat) : Nat × Flags :=
  let range := fun (n : Nat) (v : FVal) =>
    let r := v.toInt md u (-(2 ^ (n - 1))) (2 ^ (n - 1) - 1)
    ((BitVec.ofInt n r.1).toNat, r.2)
  match k, d with
  | .float f, .float g => g.round md u (f.decode x)
  | .float f, .sat n | .float f, .wrap n => range n (f.decode x)
  | .sat m, .float g | .wrap m, .float g => g.round md u (FVal.ofInt (sext m x))
  | .sat m, .sat n | .sat m, .wrap n | .wrap m, .sat n | .wrap m, .wrap n =>
    ((BitVec.ofInt n (clampTo n (sext m x))).toNat, if clampTo n (sext m x) = sext m x then 0 else flagSat)

/-- The state of an SR generator after n draws, and draw n + 1 of it (03 R81). -/
def afterDraws (g : BitVec 64) (n : Nat) : BitVec 64 := n.fold (fun _ _ x => (draw x).1) g
def drawn (g : BitVec 64) (n : Nat) : Nat := (draw (afterDraws g n)).2

/-- The active lanes below l. -/
def onBelow (s : State) (g l : Nat) : Nat := ((List.range l).filter (laneOn s g)).length

/-- The byte stream of a row (05 R166), and the lanes that a stream fills. -/
def perLane (s : State) : Nat := if splitOf s then 4 else 8
def streamByte (s : State) (x : BitVec 6) (k : Nat) : Nat := source s x (k / perLane s) / 2 ^ (8 * (k % perLane s)) % 256
def streamLane (s : State) (byte : Nat → Nat) (l : Nat) : Nat :=
  ((List.range (perLane s)).map fun i => byte (perLane s * l + i) % 256 * 2 ^ (8 * i)).sum

/-- The width of a code of a pack format, and code l of the stream of a row. -/
def codeWide (f : Nat) : Nat := if f = 1 then 6 else if f = 2 then 4 else 8
def streamCode (s : State) (f : Nat) (x : BitVec 6) (l : Nat) : Nat :=
  ((List.range (codeWide f)).map fun b =>
    streamByte s x ((codeWide f * l + b) / 8) / 2 ^ ((codeWide f * l + b) % 8) % 2 * 2 ^ b).sum

/-- The float type of V.PACK, V.UNPK and V.SFN. -/
def floatOf (s : State) (t : Nat) : FFmt := if t = 2 then fmtFP32 else if splitOf s then fmtF40 else fmtF80

/-- The order of V.TOPK: lane i stands before lane j (05 R172). -/
def outranks (s : State) (t : Nat) (a : BitVec 6) (i j : Nat) : Prop :=
  let v := fun (l : Nat) => source s a l % 2 ^ 32
  let x := fmtFP32.decode (v i)
  let y := fmtFP32.decode (v j)
  let more := if t = 3 then sext 32 (v j) < sext 32 (v i) else x.isNan = false ∧ (y.isNan = true ∨ y.lt x = true)
  let less := if t = 3 then sext 32 (v i) < sext 32 (v j) else y.isNan = false ∧ (x.isNan = true ∨ x.lt y = true)
  more ∨ ¬ less ∧ i < j

/-- A vector word of no rows changes the engine's own state as f says and retires. -/
def vecBecomes (s : State) (i : Instr) (f : Core → Core) : Prop := exec i s = .next ((s.setHere (f s.here)).engineRetired .v)

/-- The bytes that an engine's word writes at a location wait in the request path, grain by grain (09 R272, R279). -/
def laidDown (s : State) (e : Engine) (cls : Nat) (ks : Kinds) (loc : Nat) (bs : List Byte) : State :=
  (grainParts loc bs.length).foldl
    (fun t p => joined t {
      acc := { walk := (s.here.at_ e).1, eng := e, cls := cls, kinds := ks, home := some (s.home loc), loc := p.1, len := p.2 }
      who := s.whoOf s.cur
      act := .store ((bs.drop (p.1 - loc)).take p.2) none }) s

/-- The state of a special function (05 Table 58): what its operand gives where the table states it. -/
def special (f : FFmt) (fn : Nat) (x : Nat) (r : Nat × Flags) : Prop :=
  let one := f.bias * 2 ^ f.m
  let v := f.decode x
  let bad := (f.cnan, flagInvalid)
  (v = .nan → r = (f.cnan, 0)) ∧
  (v = .inf false → r = match fn with
    | 0 | 1 | 4 => (f.infBits, 0) | 2 | 3 => (0, 0) | 5 | 6 => (one, 0) | _ => bad) ∧
  (v = .inf true → r = match fn with
    | 0 => (0, 0) | 1 | 3 | 4 => bad | 2 => (2 ^ (f.e + f.m), 0) | 5 => (2 ^ (f.e + f.m) + one, 0) | 6 => (0, 0) | _ => bad) ∧
  (∀ neg m e, v = .fin neg m e → m ≠ 0 → neg = true → fn = 1 ∨ fn = 3 ∨ fn = 4 → r = bad) ∧
  (v.isZero = true → r = match fn with
    | 0 | 8 => (one, 0) | 1 => (f.sign true + f.infBits, 0) | 2 | 3 => (f.sign v.isNeg + f.infBits, 0)
    | 6 => (one - 2 ^ f.m, 0) | _ => (f.sign v.isNeg, 0))

end Sys2Proof.Claim

open Sys2Proof Sys2Proof.Machine Sys2Proof.Claim

/-- 05 R156-R160, R157, R144, R141, 03 R87: the arithmetic family, the shifts, the fused words and the words of one operand
compute their function on every element of every active lane by its type's regime, zero the lane's other bits, keep inactive
lanes, and merge their flags into the destination's status word; nothing else changes. -/
def Sys2Proof.Claim.VectorArithmeticActsOnActiveElementsPart : Prop :=
  (∀ (d a b : BitVec 6) (g t : BitVec 3),
    let two := fun (i : Instr) (f : Elem → Nat → Nat → Nat × Flags) =>
      elementwise i (fun _ => t.toNat) (fun _ => g.toNat) d [a, b] fun k xs => f k (xs.getD 0 0) (xs.getD 1 0)
    let shift := fun (i : Instr) (o : ShiftOp) => ∀ s : State, (t = 4 → s.here.vec.vtype.toNat / 16 % 4 = 0) →
      rowReady s i t.toNat [a, b] d →
      let out := fun (l e : Nat) => shifted o (elemKind s t.toNat) (elem s t.toNat (source s a l) e) (elem s t.toNat (source s b l) e)
      rowGives s i d (fun l => if laneOn s g.toNat l then some (laneFrom s t.toNat fun e => (out l e).1) else none)
        (fun b => ∃ l e, laneOn s g.toNat l = true ∧ e < elemsOf s t.toNat ∧ (out l e).2.getLsbD b = true) s.here.vec.gen
    two (.vAdd d a b g t) (arith .add) ∧ two (.vSub d a b g t) (arith .sub) ∧ two (.vMul d a b g t) (arith .mul) ∧
    two (.vMin d a b g t) (arith .min) ∧ two (.vMax d a b g t) (arith .max) ∧ two (.vAnd d a b g t) (arith .and) ∧
    two (.vOr d a b g t) (arith .or) ∧ two (.vXor d a b g t) (arith .xor) ∧
    shift (.vShl d a b g t) .shl ∧ shift (.vShr d a b g t) .shr ∧ shift (.vSar d a b g t) .sar ∧ shift (.vRol d a b g t) .rol ∧
    (∀ s : State, vecTurn s (.vShl d a b g t) → t = 4 → s.here.vec.vtype.toNat / 16 % 4 ≠ 0 → s.parks .operand →
      ∃ u, exec (.vShl d a b g t) s = .next u ∧ s.entered u .v { cause := .operand })) ∧
  (∀ (d a b c : BitVec 6),
    let three := fun (i : Instr) (neg : Bool) =>
      elementwise i (fun s => s.here.vec.vtype.toNat % 8) (fun s => s.here.vec.vguard.toNat) d [a, b, c] fun k xs =>
        fusedOf neg k (xs.getD 0 0) (xs.getD 1 0) (xs.getD 2 0)
    three (.vFma d a b c) false ∧ three (.vFms d a b c) true) ∧
  ∀ (d a : BitVec 6) (g t : BitVec 3),
    elementwise (.vAbs d a g t) (fun _ => t.toNat) (fun _ => g.toNat) d [a] (fun k xs => signOf false k (xs.getD 0 0)) ∧
    elementwise (.vNeg d a g t) (fun _ => t.toNat) (fun _ => g.toNat) d [a] (fun k xs => signOf true k (xs.getD 0 0))

/-- 05 R142: a word whose operand is out of step with the binding's mode, an i64 word in split mode, and a word that names a
port not bound to its side raise OPERAND; shown by V.MOV. -/
def Sys2Proof.Claim.VectorOperandRulesRaiseOperand : Prop :=
  ∀ (s : State) (d a : BitVec 6) (g t : BitVec 3), vecTurn s (.vMov d a g t) → s.parks .operand →
    let v := s.here.vec
    let port := fun (x : BitVec 6) => v.ports.getD (x.toNat - 48) none
    (t = 6 ∧ splitOf s = true ∨
      (∃ x ∈ [d, a], 32 ≤ x.toNat ∧ x.toNat < 48 ∧ (s.here.tiles.infoAt v.bind.t).split ≠ splitOf s) ∨
      (48 ≤ a.toNat ∧ a.toNat < 52 ∧ ∀ p, port a = some p → p.write = true ∨
        bit (v.words.getD (a.toNat - 48) 0).toNat 20 ≠ splitOf s) ∨
      (48 ≤ d.toNat ∧ d.toNat < 52 ∧ ∀ p, port d = some p → p.write = false ∨
        bit (v.words.getD (d.toNat - 48) 0).toNat 20 ≠ splitOf s)) →
    ∃ u, exec (.vMov d a g t) s = .next u ∧ s.entered u .v { cause := .operand }

/-- 05 R161-R164, R171, R172: comparisons fill a predicate; selections, copies, constants and moved lanes take the occupied
bits of the lane that each of them names, or zero; V.TOPK writes the k greatest active lanes in order, then fillers. -/
def Sys2Proof.Claim.VectorLanesAreComparedChosenAndMoved : Prop :=
  (∀ (s : State) (c k : BitVec 3) (a b : BitVec 6) (g t : BitVec 3), rowReady s (.vCmp c k a b g t) t.toNat [a, b] 52 →
    ∃ p : BitVec 256,
      (∀ l, l < 256 → (p.getLsbD l = true ↔ laneOn s g.toNat l = true ∧
        relation c.toNat (elemKind s t.toNat) (occupies s t.toNat (source s a l)) (occupies s t.toNat (source s b l)))) ∧
      vecBecomes s (.vCmp c k a b g t) fun h => { h with vec := { h.vec with preds := h.vec.preds.set (k.toNat - 1) p } }) ∧
  (∀ (s : State) (d a b : BitVec 6) (g t : BitVec 3),
    let inUse := fun (l : Nat) => decide (l < lanesOf s) && decide (l < s.here.vec.vlen)
    let from_ := fun (l j : Nat) => if laneOn s g.toNat l then
      some (if laneOn s g.toNat j then occupies s t.toNat (source s a j) else 0) else none
    let first := source s b 0 % 2 ^ 32
    (rowReady s (.vSel d a b g t) t.toNat [a, b] d → rowGives s (.vSel d a b g t) d (fun l =>
      if inUse l then some (occupies s t.toNat (if guardBit s g.toNat l then source s a l else source s b l)) else none)
      noFlag s.here.vec.gen) ∧
    (rowReady s (.vMov d a g t) t.toNat [a] d → rowGives s (.vMov d a g t) d (fun l =>
      if laneOn s g.toNat l then some (occupies s t.toNat (source s a l)) else none) noFlag s.here.vec.gen) ∧
    (rowReady s (.vPerm d a b g t) t.toNat [a, b] d →
      rowGives s (.vPerm d a b g t) d (fun l => from_ l (source s b l % 2 ^ 32)) noFlag s.here.vec.gen) ∧
    (rowReady s (.vLrot d a b g t) t.toNat [a, b] d →
      rowGives s (.vLrot d a b g t) d (fun l => from_ l ((l + first) % lanesOf s)) noFlag s.here.vec.gen) ∧
    (rowReady s (.vBcast d a b g t) t.toNat [a, b] d →
      rowGives s (.vBcast d a b g t) d (fun l => from_ l first) noFlag s.here.vec.gen)) ∧
  (∀ (s : State) (n : BitVec 5) (t : BitVec 3) (imm : BitVec 16), rowReady s (.vLit n t imm) t.toNat [] (n.setWidth 6) →
    let value := match elemKind s t.toNat with
      | .float f => if t = 4 then imm.toNat else (f.round .rne 0 (fmtBF16.decode imm.toNat)).1
      | k => if t = 4 ∨ t = 5 then imm.toNat else (BitVec.ofInt k.bits (sext 16 imm.toNat)).toNat
    rowGives s (.vLit n t imm) (n.setWidth 6)
      (fun l => if laneOn s 0 l then some (laneFrom s t.toNat fun _ => value) else none) noFlag s.here.vec.gen) ∧
  ∀ (s : State) (d a k : BitVec 6) (g t : BitVec 3), rowReady s (.vTopk d a k g t) t.toNat [a] d →
    ∃ rank : List Nat, (∀ l, l ∈ rank ↔ laneOn s g.toNat l = true) ∧ rank.Pairwise (outranks s t.toNat a) ∧
      rowGives s (.vTopk d a k g t) d (fun i => if i ≤ k.toNat then
        some (match rank[i]? with
          | some l => l * 2 ^ 32 + source s a l % 2 ^ 32
          | none => 0xFF * 2 ^ 32 + if t = 2 then 0x7FC00000 else 0x80000000) else none) noFlag s.here.vec.gen

/-- 05 R165-R170, 03 R81, R82, R88, R91, R92: conversions, packed streams, special functions, reductions by the pairwise tree
and running prefixes; SR draws go lane by lane, element by element; V.SFN is one fixed function of its operand, with the special
operands of Table 58 (its other results are a free choice, log 7). -/
def Sys2Proof.Claim.VectorRowsConvertPackAndReduce : Prop :=
  (∀ (s : State) (d a : BitVec 6) (e r g t : BitVec 3), rowReady s (.vCvt d a e r g t) t.toNat [a] d →
    ¬ (e = 6 ∧ splitOf s = true) →
    let src := elemKind s t.toNat
    let dst := elemOf e.toNat (splitOf s) (s.here.vec.vtype.toNat / 64 % 4)
    let both := (t = 4 ∨ t = 5) ∧ (e = 4 ∨ e = 5)
    let per := if both then elemsOf s t.toNat else 1
    let sr := r = 5
    let u := fun (l j : Nat) => if sr then drawn s.here.vec.gen (onBelow s g.toNat l * per + j) else 0
    let out := fun (l j : Nat) => converted src dst (Rnd.ofCode r.toNat) (u l j) (elem s t.toNat (source s a l) j)
    rowGives s (.vCvt d a e r g t) d
      (fun l => if laneOn s g.toNat l then some (((List.range per).map fun j =>
        (out l j).1 % 2 ^ elemWide s e.toNat * 2 ^ (elemWide s e.toNat * j)).sum) else none)
      (fun b => ∃ l j, laneOn s g.toNat l = true ∧ j < per ∧ (out l j).2.getLsbD b = true)
      (if sr then afterDraws s.here.vec.gen (onBelow s g.toNat (lanesOf s) * per) else s.here.vec.gen)) ∧
  (∀ (s : State) (d a b : BitVec 6) (f t : BitVec 3), (f = 5 → b = 0) →
    let xs := if f = 5 then [a] else [a, b]
    let k := floatOf s t.toNat
    let md := Rnd.ofCode (s.here.vec.vtype.toNat / 256 % 8)
    let u := fun (l : Nat) => if md = .sr then drawn s.here.vec.gen l else 0
    let x := fun (l : Nat) => if l < s.here.vec.vlen then k.decode (elem s t.toNat (source s a l) 0) else .fin false 0 0
    let code := fun (l : Nat) => packCode f.toNat md (u l) (x l) (if f = 5 then 0 else streamByte s b (l / 32))
    let bits := ((List.range (lanesOf s)).map fun l => (code l).1 % 2 ^ codeWide f.toNat * 2 ^ (codeWide f.toNat * l)).sum
    let y := fun (l : Nat) =>
      let c := codeValue f.toNat (streamCode s f.toNat a l)
      if f = 5 then (c, 0) else c.mul (e5m3 (streamByte s b (l / 32)))
    (rowReady s (.vPack d a b f t) t.toNat xs d → rowGives s (.vPack d a b f t) d
      (fun l => some (streamLane s (fun j => bits / 2 ^ (8 * j)) l))
      (fun b => ∃ l, l < lanesOf s ∧ (code l).2.getLsbD b = true)
      (if md = .sr then afterDraws s.here.vec.gen (lanesOf s) else s.here.vec.gen)) ∧
    (rowReady s (.vUnpk d a b f t) t.toNat xs d → rowGives s (.vUnpk d a b f t) d
      (fun l => if l < s.here.vec.vlen then some (k.round .rne 0 (y l).1).1 else none)
      (fun b => ∃ l, l < lanesOf s ∧ l < s.here.vec.vlen ∧ (y l).2.getLsbD b = true) s.here.vec.gen)) ∧
  (∃ h : FFmt → Nat → Nat → Nat × Flags, (∀ f fn x, f = fmtFP32 ∨ f = fmtF40 → fn ≤ 8 → special f fn x (h f fn x)) ∧
    ∀ (s : State) (d a fn : BitVec 6) (g t : BitVec 3), rowReady s (.vSfn d a fn g t) t.toNat [a] d →
      let out := fun (l : Nat) =>
        if t = 2 then h fmtFP32 fn.toNat (source s a l % 2 ^ 32)
        else if splitOf s then h fmtF40 fn.toNat (source s a l)
        else
          let x := fmtF40.round .rne 0 (fmtF80.decode (source s a l))
          let r := h fmtF40 fn.toNat x.1
          ((fmtF80.round .rne 0 (fmtF40.decode r.1)).1, x.2 ||| r.2)
      rowGives s (.vSfn d a fn g t) d (fun l => if laneOn s g.toNat l then some ((out l).1 % 2 ^ laneWide s) else none)
        (fun b => ∃ l, laneOn s g.toNat l = true ∧ (out l).2.getLsbD b = true) s.here.vec.gen) ∧
  ∀ (s : State) (d a o : BitVec 6) (g t : BitVec 3),
    let k := elemKind s t.toNat
    let f := arith (redFn o.toNat) k
    let leaf := fun (e l : Nat) => if laneOn s g.toNat l then elem s t.toNat (source s a l) e else neutral o.toNat k
    let top := fun (e : Nat) => treeNode f (leaf e) (if splitOf s then 8 else 7) 0
    (rowReady s (.vRed d a o g t) t.toNat [a] d → rowGives s (.vRed d a o g t) d
      (fun l => if laneOn s g.toNat l then some (laneFrom s t.toNat fun e => (top e).1) else none)
      (fun b => ∃ e, e < elemsOf s t.toNat ∧ (top e).2.getLsbD b = true) s.here.vec.gen) ∧
    (rowReady s (.vScan d a o g t) t.toNat [a] d → rowGives s (.vScan d a o g t) d
      (fun l => if laneOn s g.toNat l then some (laneFrom s t.toNat fun e => (prefixAt f (leaf e) l).1) else none)
      (fun b => ∃ e l, e < elemsOf s t.toNat ∧ l < lanesOf s ∧ (prefixAt f (leaf e) l).2.getLsbD b = true) s.here.vec.gen)

/-- 05 R140, R147-R149, R173, R174, 02 R40: the window, rotation base, guard and predicates become what their words say; a
return word hands its item to the scalar engine, V.TOS a converted lane, V.STAT status, engine state, a predicate's quarter or
the binding. -/
def Sys2Proof.Claim.VectorStateWordsAndReturns : Prop :=
  (∀ (s : State) (n : BitVec 5) (v : BitVec 3) (m : BitVec 5) (c : BitVec 3) (sp : Bool), vecTurn s (.vBind n v m c sp) →
    vecBecomes s (.vBind n v m c sp) fun h => { h with
      vec := { h.vec with bind := ⟨n.toNat, 16 * v.toNat, m.toNat, 16 * c.toNat, sp⟩ }
      tiles := h.tiles.setInfo (32 + n.toNat) { (h.tiles.infoAt (32 + n.toNat)) with split := sp } }) ∧
  (∀ (s : State) (n : BitVec 4),
    (vecTurn s (.vRrbSet n) → vecBecomes s (.vRrbSet n) fun h => { h with vec := { h.vec with rrb := n.toNat } }) ∧
    (vecTurn s (.vRrbAdd n) →
      vecBecomes s (.vRrbAdd n) fun h => { h with vec := { h.vec with rrb := (h.vec.rrb + n.toNat) % 16 } })) ∧
  (∀ (s : State) (n : BitVec 3), vecTurn s (.vGuard n) →
    vecBecomes s (.vGuard n) fun h => { h with vec := { h.vec with vguard := n } }) ∧
  (∀ (s : State) (d a b : BitVec 3) (n : BitVec 12),
    let pred := fun (i : Instr) (f : Nat → Bool) => vecTurn s i → ∃ p : BitVec 256, (∀ l, l < 256 → p.getLsbD l = f l) ∧
      vecBecomes s i fun h => { h with vec := { h.vec with preds := h.vec.preds.set (d.toNat - 1) p } }
    let x := guardBit s a.toNat
    let y := guardBit s b.toNat
    pred (.vPredAnd d a b) (fun l => x l && y l) ∧ pred (.vPredOr d a b) (fun l => x l || y l) ∧
    pred (.vPredXor d a b) (fun l => xor (x l) (y l)) ∧ pred (.vPredAndn d a b) (fun l => x l && !y l) ∧
    pred (.vPredNot d a) (fun l => !x l) ∧ pred (.vPredFirst d n) (fun l => decide (l < n.toNat)) ∧
    pred (.vPredLane d n) (fun l => decide (l = n.toNat))) ∧
  (∀ (s : State), s.here.hand.ret = none →
    let gives := fun (i : Instr) (x : Tiles) (v : Word) =>
      vecBecomes s i fun h => { h with tiles := x, hand := { h.hand with ret := some v } }
    let v := s.here.vec
    let item := fun (n : Nat) => ((s.here.tiles.infoAt (32 + n)).status).setWidth 64
    (∀ n : BitVec 5, vecTurn s (.vStatStat n) → gives (.vStatStat n) s.here.tiles (item n.toNat)) ∧
    (∀ (n : BitVec 5) (m : BitVec 6), vecTurn s (.vStatClear n m) → gives (.vStatClear n m)
      (s.here.tiles.setInfo (32 + n.toNat) { (s.here.tiles.infoAt (32 + n.toNat)) with
        status := (s.here.tiles.infoAt (32 + n.toNat)).status &&& ~~~m }) (item n.toNat)) ∧
    (vecTurn s .vStatEng → gives .vStatEng s.here.tiles (word (v.vguard.toNat * 16 + v.rrb))) ∧
    (∀ (p : BitVec 3) (q : BitVec 2), vecTurn s (.vStatPred p q) → ∃ w, gives (.vStatPred p q) s.here.tiles w ∧
      ∀ l, l < 64 → w.getLsbD l = guardBit s p.toNat (64 * q.toNat + l)) ∧
    (vecTurn s .vStatBind → gives .vStatBind s.here.tiles
      (word (v.bind.w * 2 ^ 12 + v.bind.vb / 16 * 2 ^ 9 + v.bind.t * 2 ^ 4 + v.bind.cb / 16 * 2 + v.bind.split.toNat))) ∧
    ∀ (a : BitVec 6) (l : BitVec 8) (t : BitVec 3), rowReady s (.vTos a l t) t.toNat [a] 52 →
      let x := source s a l.toNat
      let sx := sext (laneWide s) x
      let f := (floatOf s 0).decode x
      let out : Word × Flags := match t.toNat with
        | 0 => (word (fmtFP32.round .rne 0 f).1, (fmtFP32.round .rne 0 f).2)
        | 1 => (BitVec.ofInt 64 (clampTo 64 sx), if clampTo 64 sx = sx then 0 else flagSat)
        | 2 => (word (x % 2 ^ 32), 0)
        | 3 => (BitVec.ofInt 64 (sext 32 x), 0)
        | 6 => (word x, 0)
        | _ => (word (if splitOf s then x % 2 ^ 32 else x), 0)
      (v.vlen ≤ l.toNat → l.toNat < lanesOf s → gives (.vTos a l t) s.here.tiles 0) ∧
      (l.toNat < v.vlen → l.toNat < lanesOf s →
        gives (.vTos a l t) (s.here.tiles.merge (32 + v.bind.w) out.2) out.1) ∧
      (lanesOf s ≤ l.toNat → s.parks .operand →
        ∃ u, exec (.vTos a l t) s = .next u ∧ s.entered u .v { cause := .operand })) ∧
  ∀ (s : State) (i : Instr), s.here.hand.ret.isSome = true → vecTurn s i → i = .vStatEng ∨ i = .vStatBind →
    exec i s = .next { s with stalled := true }

/-- 05 R150-R153, 07 R217, R220, R221: V.PORT binds a port to a handle's side with a row cursor of 0 and unbinds it; a read
port pops rows in order, waits for a filled slot before the first and frees the slot after the last; a write port pushes rows
with zero bytes in inactive lanes, which wait in the request path, waits for a free slot before the first and publishes it after
the last; the advance of the count waits in the request path behind them. Shown by V.MOV, with recording off. -/
def Sys2Proof.Claim.PortsBindPopAndPush : Prop :=
  let inTurn := fun (s : State) (n : Nat) => (portTurn .v (s.here.at_ .v).1 n).run s = .ok ⟨⟩ s
  let bindable := fun (w geom : Word) =>
    let e := [1, 2, 4, 5, 8, 10].getD (w.toNat / 2 ^ 16 % 16) 0
    let lanes := if bit w.toNat 20 then 256 else 128
    w.toNat < 2 ^ 21 ∧ e ≠ 0 ∧ w.toNat % 2 ^ 16 ≠ 0 ∧ ¬ (bit w.toNat 20 = true ∧ e = 10) ∧
      w.toNat % 2 ^ 16 * (lanes * e) ≤ geomBytes geom
  let portSet := fun (s : State) (n : Nat) (p : Option Port) =>
    s.setHere { s.here with vec := { s.here.vec with ports := s.here.vec.ports.set n p } }
  (∀ (s : State) (p : BitVec 2) (h : BitVec 4) (q : Handle) (i : Instr) (write : Bool),
    (i = .vPortRead p h ∧ write = false ∨ i = .vPortWrite p h ∧ write = true) → vecTurn s i → inTurn s p.toNat →
    s.here.vec.handles.getD h.toNat none = some q → s.here.vec.ports.length = 4 →
    (∀ o, s.here.vec.ports.getD p.toNat none = some o → o.row = 0) →
    (bindable (s.here.vec.words.getD p.toNat 0) q.geom →
      exec i s = .next ((portSet s p.toNat (some { h := h.toNat, q := q, write := write })).engineRetired .v)) ∧
    (¬ bindable (s.here.vec.words.getD p.toNat 0) q.geom → s.parks .operand →
      ∃ u, exec i s = .next u ∧ s.entered u .v { cause := .operand })) ∧
  (∀ (s : State) (p : BitVec 2), vecTurn s (.vPortUnbind p) → inTurn s p.toNat →
    (∀ o, s.here.vec.ports.getD p.toNat none = some o → o.row = 0) →
    ∃ u, exec (.vPortUnbind p) s = .next (u.engineRetired .v) ∧ u.here.vec.ports.getD p.toNat none = none ∧
      (∀ n, n ≠ p.toNat → u.here.vec.ports.getD n none = s.here.vec.ports.getD n none) ∧ s.sameMemory u ∧ s.sameOutside u) ∧
  ∀ (s : State) (d a : BitVec 6) (g t : BitVec 3) (n : Nat) (o : Port), rowReady s (.vMov d a g t) t.toNat [] 52 →
    s.here.job.recmode = 0 → inTurn s n → n < 4 → s.here.vec.ports.getD n none = some o → s.here.runner = none →
    let w := s.here.vec.words.getD n 0
    let e := [1, 2, 4, 5, 8, 10].getD (w.toNat / 2 ^ 16 % 16) 0
    let len := lanesOf s * e
    let rows := w.toNat % 2 ^ 16
    let kinds : Kinds := { mr := !o.write, mw := o.write }
    let at_ := (s.here.at_ .v).1
    let access := fun (x : State) (loc n : Nat) => ({
      walk := at_, eng := .v, kinds := kinds, home := some (x.home loc), loc := loc, len := n } : Acc)
    bindable w o.q.geom → bit w.toNat 20 = splitOf s → o.row < rows →
    (a.toNat = 48 + n ∧ o.write = false ∧ nameable s d ∨ d.toNat = 48 + n ∧ o.write = true ∧ readable s a) →
    (∀ p c, o.row = 0 → owns s .v o.h o.q o.write at_ s → unstreamed s o.q o.write → counts s o.q p c →
      (let ctl := padLoc (clusterOf s.cur) o.q.ctl
       s.held s.cur (access s ctl 64) = false) →
      (let k := s.here.claims o.h o.q.gen o.write
       if o.write then c + geomSlots o.q.geom ≤ p + k else p ≤ c + k) → exec (.vMov d a g t) s = stood s) ∧
    ∀ (u : State) (p : Port),
      (0 < o.row ∧ u = s ∧ p = o ∨ o.row = 0 ∧ ∃ k,
        (claimSlot .v 0 kinds 0 o.h o.q o.write at_).run s = .ok k u ∧
        p = { o with slot := k, order := (u.here.vec.orders o).foldl max 0 + 1 }) →
      let base := padLoc (clusterOf s.cur) (geomBase p.q.geom + p.slot * geomBytes p.q.geom)
      let loc := base + p.row * len
      let closes := fun (x y : State) =>
        if p.row + 1 < rows then y = portSet x n (some { p with row := p.row + 1 })
        else
          let x1 := portSet x n (some { p with row := 0, slot := 0, order := 0 })
          (∀ b ∈ x1.here.vec.orders p, p.order < b) ∧ owns x1 .v p.h p.q p.write at_ x1 ∧ unstreamed x1 p.q p.write ∧
          (∃ pc cc, counts x1 p.q pc cc) ∧ y = joined x1 {
            acc := { access x1 (padLoc (clusterOf s.cur) p.q.ctl) 64 with rel := if p.write then some 1 else none }
            who := x1.whoOf x1.cur
            act := .count p.h p.q p.write 1 true (if p.write then some (base, geomBytes p.q.geom, rows * len) else none) }
      (a.toNat = 48 + n → o.write = false → s.records.waiting = [] → goesOn u (access u loc len) →
        (o.row = 0 → u.verify base (geomBytes p.q.geom) = none) →
        ∀ v row, closes u v → rowCode s.here.vec d = some row → ∃ x, exec (.vMov d a g t) s =
            .next ((v.setHere { v.here with tiles := x }).engineRetired .v) ∧
          ∀ l, l < lanesOf s → cell s x row l =
            if laneOn s g.toNat l then occupies s t.toNat (leNat (s.bytes (loc + l * e) e) % 2 ^ laneWide s)
            else cell s s.here.tiles row l) ∧
      (d.toNat = 48 + n → o.write = true → ∃ bs : List Byte, bs.length = len ∧
        (∀ l, l < lanesOf s → leNat ((bs.drop (l * e)).take e) =
          if laneOn s g.toNat l then occupies s t.toNat (source s a l) % 2 ^ (8 * e) else 0) ∧
        ∀ v, closes (laidDown u .v 0 kinds loc bs) v → exec (.vMov d a g t) s = .next (v.engineRetired .v))

namespace Sys2Proof.Claim
open Sys2Proof.Machine

/-! ## Matrix words (06) -/

/-- What words between products leave alone in the matrix engine: all but the command window and the nest's own notes. -/
def matKept (s u : State) : Prop :=
  { u.here.mat with win := s.here.mat.win, nest := s.here.mat.nest } = s.here.mat ∧ s.sameOutside u

/-- Tile n of x holds these rows, this mode and this status word, and every other tile is as in old. -/
def tileIs (old x : Tiles) (n : Nat) (row : Nat → Row) (mode : Bool) (status : BitVec 6) : Prop :=
  (∀ r, r < 128 → x.rowAt n r = row r) ∧ x.infoAt n = { split := mode, status := status } ∧
    ∀ m, m ≠ n → (∀ r, r < 128 → x.rowAt m r = old.rowAt m r) ∧ x.infoAt m = old.infoAt m

/-- No row of tile n is in error. -/
def sound (x : Tiles) (n : Nat) : Prop := ∀ p ∈ x.bad, p.1 ≠ n

/-- The captured items of a descriptor spell base and pitch, both multiples of 8, and every row of 1,280 bytes ends below crew
offset 2^26 (06 R182, R196). -/
def padDesc (a b : Word) (base pitch : Nat) : Prop :=
  a.toNat = 2 ^ 63 + pitch * 2 ^ 32 + base ∧ base < 2 ^ 26 ∧ pitch < 2 ^ 16 ∧ base % 8 = 0 ∧ pitch % 8 = 0 ∧
    b.toNat / 2 ^ 36 = 0 ∧ b.toNat / 2 ^ 26 % 64 = 0 ∧ base + 127 * pitch + 1280 ≤ 2 ^ 26

/-- The two items of the matrix word at the counter stand in the descriptor queue (02 R38), outside a nest. -/
def captured (s : State) (a b : Word) : Prop :=
  s.here.mat.nest = none ∧ ∃ x, s.here.hand.descq.find? (fun x => x.walk == (s.here.at_ .m).1) = some x ∧
    x.items = [some a, some b]

/-- Row r of a descriptor in the current crew's scratchpad. -/
def padRow (s : State) (base pitch r : Nat) : Nat := padLoc (clusterOf s.cur) (base + r * pitch)

/-- An access of the matrix word at the counter (06 R194). -/
def matAccess (s : State) (cls loc len : Nat) (k : Kinds) : Acc :=
  { walk := (s.here.at_ .m).1, eng := .m, cls := cls, kinds := k, home := some (s.home loc), loc := loc, len := len }

/-- The task is not recorded, its accesses wait at no gate (14 R404, R410). -/
def unlogged (s : State) : Prop := s.here.job.recmode = 0 ∧ s.here.runner = none ∧ s.records.waiting = []

/-- The accesses of the rows are held by nothing (09 R279). -/
def rowsClear (s : State) (cls base pitch : Nat) (k : Kinds) : Prop :=
  ∀ r, r < 128 → goesOn s (matAccess s cls (padRow s base pitch r) 1280 k)

/-- A value of a block of products: the exact sum, times both scales, an exact zero positive (03 R89, R90). -/
def blockOf (x : Nat → Option FVal) (y : Nat → FVal) (sa sb : FVal) : FVal × Flags :=
  let p := (List.range 32).foldl (fun (acc : FVal × Flags) k =>
    match x k with
    | some v => ((acc.1.add .rne (v.mul (y k)).1).1, acc.2 ||| (v.mul (y k)).2 ||| (acc.1.add .rne (v.mul (y k)).1).2)
    | none => acc) (.fin false 0 0, 0)
  let q := p.1.mul sa
  let v := q.1.mul sb
  (if v.1.isZero then .fin false 0 0 else v.1, p.2 ||| q.2 ||| v.2)

/-- The accumulate step on a container and whether it stays at its least value; ACC codes 0 to 3 are I80, F80, I40, F40 (03
R89, R90). -/
def accStep (acc rnd shift u : Nat) (a : Nat × Bool) (v : FVal) : (Nat × Bool) × Flags :=
  let n := if 2 ≤ acc then 40 else 80
  let least : Int := -(2 ^ (n - 1))
  if acc = 1 ∨ acc = 3 then
    let f := if acc = 3 then fmtF40 else fmtF80
    let md := if acc = 3 then Rnd.ofCode rnd else .rne
    let x := (f.decode a.1).add md v
    (((f.round md u x.1).1, false), x.2 ||| (f.round md u x.1).2)
  else if a.2 then (a, 0)
  else match v with
    | .nan => (((BitVec.ofInt n least).toNat, true), flagInvalid)
    | .inf neg => (((BitVec.ofInt n (if neg then least else -least - 1)).toNat, false), flagOver ||| flagSat)
    | .fin neg m e =>
      let t := roundInt (Rnd.ofCode rnd) u neg m (e + shift)
      let x := sext n a.1 + t.1
      (((BitVec.ofInt n (clampTo n x)).toNat, false),
        (if t.2 then flagInexact else 0) ||| if clampTo n x = x then 0 else flagOver ||| flagSat)

/-- The elements of an operand vector and its scale byte of block b (03 R75-R77, 06 R183). -/
def vecElem (c : Nat) (v : List Byte) (k : Nat) : FVal :=
  fwValue c (leNat v / 2 ^ (fwBits c * k) % 2 ^ fwBits c)
def scaleAt (plane : Bool) (v : List Byte) (b : Nat) : FVal := if plane then e5m3 (v.getD b 0).toNat else e5m3 0x78

/-- Logical element k of block b of a sparse row: the kept element that its group's nibble places there (06 R184). -/
def sparseElem (c : Nat) (v : List Byte) (nibble : Nat → Nat) (b k : Nat) : Option FVal :=
  let n := nibble (8 * b + k / 4)
  if k % 4 = n % 4 then some (vecElem c v (16 * b + 2 * (k / 4)))
  else if k % 4 = n / 4 then some (vecElem c v (16 * b + 2 * (k / 4) + 1))
  else none

/-- Nibble g of row i of the sparsity metadata at offset m (06 R184). -/
def sideNibble (s : State) (m kext i g : Nat) : Nat :=
  (Sparse.get (0 : Byte) s.here.tiles.side (m + 4 * kext * i + g / 2)).toNat / 16 ^ (g % 2) % 16

/-- V[b] of container (i, j) of product word p over operands x and y. -/
def prodValue (s : State) (p : Prod) (x y : Operand) (i j b : Nat) : FVal × Flags :=
  let va := x.vecs.getD i []
  let a := if p.kind = .mmas then sparseElem p.f.a va (sideNibble s p.sideAt p.f.kext i) b
    else fun k => some (vecElem p.f.a va (32 * b + k))
  blockOf a (fun k => vecElem p.f.b (y.vecs.getD j []) (32 * b + k))
    (scaleAt (p.f.scale = 1 ∨ p.f.scale = 2) (x.scales.getD i []) b) (scaleAt (p.f.scale = 1 ∨ p.f.scale = 3) (y.scales.getD j []) b)

/-- Columns that the word computes, the draw of its step (i, j, b), and container (i, j) before block b with the flags raised so
far (03 R82, R89). -/
def prodCols (p : Prod) : Nat := if p.kind = .mmv then 1 else if 2 ≤ p.f.acc then 256 else 128
def prodDraw (s : State) (p : Prod) (i j b : Nat) : Nat :=
  if p.f.rnd = 5 ∧ p.f.acc ≠ 1 then drawn s.here.mat.gen (b * 128 * prodCols p + i * prodCols p + j) else 0
def prodAfter (s : State) (p : Prod) (x y : Operand) (start : Nat) (i j : Nat) : Nat → (Nat × Bool) × Flags
  | 0 => ((start, false), 0)
  | b + 1 =>
    let a := prodAfter s p x y start i j b
    let v := prodValue s p x y i j b
    let r := accStep p.f.acc p.f.rnd p.f.shift (prodDraw s p i j b) a.1 v.1
    (r.1, a.2 ||| r.2 ||| if a.1.2 then 0 else v.2)

/-- The container (i, j) of tile t, by the word's mode. -/
def container (p : Prod) (x : Tiles) (t i j : Nat) : Nat :=
  let n := if 2 ≤ p.f.acc then 40 else 80
  (x.rowAt t i).toNat / 2 ^ (n * j) % 2 ^ n

/-- The clocks of a product word (06 R177-R179, Table 60). -/
def prodClocks (p : Prod) (assay : Bool) : Nat :=
  let wide := fun (c : Nat) => c = 0 ∨ c = 1 ∨ c = 5
  let natural := if wide p.f.a ∧ wide p.f.b then 8192 else if wide p.f.a ∨ wide p.f.b then 16384 else 32768
  let rate := if p.f.gang = 0 then natural else if p.f.gang = 1 then 8192 else min natural 16384
  let count := 128 * prodCols p * (if p.kind = .mmas then 16 else 32) * p.f.kext
  8 + (if assay then 2 else 1) * ((count + rate - 1) / rate)

/-- The three product words by kind. -/
def productOf (kind : ProdKind) (k : BitVec 2) (a : BitVec 5) (j : BitVec 2) (b t : BitVec 5) (z st p : Bool) : Instr :=
  match kind with
  | .mma => .mMma k a j b t z st p
  | .mmas => .mMmas k a j b t z st p
  | .mmv => .mMmv k a j b t z st p

/-- A product word's issue as far as its operands: its turn, its format word, stamp and captures popped (s1), its fields p,
both operands read (u). -/
def productReads (s u : State) (i : Instr) (st : Bool) (stamp : Word) (p : Prod) (x y : Operand) : Prop :=
  s.engineMayIssue .m i = true ∧ s.here.mat.owed = 0 ∧ ∃ fmt caps s1 s2,
    (productPops i st).run s = .ok (fmt, stamp, caps) s1 ∧ p.f = Fmt.of fmt ∧ p.caps = caps ∧ p.delta = s.here.matDelta ∧
    (fetchOperand (s.here.at_ .m).1 p.k p.a p.capA p.delta 128 p.kbA p.f.kext p.f.planeA).run s1 = .ok x s2 ∧
    (fetchOperand (s.here.at_ .m).1 p.j p.b p.capB p.delta p.cols p.kbB p.f.kext p.f.planeB).run s2 = .ok y u

/-- The product word at the counter counts for the assay interval: outside a nest each, in a nest the first of an iteration
(06 R200; which of an iteration's words it is, is the model's choice, log 48). -/
def countsHere (s : State) : Bool :=
  match s.here.mat.nest with
  | none => true
  | some n => (n.body.take n.pos).all fun w => !isProduct w

/-- The product word at the counter is an assay word (06 R200, R201). -/
def assayDue (s : State) : Bool :=
  s.here.mat.assayNext ||
    (countsHere s && decide (s.here.mat.assayN ≠ 0 ∧ (s.here.mat.count + 1) % s.here.mat.assayN = 0))

/-- The toll of the product word at the counter: computed outside a nest and at iteration 0, which charges it in every
iteration (06 R189). -/
def tollHere (s : State) (p : Prod) (x y : Operand) : Nat := s.here.matToll.getD (p.toll (assayDue s) x y)

/-- Where engine e stands once its word has retired: at walk index w, address a, or still at its word until the scalar counter
stands there (02 R33). -/
def goneTo (c : Core) (e : Engine) (w : Nat) (a : Word) : Counter :=
  if w ≤ c.sc.ctr.walk then { walk := w, addr := a } else { c.ctr e with next := some (w, a) }

/-- No X.META has begun and is not done: it executes whole with respect to M.MMAS (07 R241). -/
def noMeta (s : State) : Prop := ∀ r ∈ s.here.cpy.runs, 0 < r.unit → ∀ d a b c e, r.word ≠ .xMeta d a b c e

/-- Whether request a goes before b at tick now (06 R190). -/
def servedBefore (now : Nat) (a b : TollReq) : Prop :=
  let old := fun (x : TollReq) => x.since + 4096 ≤ now
  (old a ∧ ¬ old b) ∨
    (old a ∧ old b ∧ (a.since < b.since ∨ a.since = b.since ∧ (a.toll < b.toll ∨ a.toll = b.toll ∧ a.core < b.core))) ∨
    (¬ old a ∧ ¬ old b ∧ (a.toll < b.toll ∨ a.toll = b.toll ∧ (a.since < b.since ∨ a.since = b.since ∧ a.core < b.core)))

end Sys2Proof.Claim

open Sys2Proof Sys2Proof.Machine Sys2Proof.Claim

/-- 06 R180, R192, R193, R200, R202, 03 R82, R87, R89, R90: a product word that passes its checks, has its toll paid and, when
stamped, stands at its tick, writes every container of its columns with the accumulation of its blocks, from zero with
zero-first; the others keep their bits; its flags are merged; it counts, and occupies the engine for its clocks. -/
def Obligations.ProductsFormEveryContainer : Prop :=
  ∀ (s u : State) (kind : ProdKind) (k : BitVec 2) (a : BitVec 5) (j : BitVec 2) (b t : BitVec 5) (z st ts : Bool) (stamp : Word)
    (p : Prod) (x y : Operand), p.kind = kind → p.k = k.toNat → p.a = a.toNat → p.j = j.toNat → p.b = b.toNat → p.t = t.toNat →
    p.zero = (z && s.here.matFirst) → productReads s u (productOf kind k a j b t z st ts) st stamp p x y →
    p.refused s.here = false → (st = true → s.here.mat.pin = true ∧ (s.here.mat.release = true ∨ stamp.toNat = s.stamp)) →
    s.here.mat.paid.isSome = true → s.here.mat.busy ≤ s.stamp → x.bad = [] → y.bad = [] → s.here.badCells = [] →
    (kind = .mmas → noMeta s ∧ ∀ o ∈ s.here.tiles.sideBad, o < p.sideAt ∨ p.sideAt + 512 * p.f.kext ≤ o) →
    (z = false ∨ s.here.matFirst = false → sound s.here.tiles t.toNat) →
    let old := s.here.tiles
    let start := fun (r c : Nat) => if p.zero then 0 else container p old t.toNat r c
    let out := fun (r c : Nat) => prodAfter s p x y (start r c) r c p.f.kext
    ∃ v, exec (productOf kind k a j b t z st ts) s = .next (matrixRetired v (prodClocks p (assayDue s))) ∧
      (∀ r c, r < 128 → c < (if 2 ≤ p.f.acc then 256 else 128) → container p v.here.tiles t.toNat r c =
        if c < prodCols p then (out r c).1.1 else container p old t.toNat r c) ∧
      (v.here.tiles.infoAt t.toNat).split = decide (2 ≤ p.f.acc) ∧
      (∀ f, f < 6 → ((v.here.tiles.infoAt t.toNat).status.getLsbD f = true ↔ (old.infoAt t.toNat).status.getLsbD f = true ∨
        ∃ r c, r < 128 ∧ c < prodCols p ∧ (out r c).2.getLsbD f = true)) ∧
      (∀ m, m ≠ t.toNat → (∀ r, r < 128 → v.here.tiles.rowAt m r = old.rowAt m r) ∧ v.here.tiles.infoAt m = old.infoAt m) ∧
      v.here.mat.gen = (if p.f.rnd = 5 ∧ p.f.acc ≠ 1 then afterDraws s.here.mat.gen (p.f.kext * 128 * prodCols p)
        else s.here.mat.gen) ∧
      v.here.mat.count = (if countsHere s then s.here.mat.count + 1 else s.here.mat.count) ∧
      v.here.mat.assayNext = false ∧ v.here.mat.paid = none ∧ v.here.mat.release = false ∧
      v.here.mat.off = (if assayDue s then s.here.mat.off % 127 + 1 else s.here.mat.off) ∧ u.sameMemory v

/-- 06 R181, R183, 02 R38, R39, R53: where operands come from: a vector tile gives row i mod 128 from byte 640 times i over 128,
a descriptor BASE + i times PITCH, and scale bytes the next tile or the plane; a format word comes from the queue's head, and an
empty queue, or one whose oldest value comes from a later word, raises FMTEMPTY; a value with [25:0] not zero raises RESBITS,
one with a reserved code, a K extent of 0 or a SHIFT beyond its limit OPERAND. -/
def Sys2Proof.Claim.OperandsAndFormatsArePopped : Prop :=
  (∀ (s : State) (w n count kb kext : Nat) (caps : List Word) (delta : Int) (plane : Bool), ∃ x : Operand,
    (fetchOperand w 0 n caps delta count kb kext plane).run s = .ok x s ∧ x.vecs.length = count ∧
    (∀ i o v, x.vecs[i]? = some v → o < kb → 640 * (i / 128) + o < 1280 → v[o]? =
      some (BitVec.ofNat 8 ((s.here.tiles.rowAt (32 + n) (i % 128)).toNat / 2 ^ (8 * (640 * (i / 128) + o))))) ∧
    (plane = true → ∀ i o v, x.scales[i]? = some v → o < kext → 640 * (i / 128) + o < 1280 → v[o]? =
      some (BitVec.ofNat 8 ((s.here.tiles.rowAt (32 + n + 1) (i % 128)).toNat / 2 ^ (8 * (640 * (i / 128) + o)))))) ∧
  (∀ (s : State) (w n count kb kext base pitch tp : Nat) (a b : Word) (plane : Bool), s.here.job.recmode = 0 →
    s.here.runner = none → a.toNat = 2 ^ 63 + pitch * 2 ^ 32 + base → base < 2 ^ 26 → pitch < 2 ^ 16 → base % 8 = 0 →
    pitch % 8 = 0 → b.toNat = tp → tp < 2 ^ 26 → tp % 8 = 0 →
    s.records.waiting = [] →
    (∀ loc len, s.held s.cur
      { walk := w, eng := .m, kinds := { mr := true }, home := some (s.home loc), loc := loc, len := len } = false) →
    ∃ x : Operand, (fetchOperand w 1 n [a, b] 0 count kb kext plane).run s = .ok x s ∧
      x.vecs = (List.range count).map (fun i => s.bytes (padRow s base pitch i) kb) ∧
      x.scales = if plane then (List.range count).map (fun i => s.bytes (padLoc (clusterOf s.cur) (base + tp + i * kext)) kext)
        else []) ∧
  (∀ (s : State) (i : Instr) (h : Handed) (l : List Handed), s.here.mat.nest = none → s.here.hand.fmtq = h :: l →
    h.walk < (s.here.at_ .m).1 → hasCaptures i = false → h.val.toNat % 2 ^ 26 = 0 → (Fmt.of h.val).bad = false →
    (productPops i false).run s = .ok (h.val, 0, []) (s.setHere { s.here with hand := { s.here.hand with fmtq := l } })) ∧
  ∀ (s : State) (k : BitVec 2) (a : BitVec 5) (j : BitVec 2) (b t : BitVec 5) (z ts : Bool),
    let i := Instr.mMma k a j b t z false ts
    let ends := fun (c : Cause) => s.parks c → ∃ u, exec i s = .next u ∧ s.entered u .m { cause := c }
    s.engineMayIssue .m i = true → s.here.mat.owed = 0 → s.here.mat.nest = none →
    ((∀ h, s.here.hand.fmtq.head? = some h → (s.here.at_ .m).1 ≤ h.walk) → ends .fmtempty) ∧
    (∀ h, s.here.hand.fmtq.head? = some h → h.walk < (s.here.at_ .m).1 →
      let f := Fmt.of h.val
      (h.val.toNat % 2 ^ 26 ≠ 0 → ends .resbits) ∧
      (h.val.toNat % 2 ^ 26 = 0 → 5 < f.a ∨ 5 < f.b ∨ 3 < f.acc ∨ 2 < f.gang ∨ f.kext = 0 ∨ 5 < f.rnd ∨ 3 < f.scale ∨
        f.acc = 2 ∧ 39 < f.shift → ends .operand))

/-- 06 R187-R191, R201, R203: an unpaid product word takes its toll from the reservation or asks the arbiter; a stamped one that
comes after its tick raises SCHEDMISS; M.TOLL asks for a reservation and goes on once it is granted; the arbiter grants the
first request in its order while it fits; each refill is due at a multiple of 16 ticks; M.ASSAY and M.START mark the engine. -/
def Sys2Proof.Claim.TollsAreAskedGrantedAndRefilled : Prop :=
  (∀ (s u : State) (kind : ProdKind) (k : BitVec 2) (a : BitVec 5) (j : BitVec 2) (b t : BitVec 5) (z st ts : Bool)
    (stamp : Word) (p : Prod) (x y : Operand), p.kind = kind → p.k = k.toNat → p.a = a.toNat → p.j = j.toNat → p.b = b.toNat →
    p.t = t.toNat → p.zero = (z && s.here.matFirst) → productReads s u (productOf kind k a j b t z st ts) st stamp p x y →
    p.refused s.here = false → (st = true → s.here.mat.pin = true) →
    (kind = .mmas → noMeta s) →
    let i := productOf kind k a j b t z st ts
    (st = true → s.here.mat.release = false → stamp.toNat < s.stamp → s.parks .schedmiss →
      ∃ v, exec i s = .next v ∧ s.entered v .m { cause := .schedmiss }) ∧
    (st = false ∨ s.here.mat.release = true ∨ s.stamp ≤ stamp.toNat → s.here.mat.paid = none → s.here.mat.asked = none →
      let toll := tollHere s p x y
      (toll ≤ s.here.mat.resv → exec i s = .next { s.setHere { s.here with mat := { s.here.mat with
        resv := s.here.mat.resv - toll, paid := some toll, toll := toll } } with stalled := false }) ∧
      (s.here.mat.resv < toll → ∃ v, exec i s = .next v ∧ v.stalled = false ∧ v.here.mat.asked = some (toll, s.stamp) ∧
        (v.bucket (clusterOf s.cur)).waiting = (s.bucket (clusterOf s.cur)).waiting ++
          [{ core := s.cur, toll := toll, resv := false, since := s.stamp }] ∧ v.here.hand = s.here.hand))) ∧
  (∀ (s : State) (n : BitVec 20), matrixTurn s (.mToll n) →
    (s.here.mat.paid = some 0 →
      exec (.mToll n) s = .next (matrixRetired (s.setHere { s.here with mat := { s.here.mat with paid := none } }) 1)) ∧
    (s.here.mat.paid ≠ some 0 → s.here.mat.asked = none → ∃ v, exec (.mToll n) s = .next v ∧ v.stalled = false ∧
      v.here.mat = { s.here.mat with asked := some (n.toNat, s.stamp) } ∧ v.here.mat.ctr = s.here.mat.ctr ∧
      (v.bucket (clusterOf s.cur)).waiting = (s.bucket (clusterOf s.cur)).waiting ++
        [{ core := s.cur, toll := n.toNat, resv := true, since := s.stamp }]) ∧
    (s.here.mat.paid ≠ some 0 → s.here.mat.asked.isSome = true → exec (.mToll n) s = stood s)) ∧
  (∀ (s : State) (c : Nat) (r : TollReq), r ∈ (s.bucket c).waiting →
    (∀ x ∈ (s.bucket c).waiting, x = r ∨ servedBefore s.stamp r x) →
    let b := s.bucket c
    let fits := (r.toll : Int) ≤ b.level ∨ b.level = b.cap ∧ b.cap < r.toll
    (¬ fits → exec (.tollGrant c) s = stood s) ∧
    (fits → ∃ v, exec (.tollGrant c) s = .next v ∧ v.stalled = false ∧ (v.bucket c).level = b.level - r.toll ∧
      (∀ x, x ∈ (v.bucket c).waiting ↔ x ∈ b.waiting ∧ x.core ≠ r.core) ∧ (∀ k, k ≠ r.core → v.core k = s.core k) ∧
      let m := (s.core r.core).mat
      let m' := (v.core r.core).mat
      m'.asked = none ∧ (r.resv = false → m'.toll = r.toll ∧ m'.paid = some r.toll ∧ m'.resv = m.resv) ∧
      (r.resv = true → m'.resv = m.resv + r.toll ∧ (m.owed ≠ 0 → m'.owed = 0 ∧ m'.paid = m.paid) ∧
        (m.owed = 0 → m'.paid = some 0)))) ∧
  (∀ s : State, (s.stamp / 16 ≤ s.banks.refilled → exec .tollRefill s = stood s) ∧
    (s.banks.refilled < s.stamp / 16 → ∃ v, exec .tollRefill s = .next v ∧ v.stalled = false ∧
      v.banks.refilled = s.banks.refilled + 1 ∧ v.cores = s.cores ∧
      ∀ k, v.bucket k = { s.bucket k with level := min ((s.bucket k).cap : Int) ((s.bucket k).level + (s.bucket k).rate) } ∧
        v.stack k = { s.stack k with level := min ((s.stack k).cap : Int) ((s.stack k).level + (s.stack k).rate) })) ∧
  (∀ s : State, matrixTurn s .mAssay →
    exec .mAssay s = .next (matrixRetired (s.setHere { s.here with mat := { s.here.mat with assayNext := true } }) 1)) ∧
  ∀ s : State, matrixTurn s .mStart → s.here.mat.nest = none →
    exec .mStart s = .next (matrixRetired (s.setHere { s.here with mat := { s.here.mat with
      win := some { gen := s.here.mat.gen, closed := false, entries := [] } } }) 1)

/-- 06 R195-R197, R206, R179: M.ZERO, M.LOAD, M.DRAIN and M.SWAP change whole tiles, their modes and status words, and nothing
else of the engine but its window; the rows that M.DRAIN writes to a descriptor wait in the request path; M.STAT hands one item
to the scalar engine. -/
def Obligations.TileTransfersMoveWholeTiles : Prop :=
  (∀ (s : State) (n : BitVec 5) (sp : Bool), matrixTurn s (.mZero n sp) →
    ∃ u, exec (.mZero n sp) s = .next (matrixRetired u 72) ∧ matKept s u ∧ s.sameMemory u ∧
      tileIs s.here.tiles u.here.tiles n.toNat (fun _ => 0) sp (s.here.tiles.infoAt n.toNat).status) ∧
  (∀ (s : State) (n m : BitVec 5) (z : Bool),
    let x := s.here.tiles
    let v := 32 + m.toNat
    (matrixTurn s (.mLoadTile n m) → sound x v →
      ∃ u, exec (.mLoadTile n m) s = .next (matrixRetired u 136) ∧ matKept s u ∧ s.sameMemory u ∧
        tileIs x u.here.tiles n.toNat (x.rowAt v) (x.infoAt v).split ((x.infoAt n.toNat).status ||| (x.infoAt v).status)) ∧
    (matrixTurn s (.mDrainTile n m z) → sound x n.toNat →
      ∃ u y, exec (.mDrainTile n m z) s = .next (matrixRetired u 136) ∧ matKept s u ∧ s.sameMemory u ∧
        tileIs x y v (x.rowAt n.toNat) (x.infoAt n.toNat).split ((x.infoAt v).status ||| (x.infoAt n.toNat).status) ∧
        tileIs y u.here.tiles n.toNat (fun r => if z then 0 else x.rowAt n.toNat r) (x.infoAt n.toNat).split
          (x.infoAt n.toNat).status) ∧
    (matrixTurn s (.mSwap n m) → sound x n.toNat → sound x v →
      ∃ u y, exec (.mSwap n m) s = .next (matrixRetired u 136) ∧ matKept s u ∧ s.sameMemory u ∧
        tileIs x y v (x.rowAt n.toNat) (x.infoAt n.toNat).split (x.infoAt n.toNat).status ∧
        tileIs y u.here.tiles n.toNat (x.rowAt v) (x.infoAt v).split (x.infoAt v).status)) ∧
  (∀ (s : State) (n k : BitVec 5) (sp : Bool) (cls : BitVec 4) (a b : Word) (base pitch : Nat),
    matrixTurn s (.mLoadDesc n k sp cls) → captured s a b → padDesc a b base pitch → unlogged s →
    rowsClear s cls.toNat base pitch { mr := true } → (∀ r, r < 128 → s.verify (padRow s base pitch r) 1280 = none) →
    ∃ u, exec (.mLoadDesc n k sp cls) s = .next (matrixRetired u 136) ∧ matKept s u ∧ s.sameMemory u ∧
      tileIs s.here.tiles u.here.tiles n.toNat
        (fun r => BitVec.ofNat 10240 (leNat (s.bytes (padRow s base pitch r) 1280))) sp
        (s.here.tiles.infoAt n.toNat).status) ∧
  (∀ (s : State) (n k : BitVec 5) (cls : BitVec 4) (z : Bool) (a b : Word) (base pitch : Nat),
    matrixTurn s (.mDrainDesc n k cls z) → captured s a b → padDesc a b base pitch → s.here.job.recmode = 0 →
    s.here.runner = none → sound s.here.tiles n.toNat →
    let drained := (List.range 128).foldl (fun x r =>
      laidDown x .m cls.toNat { mw := true } (padRow s base pitch r) (leBytes 1280 (s.here.tiles.rowAt n.toNat r).toNat)) s
    ∃ u, exec (.mDrainDesc n k cls z) s = .next (matrixRetired u 136) ∧ matKept s u ∧ s.sameMemory u ∧
      u.here.req.path = drained.here.req.path ∧
      tileIs s.here.tiles u.here.tiles n.toNat (fun r => if z then 0 else s.here.tiles.rowAt n.toNat r)
        (s.here.tiles.infoAt n.toNat).split (s.here.tiles.infoAt n.toNat).status) ∧
  ∀ (s : State), s.here.hand.ret = none →
    let m := s.here.mat
    let gives := fun (i : Instr) (x : Tiles) (v : Word) => matrixTurn s i →
      exec i s = .next ((s.setHere { s.here with
        tiles := x, hand := { s.here.hand with ret := some v }
        mat := { m with busy := s.stamp + 1 } }).engineRetired .m)
    let waitingIn := fun (q : List Handed) => (q.filter fun h => decide (h.walk < (s.here.at_ .m).1)).length
    (∀ n : BitVec 5, gives (.mStatStat n) s.here.tiles ((s.here.tiles.infoAt n.toNat).status.setWidth 64)) ∧
    (∀ (n : BitVec 5) (k : BitVec 6), gives (.mStatClear n k)
      (s.here.tiles.setInfo n.toNat { (s.here.tiles.infoAt n.toNat) with
        status := (s.here.tiles.infoAt n.toNat).status &&& ~~~k }) ((s.here.tiles.infoAt n.toNat).status.setWidth 64)) ∧
    gives .mStatQueues s.here.tiles
      (word (m.resv % 2 ^ 32 * 2 ^ 32 + waitingIn s.here.hand.stampq * 2 ^ 16 + waitingIn s.here.hand.fmtq)) ∧
    gives .mStatAssay s.here.tiles m.record ∧
    gives .mStatWindow s.here.tiles (word (m.replays % 2 ^ 32 * 2 ^ 16 + match m.win with
      | some w => (if w.closed then 512 else 0) + (w.entries.filter fun e => !e.cont).length
      | none => 512)) ∧
    gives .mStatToll s.here.tiles
      (word (BitVec.ofInt 32 (s.bucket (clusterOf s.cur)).level).toNat * 2 ^ 32 + word (m.toll % 2 ^ 32))

/-- 02 R45, R31, R33, R39, R53, 05 R154, R155, 06 R198, 07 R246: a nest word reads its body behind it and stands ready at the
first step; with no step the engine goes on behind the body, and the matrix engine first pops at each body word the format word
and the captures that it would pop, and nothing else happens; a nest, a return word, a stamped matrix word or a word of another
engine in the body raises ILLWORD; as words retire the nest moves through its body and steps, and the engine goes on behind
it. -/
def Obligations.NestsRunTheirBody : Prop :=
  let nestOf := fun (e : Engine) (b : BitVec 6) (l st : BitVec 3) => match e with
    | .v => Instr.vNest b l st | .m => .mNest b l | _ => .xNest b l
  (∀ (s : State) (e : Engine) (b : BitVec 6) (l st : BitVec 3) (body : List (BitVec 32)), (e = .v ∨ e = .m ∨ e = .x) →
    (e ≠ .v → st = 0) → s.engineMayIssue e (nestOf e b l st) = true → body.length = b.toNat + 1 →
    (∀ n w, body[n]? = some w → (fetchText ((s.here.at_ e).2 + word (4 * (n + 1)))).run s = .ok w s) →
    let loops := (match e with | .v => s.here.vec.loops | .m => s.here.mat.loops | _ => s.here.cpy.loops).getD l.toNat {}
    let trips := ((List.range 6).map fun d => (loops.words.getD (d + 1) 0).toNat % 2 ^ 32).prod
    let wrong := fun (w : BitVec 32) =>
      engineOf (w.extractLsb' 30 2) ≠ e ∨ w.toNat / 2 ^ 24 ∈ [0x66, 0x68, 0x89, 0x64, 0x8B, 0xCD] ∨
        w.toNat / 2 ^ 24 ∈ [0x81, 0x82, 0x83] ∧ w.getLsbD 3 = true
    ((∃ w ∈ body, wrong w) → s.earlierFirst e = false → s.parks .illword →
      ∃ u, exec (nestOf e b l st) s = .next u ∧ s.entered u e { cause := .illword }) ∧
    ((∀ w ∈ body, ¬ wrong w) → trips ≠ 0 ∨ e = .m → ∃ u n, exec (nestOf e b l st) s = .next u ∧ u.stalled = false ∧
      u.here.nest e = some n ∧ n.body = body ∧ n.trips = trips ∧ n.iter = 0 ∧ n.pos = 0 ∧ n.set = l.toNat ∧
      n.steps = (if trips = 0 then 1 else if st = 0 then trips else trips + st.toNat - 1) ∧ n.stages = st.toNat ∧
      n.stale = false ∧ u.here.ctr e = s.here.ctr e ∧ s.sameMemory u ∧
      (e = .v → u.here.vec.rrb = s.here.vec.rrb % 16 ∧ ∀ k, k < 7 → u.here.vec.preds.getD k 0 =
        if k < st.toNat then (if k = 0 then BitVec.allOnes 256 else 0) else s.here.vec.preds.getD k 0)) ∧
    ((∀ w ∈ body, ¬ wrong w) → trips = 0 → e ≠ .m →
      ∃ u, exec (nestOf e b l st) s = .next u ∧ u.stalled = false ∧ u.here.nest e = s.here.nest e ∧ s.sameMemory u ∧
        u.here.ctr e = goneTo s.here e ((s.here.ctr e).walk + 1 + body.length)
          ((s.here.ctr e).addr + word (4 * (1 + body.length))))) ∧
  (∀ (s : State) (n : Nest) (w : BitVec 32), s.here.awake = true → s.gatedBelow = false → s.here.mat.nest = some n →
    n.iter = 0 → (s.here.mat.ctr).stop = false → s.here.mat.ctr.next = none → s.here.stands (s.here.at_ .m).1 = true →
    let pops := fun (h : Hand) => 
      popWord w s = .next ((s.setHere { s.here with hand := h, mat := s.here.mat.endIteration }).engineRetired .m)
    let rest := s.here.hand.descq.filter fun x => x.walk != (s.here.at_ .m).1
    let captured := fun (ok : Prop) => ∀ x, s.here.hand.descq.find? (fun x => x.walk == (s.here.at_ .m).1) = some x →
      (∀ i ∈ x.items, i.isSome = true) → ok
    (isProduct w = false → captureOf w = [] → pops s.here.hand) ∧
    (isProduct w = false → captureOf w ≠ [] → captured (pops { s.here.hand with descq := rest })) ∧
    (isProduct w = true → ∀ h l, s.here.hand.fmtq = h :: l → h.walk < (s.here.at_ .m).1 →
      (h.val.toNat % 2 ^ 26 = 0 → (Fmt.of h.val).bad = false → 
        if captureOf w = [] then pops { s.here.hand with fmtq := l }
        else captured (pops { s.here.hand with fmtq := l, descq := rest })) ∧
      (h.val.toNat % 2 ^ 26 ≠ 0 → s.parks .resbits → ∃ u, popWord w s = .next u ∧ s.entered u .m { cause := .resbits }) ∧
      (h.val.toNat % 2 ^ 26 = 0 → (Fmt.of h.val).bad = true → s.parks .operand →
        ∃ u, popWord w s = .next u ∧ s.entered u .m { cause := .operand }))) ∧
  ∀ (c : Core) (e : Engine) (now : Nat) (n : Nest), (e = .v ∨ e = .m ∨ e = .x) → c.nest e = some n →
    let d := c.engineDone e now
    (n.pos + 1 < n.body.length → d.nest e = some { n with pos := n.pos + 1 } ∧ d.ctr e = c.ctr e) ∧
    (n.body.length ≤ n.pos + 1 → n.iter + 1 < n.steps →
      d.nest e = some { n with pos := 0, iter := n.iter + 1 } ∧ d.ctr e = c.ctr e ∧
      (e = .v → d.vec.rrb = (n.rrb + n.iter + 1) % 16 ∧ ∀ k, k < 7 → d.vec.preds.getD k 0 =
        if k < n.stages then (if k ≤ n.iter + 1 ∧ n.iter + 1 - k < n.trips then BitVec.allOnes 256 else 0)
        else c.vec.preds.getD k 0)) ∧
    (n.body.length ≤ n.pos + 1 → n.steps ≤ n.iter + 1 → d.nest e = none ∧
      (e = .v → c.hand.pv = [] → d.vec.rrb = (n.rrb + n.steps) % 16) ∧
      d.ctr e = goneTo c e ((c.ctr e).walk + 1 + n.body.length) ((c.ctr e).addr + word (4 * (1 + n.body.length))))

namespace Sys2Proof.Claim
open Sys2Proof.Machine

/-! ## Copy words (07 R230-R248) -/

/-- The offset of iteration t of a loop set: index times stride, dimension 0 innermost (07 R229). -/
def loopOffset (l : LoopSet) (t : Nat) : Int :=
  let bound := fun (d : Nat) => (l.words.getD (d + 1) 0).toNat % 2 ^ 32
  ((List.range 6).map fun d =>
    ((t / ((List.range d).map bound).prod % bound d : Nat) : Int) * sext 32 ((l.words.getD (d + 1) 0).toNat / 2 ^ 32)).sum

/-- Row t of descriptor d in copy word r, as a side that moves rows of n bytes (07 R231). -/
def rowAddr (r : CopyRun) (d : CDesc) (slot : Option Nat) (n t : Nat) : Word :=
  if d.kind = 1 then
    match r.q with
    | some q => word (2 ^ 63 + geomBase q.geom + slot.getD 0 * geomBytes q.geom + t * n)
    | none => 0
  else if d.loop then d.addr + r.loop.words.getD 0 0 + BitVec.ofInt 64 (loopOffset r.loop t)
  else d.addr + BitVec.ofInt 64 (t * d.pitch)

/-- Row k of an indexed descriptor (07 R231). -/
def indexedRow (d : CDesc) (k : Nat) : Word := d.addr + BitVec.ofInt 64 (k * d.pitch)

/-- The trips of a loop set. -/
def tripsOf (l : LoopSet) : Nat := ((List.range 6).map fun d => (l.words.getD (d + 1) 0).toNat % 2 ^ 32).prod

/-- A descriptor of the copy engine, and as a side of a word in a nest: its ADDR advanced where NADV says so (07 R231, R246). -/
def descNo (s : State) (n : Nat) : CDesc := CDesc.ofWords (s.here.cpy.descs.getD n [])
def sideOf (s : State) (n : Nat) : CDesc :=
  let d := descNo s n
  let delta := match s.here.cpy.nest with
    | some x => loopOffset (s.here.cpy.loops.getD x.set {}) x.iter
    | none => 0
  if d.nadv = true ∧ d.kind = 0 then { d with addr := d.addr + BitVec.ofInt 64 delta } else d

/-- Words that take a side's descriptor as it is: a host side, the two of a tag slot's transfer (07 R242, 14 R423). -/
def bareSource : Instr → Bool | .xHin .. | .xHdec .. | .xFill .. | .xEvict .. => true | _ => false
def bareDest : Instr → Bool | .xHout .. | .xFill .. | .xEvict .. => true | _ => false

/-- Copy word i as the engine at its counter meets it: what its issue fixes (07 R228, R235, R246). -/
def met (s : State) (i : Instr) : CopyRun :=
  let x := xcdOf i
  { id := s.here.cpy.issued + 1, word := i, walk := (s.here.at_ .x).1, addr := (s.here.at_ .x).2, unit := 0, units := 0
    src := if bareSource i then descNo s x.s else sideOf s x.s
    dst := if bareDest i then descNo s x.d else sideOf s x.d
    words := s.here.cpy.descs.getD x.s [], loop := s.here.cpy.loops.getD x.l {}, cls := x.c, h := x.q
    q := s.here.cpy.handles.getD x.q none }

/-- A copy word may issue: its turn, the claims of those in flight made (07 R220, R232). -/
def copyMayStart (s : State) (i : Instr) : Prop :=
  s.engineMayIssue .x i = true ∧ ∀ r ∈ s.here.cpy.runs, r.claimed = true

/-- Word i of s, its claims made in u, joins the words in flight with n units, and the engine goes on (07 R232, R235). -/
def copyBegins (s u : State) (i : Instr) (n : Nat) (a b : Option Nat) : State :=
  let r := met s i
  let x := { r with units := n, srcSide := a.isSome, dstSide := b.isSome, srcSlot := a, dstSlot := b }
  let c := { u.here with cpy := { u.here.cpy with runs := u.here.cpy.runs ++ [x], issued := r.id } }
  { u.setHere (c.engineDone .x s.stamp) with stalled := false }

/-- A copy word traps, with the copy words before it past their checks; otherwise it waits for them (07 R233). -/
def copyTraps (s : State) (i : Instr) (c : Cause) : Prop :=
  ((∀ r ∈ s.here.cpy.runs, r.passed = true) → s.parks c → ∃ u, exec i s = .next u ∧ s.entered u .x { cause := c }) ∧
  ((∃ r ∈ s.here.cpy.runs, r.passed = false) → exec i s = .next { s with stalled := true })

/-- Limits of Table 74: the reserved fields and KIND; ROWLEN; an indexed or host side. -/
def addrOk (d : CDesc) : Prop := d.res = false ∧ d.kind ≤ 1
def lenOk (d : CDesc) : Prop := 1 ≤ d.rowlen ∧ d.rowlen ≤ 1048576
def flat (d : CDesc) : Prop := d.kind = 0 ∧ d.loop = false
/-- The sizes of the ETYPEs (07 Table 74). -/
def sizeOf' (t : Nat) : Nat := [1, 2, 4, 8, 2, 2, 4, 5, 10].getD t 1

/-- 07 R230, R232, R234, R235: a copy word of two descriptors, neither a queue (X.KV checks its destination at its units), that obeys its rules joins the words in flight;
with T = 0 it is done; a word that breaks one of its rules raises OPERAND and has no effect. -/
def rowsStart (i : Instr) (ok : CDesc → CDesc → Nat → Prop) (units : CDesc → Nat → Nat) (dq : Bool := true) : Prop :=
  ∀ s : State, copyMayStart s i →
    let a := (met s i).src
    let b := (met s i).dst
    let t := tripsOf (met s i).loop
    (addrOk a → addrOk b → t ≤ 2 ^ 32 → ok a b t → a.kind = 0 → (dq = true → b.kind = 0) →
      (t ≠ 0 → units a t ≠ 0 → exec i s = .next (copyBegins s s i (units a t) none none)) ∧
      (t = 0 → exec i s = .next (s.engineRetired .x))) ∧
    (¬ addrOk a ∨ ¬ addrOk b ∨ 2 ^ 32 < t ∨ ¬ ok a b t ∨ a.kind = 1 ∧ b.kind = 1 → copyTraps s i .operand)

/-- 07 R218, R220, R231, R235: a copy word whose one queue side moves rows of n bytes, or of m bytes as its destination, claims
that side's next slot, which must hold T of them, and joins the words in flight; an unset handle raises QFAULT. -/
def queueStarts (i : Instr) (ok : CDesc → CDesc → Nat → Prop) (m : CDesc → CDesc → Nat) (units : CDesc → Nat → Nat) : Prop :=
  ∀ (s u : State) (k : Nat), copyMayStart s i →
    let r := met s i
    let a := r.src
    let b := r.dst
    let t := tripsOf r.loop
    let claims := fun (h : Handle) (prod : Bool) =>
      (claimSlot .x r.cls { cr := !prod, cw := prod } r.id r.h h prod r.walk).run s = .ok k u
    addrOk a → addrOk b → t ≤ 2 ^ 32 → t ≠ 0 → units a t ≠ 0 → ok a b t →
    (a.kind = 1 ∧ b.kind = 0 ∨ a.kind = 0 ∧ b.kind = 1 → r.q = none → copyTraps s i .qfault) ∧
    ∀ h, r.q = some h →
    (a.kind = 1 → b.kind = 0 →
      (t * a.rowlen ≤ geomBytes h.geom → claims h false → exec i s = .next (copyBegins s u i (units a t) (some k) none)) ∧
      (geomBytes h.geom < t * a.rowlen → copyTraps s i .operand)) ∧
    (a.kind = 0 → b.kind = 1 →
      (t * m a b ≤ geomBytes h.geom → claims h true → exec i s = .next (copyBegins s u i (units a t) none (some k))) ∧
      (geomBytes h.geom < t * m a b → copyTraps s i .operand))

/-- A word that may do units while earlier words may still trap: all it does waits in the request path (07 R232, R233). -/
def mayRunAhead : Instr → Bool
  | .xCopy .. | .xGath .. | .xScat .. | .xTrans .. | .xPad .. | .xFill .. | .xEvict .. | .xCheck .. => true
  | _ => false

/-- The picked copy word r in flight is at a unit: the task runs and is not recorded, the claims before it are made, and the words
before it have passed their checks or may be passed (07 R232, R233). -/
def atUnit (s : State) (r : CopyRun) : Prop :=
  s.here.awake = true ∧ s.gatedBelow = false ∧ s.here.job.recmode = 0 ∧ s.here.runner = none ∧
    s.here.cpy.runs[s.pick]? = some r ∧ r.passed = false ∧ r.claimed = true ∧ r.unit < r.units ∧
    (∀ x ∈ s.here.cpy.runs.take s.pick, x.claimed = true) ∧
    (s.here.firstRun r = true ∨ mayRunAhead r.word = true)
/-- The same, and the unit completes no slot of a queue. -/
def copying (s : State) (r : CopyRun) : Prop :=
  atUnit s r ∧ (r.unit + 1 < r.units ∨ r.srcSlot = none ∧ r.dstSlot = none)

/-- An access of word r (09 R270); places in memory of this package. -/
def runAccess (s : State) (r : CopyRun) (k : Kinds) (loc len : Nat) : Acc :=
  { walk := r.walk, eng := .x, cls := r.cls, kinds := k, home := some (s.home loc), loc := loc, len := len, run := r.id }
def inPackage (loc : Nat) : Prop := place loc = .dram ∨ place loc = .kv ∨ place loc = .pad

/-- Parts of a range: that they are memory of this package that nothing holds, and every grain good. -/
def partsFree (s : State) (r : CopyRun) (k : Kinds) (ps : List (Nat × Nat)) : Prop :=
  ∀ p ∈ ps, inPackage p.1 ∧ s.held s.cur (runAccess s r k p.1 p.2) = false
def partsGood (s : State) (ps : List (Nat × Nat)) : Prop := ∀ p ∈ ps, s.verify p.1 p.2 = none
def partsApart (ps : List (Nat × Nat)) : Prop := ps.Pairwise fun p q => p.1 + p.2 ≤ q.1 ∨ q.1 + q.2 ≤ p.1

/-- n bytes at va lie at these parts and may be read, every grain good. -/
def rangeIn (s : State) (r : CopyRun) (va : Word) (n : Nat) (ps : List (Nat × Nat)) : Prop :=
  (rangeParts va n .read).run s = .ok ps s ∧ partsFree s r { cr := true } ps ∧ partsGood s ps

/-- n bytes at va lie at these parts and may be written by the unit of r: the grains that the word writes in part are good
(07 R236). -/
def rangeOut (s : State) (r : CopyRun) (va : Word) (n : Nat) (ds : List Dest) : Prop :=
  (destParts r va n .write).run s = .ok ds s ∧ (∀ d ∈ ds, inPackage d.loc) ∧
    ∀ d ∈ ds, d.whole = false → s.verify d.loc d.len = none

/-- The parts of a row that a unit changes at once, with these kinds: nothing holds them, they do not meet, and those that must be
read first are good. -/
def rangeNow (s : State) (r : CopyRun) (n_ : Need) (k : Kinds) (all : Bool) (va : Word) (n : Nat) (ds : List Dest) : Prop :=
  let ps := ds.map fun d => (d.loc, d.len)
  (destParts r va n n_).run s = .ok ds s ∧ partsFree s r k ps ∧ partsApart ps ∧
    ∀ d ∈ ds, all = true ∨ d.whole = false → s.verify d.loc d.len = none
def rangeBoth (s : State) (r : CopyRun) (va : Word) (n : Nat) (ds : List Dest) : Prop :=
  rangeNow s r .both { cr := true, cw := true } true va n ds

/-- The bytes at parts; they hold these bytes in t, and no byte elsewhere changed. -/
def bytesAt (s : State) (ps : List (Nat × Nat)) : List Byte := (ps.map fun p => s.bytes p.1 p.2).flatten
def places (ds : List Dest) : List (Nat × Nat) := ds.map fun d => (d.loc, d.len)
def putAt (s t : State) (ds : List Dest) (bs : List Byte) : Prop :=
  bytesAt t (places ds) = bs ∧ ∀ a, (∀ p ∈ places ds, a < p.1 ∨ p.1 + p.2 ≤ a) → t.byte a = s.byte a

/-- The hallmark that a part's grain gets with it: a fresh one with the last bytes of a grain that the word writes whole by several
rows; a grain that one row writes whole gets one by the write itself (07 R236). -/
def freshMark (d : Dest) : Option (BitVec 32 × Bool) :=
  if d.len ≠ 256 ∧ d.whole = true ∧ d.last = true then some (0, false) else none

/-- The parts of a row wait in the request path with these marks (07 R235, R236, 09 R279). -/
def laidParts (s : State) (r : CopyRun) : List (Dest × Option (BitVec 32 × Bool)) → List Byte → State → State
  | [], _, t => t
  | (d, m) :: ds, bs, t => laidParts s r ds (bs.drop d.len) (joined t {
      acc := { runAccess s r { cw := true } d.loc d.len with page := s.here.pageOf (word d.va) }
      who := s.whoOf s.cur, act := .store (bs.take d.len) m })

/-- In t those parts wait, behind what waited in s, and memory is as it was. -/
def putDown (s t : State) (r : CopyRun) (ds : List Dest) (marks : List (Option (BitVec 32 × Bool))) (bs : List Byte) : Prop :=
  t.here.req.path = (laidParts s r (ds.zip marks) bs s).here.req.path ∧ s.sameMemory t

/-- The unit of word r is done in t: the next unit stands ready, or the word has left those in flight; behind its last unit it waits
there for the words before it (07 R233). -/
def unitDone (s t : State) (r : CopyRun) : Prop :=
  t.stalled = false ∧ (∀ k, k ≠ s.cur → t.core k = s.core k) ∧ t.cur = s.cur ∧ t.here.ctr .x = s.here.ctr .x ∧
  t.here.cpy = { s.here.cpy with
    runs := if r.unit + 1 < r.units ∨ s.here.firstRun r = false
      then s.here.cpy.runs.map fun x => if x.id = r.id then { r with unit := r.unit + 1 } else x
      else s.here.cpy.runs.filter fun x => x.id != r.id }

/-- A trap of the picked unit: at its word, once the words before it have passed their checks (07 R233). -/
def unitTraps (s : State) (r : CopyRun) (x : Trap) : Prop :=
  (s.here.firstRun r = true → s.parks x.cause →
    ∃ u, exec .copyUnit s = .next u ∧ s.enteredAt u .x (r.walk, r.addr) x) ∧
  (s.here.firstRun r = false → exec .copyUnit s = .next { s with stalled := true })

/-- The index that unit t of an indexed word reads at AUX + 4t (07 R237). -/
def indexIs (s : State) (r : CopyRun) (d : CDesc) (k : Nat) : Prop :=
  ∃ ps, rangeIn s r (d.aux + word (4 * r.unit)) 4 ps ∧ leNat (bytesAt s ps) = k ∧ (d.nrows = 0 ∨ k < d.nrows)

/-- Element j of a row, and a sum of two elements by ETYPE (07 R238). -/
def rowElem (t : Nat) (bs : List Byte) (j : Nat) : Nat := leNat ((bs.drop (sizeOf' t * j)).take (sizeOf' t))
def added (t : Nat) (x y : Nat) : Nat :=
  let float := fun (f : FFmt) => (f.round .rne 0 ((f.decode x).add .rne (f.decode y)).1).1
  if t = 4 then float fmtFP16 else if t = 5 then float fmtBF16 else if t = 6 then float fmtFP32
  else (x + y) % 2 ^ (8 * sizeOf' t)

/-- A word that moves one row in its unit does so: every grain it reads good. -/
def movesRow (s : State) (r : CopyRun) (from_ dest : Word) (n : Nat)
    (ok : List (Nat × Nat) → List Dest → Prop := fun _ _ => True) : Prop :=
  ∀ ps ds, ok ps ds → rangeIn s r from_ n ps → rangeOut s r dest n ds →
    ∃ t, exec .copyUnit s = .next t ∧ putDown s t r ds (ds.map freshMark) (bytesAt s ps) ∧ unitDone s t r

/-- The same without v: a part whose grain the word writes whole from one whole source grain goes with that grain's hallmark state,
good or not; the others are verified (07 R236, R237). -/
def carriesRow (s : State) (r : CopyRun) (from_ dest : Word) (n : Nat) : Prop :=
  ∀ ps ds, (rangeParts from_ n .read).run s = .ok ps s → partsFree s r { cr := true } ps → rangeOut s r dest n ds →
    let fs := carried r ps ds
    let marks := ((ps.zip ds).zip fs).map fun x =>
      if x.2 then (if x.1.2.last then some (s.grain (x.1.1.1 / 256)) else none) else freshMark x.1.2
    (ps.map fun p => p.2) = ds.map (fun d => d.len) →
    (∀ x ∈ ps.zip fs, x.2 = false → s.verify x.1.1 x.1.2 = none) →
    ((∀ x ∈ ps.zip fs, x.2 = true → (s.grain (x.1.1 / 256)).2 = false) →
      ∃ t, exec .copyUnit s = .next t ∧ putDown s t r ds marks (bytesAt s ps) ∧ unitDone s t r) ∧
    ((∃ x ∈ ps.zip fs, x.2 = true ∧ (s.grain (x.1.1 / 256)).2 = true) → unitTraps s r { cause := .uncorr })

/-- A unit that reads a row does not where a grain of the row has a bad hallmark: it traps, once every address of the unit has
translated (07 R235, R236). -/
def badRow (s : State) (r : CopyRun) (from_ dest : Word) (n m : Nat) : Prop :=
  ∀ ps ds, (rangeParts from_ n .read).run s = .ok ps s → (destParts r dest m .write).run s = .ok ds s →
    partsFree s r { cr := true } ps → (∃ p ∈ ps, s.verify p.1 p.2 = some .hallmark) → unitTraps s r { cause := .hallmark }

/-- The ALIGN of a copy unit: the 256-byte grain of the element off its alignment, size grain, engine X (04 R118, Table 52). -/
def copyAlign (va : Word) : Trap :=
  { cause := .align, fault := some (word (va.toNat / 256 * 256), BitVec.ofNat 16 (2 * 2 ^ 8 + 3 * 2 ^ 6 + 9)) }

end Sys2Proof.Claim

open Sys2Proof Sys2Proof.Machine Sys2Proof.Claim

/-- 07 R230-R243, 10 R299, R302, R313, 11 R332, R350, 14 R424, R425, Table 75: each copy word over descriptors that obey its
limits, neither a queue, joins the words in flight, and over others raises OPERAND. X.FILL and X.EVICT check their addresses
and the tag. -/
def Sys2Proof.Claim.CopyWordsCheckAndStartPart : Prop :=
  (∀ (a d : BitVec 4) (l : BitVec 3) (q c : BitVec 4) (v w : Bool),
    let t := fun (_ : CDesc) (t : Nat) => t
    rowsStart (.xCopy a d l q c v) (fun x _ _ => lenOk x) t ∧
    rowsStart (.xGath a d l q c) (fun x _ _ => lenOk x ∧ flat x) t ∧
    rowsStart (.xScat a d l q c) (fun x y _ => lenOk x ∧ flat y) t ∧
    rowsStart (.xSadd a d l q c w) (fun x y _ => lenOk x ∧ flat y ∧ x.etype = y.etype ∧ x.etype ≤ 6 ∧ x.rowlen = y.rowlen ∧
      x.rowlen % sizeOf' x.etype = 0) t ∧
    rowsStart (.xTrans a d l q c) (fun x y n => lenOk x ∧ lenOk y ∧ flat y ∧ x.etype ≤ 8 ∧ x.etype = y.etype ∧
      y.rowlen = n * sizeOf' x.etype ∧ x.rowlen % sizeOf' x.etype = 0) (fun x _ => x.rowlen / sizeOf' x.etype) ∧
    rowsStart (.xPad a d l q c) (fun x y _ => lenOk x ∧ lenOk y ∧ y.etype ≤ 8 ∧ x.rowlen ≤ y.rowlen ∧
      x.rowlen % sizeOf' y.etype = 0 ∧ y.rowlen % sizeOf' y.etype = 0) t ∧
    rowsStart (.xMeta a d l q c) (fun x y n => lenOk x ∧ flat y ∧ y.addr.toNat % 8 = 0 ∧
      y.addr.toNat + n * x.rowlen ≤ 98304) t ∧
    rowsStart (.xFread a d l q c v) (fun x y _ => x.kind = 0 ∧ lenOk x ∧ (y.kind = 1 → y.rowlen = x.rowlen)) t ∧
    rowsStart (.xFapp a d l c v) (fun x y _ => y.kind = 0 ∧ lenOk x ∧ y.addr.toNat % 2 ^ 42 = 0) t ∧
    rowsStart (.xKv a d l c v) (fun x _ _ => x.kind = 0 ∧ lenOk x) t (dq := false) ∧
    rowsStart (.xHin a d l q c v) (fun x y _ => flat x ∧ lenOk x ∧ (y.kind = 1 → y.rowlen = x.rowlen)) t ∧
    rowsStart (.xHout a d l q c v) (fun x y _ => lenOk x ∧ flat y) t ∧
    rowsStart (.xHdec a d l q c v) (fun x y n => flat x ∧ lenOk x ∧ y.kind = 0 ∧ y.aux.toNat + n ≤ 2 ^ 64) t ∧
    rowsStart (.xIred a d l c v w) (fun x y _ => flat x ∧ flat y ∧ x.etype ≤ 1 ∧ y.etype = 2 ∧ sizeOf' x.etype ≤ x.rowlen ∧
      x.rowlen ≤ 4096 ∧ x.rowlen % sizeOf' x.etype = 0 ∧ y.rowlen = 4 * (x.rowlen / sizeOf' x.etype)) t ∧
    rowsStart (.xBankp a d l c v) (fun x y _ => flat x ∧ y.kind = 0 ∧ x.rowlen % 4 = 0 ∧ 68 ≤ x.rowlen ∧ x.rowlen ≤ 1088) t ∧
    rowsStart (.xBankt a d l c v) (fun x y _ => flat x ∧ y.kind = 0 ∧ x.rowlen % 8 = 0 ∧ 8 ≤ x.rowlen ∧ x.rowlen ≤ 8192 ∧
      y.aux ≠ 0 ∧ y.aux.toNat % 2 ^ 19 = 0) t) ∧
  (∀ (s : State) (a : BitVec 4) (l : BitVec 3) (q c : BitVec 4),
    let i := Instr.xCheck a l q c
    let x := (met s i).src
    let n := tripsOf (met s i).loop
    copyMayStart s i →
    (addrOk x → x.kind = 0 → lenOk x → n ≤ 2 ^ 32 →
      (n ≠ 0 → exec i s = .next (copyBegins s s i n none none)) ∧ (n = 0 → exec i s = .next (s.engineRetired .x))) ∧
    (¬ addrOk x ∨ ¬ lenOk x ∨ 2 ^ 32 < n → copyTraps s i .operand)) ∧
  ∀ (s : State) (a d c : BitVec 4) (v fill : Bool),
    let i : Instr := if fill then .xFill a d c v else .xEvict a d c v
    let va := (descNo s (if fill then a else d).toNat).addr.toNat
    let pad := (descNo s (if fill then d else a).toNat).addr.toNat
    let k := pad / 2 ^ 16 % 2 ^ 10
    let ok := va < 2 ^ 52 ∧ va % 2 ^ 16 = 0 ∧ pad / 2 ^ 26 = 2 ^ 37 ∧ pad % 2 ^ 16 = 0 ∧
      ∃ e, (s.crew (clusterOf s.cur)).tags.find? (fun e => e.1 == k) = some e ∧ e.2.toNat = va / 2 ^ 16
    copyMayStart s i → (ok → exec i s = .next (copyBegins s s i 256 none none)) ∧ (¬ ok → copyTraps s i .operand)

/-- 07 R218, R220, R231-R233, R235, R244: every word with one queue side claims its next slot, which must hold its rows, as it
issues, and an unset handle raises QFAULT; at its end the rest of a destination slot is zeroed and the claim's advance follows, both in
the request path, and the advance performs as one on the count and ends the claim; a unit that may not run ahead waits while an
earlier word may still trap; X.WAIT goes on once every earlier copy word of a class in its mask has completed. -/
def Obligations.CopyWordsClaimSlotsAndWait : Prop :=
  (∀ (a d : BitVec 4) (l : BitVec 3) (q c : BitVec 4) (v w : Bool),
    let t := fun (_ : CDesc) (t : Nat) => t
    let same := fun (x _ : CDesc) => x.rowlen
    let other := fun (_ y : CDesc) => y.rowlen
    queueStarts (.xCopy a d l q c v) (fun x _ _ => lenOk x) same t ∧
    queueStarts (.xGath a d l q c) (fun x _ _ => lenOk x ∧ flat x) same t ∧
    queueStarts (.xScat a d l q c) (fun x y _ => lenOk x ∧ flat y) same t ∧
    queueStarts (.xSadd a d l q c w) (fun x y _ => lenOk x ∧ flat y ∧ x.etype = y.etype ∧ x.etype ≤ 6 ∧ x.rowlen = y.rowlen ∧
      x.rowlen % sizeOf' x.etype = 0) other t ∧
    queueStarts (.xTrans a d l q c) (fun x y n => lenOk x ∧ lenOk y ∧ flat y ∧ x.etype ≤ 8 ∧ x.etype = y.etype ∧
      y.rowlen = n * sizeOf' x.etype ∧ x.rowlen % sizeOf' x.etype = 0) other (fun x _ => x.rowlen / sizeOf' x.etype) ∧
    queueStarts (.xPad a d l q c) (fun x y _ => lenOk x ∧ lenOk y ∧ y.etype ≤ 8 ∧ x.rowlen ≤ y.rowlen ∧
      x.rowlen % sizeOf' y.etype = 0 ∧ y.rowlen % sizeOf' y.etype = 0) other t ∧
    queueStarts (.xMeta a d l q c) (fun x y n => lenOk x ∧ flat y ∧ y.addr.toNat % 8 = 0 ∧
      y.addr.toNat + n * x.rowlen ≤ 98304) same t ∧
    queueStarts (.xFread a d l q c v) (fun x y _ => x.kind = 0 ∧ lenOk x ∧ (y.kind = 1 → y.rowlen = x.rowlen)) same t ∧
    queueStarts (.xFapp a d l c v) (fun x y _ => y.kind = 0 ∧ lenOk x ∧ y.addr.toNat % 2 ^ 42 = 0) same t ∧
    queueStarts (.xHin a d l q c v) (fun x y _ => flat x ∧ lenOk x ∧ (y.kind = 1 → y.rowlen = x.rowlen)) same t ∧
    queueStarts (.xHout a d l q c v) (fun x y _ => lenOk x ∧ flat y) same t) ∧
  (∀ (s u : State) (a : BitVec 4) (l : BitVec 3) (q c : BitVec 4) (k : Nat),
    let i := Instr.xCheck a l q c
    let r := met s i
    let n := tripsOf r.loop
    copyMayStart s i → addrOk r.src → r.src.kind = 1 → lenOk r.src → n ≤ 2 ^ 32 → n ≠ 0 →
    (r.q = none → copyTraps s i .qfault) ∧
    ∀ h, r.q = some h →
      (n * r.src.rowlen ≤ geomBytes h.geom → (claimSlot .x r.cls { cr := true } r.id r.h h false r.walk).run s = .ok k u →
        exec i s = .next (copyBegins s u i n (some k) none)) ∧
      (geomBytes h.geom < n * r.src.rowlen → copyTraps s i .operand)) ∧
  (∀ (s : State) (cls run h : Nat) (ks : Kinds) (q : Handle) (prod : Bool) (p c k : Nat) (sd : Side), s.here.job.recmode = 0 →
    s.here.runner = none → owns s .x h q prod (s.here.at_ .x).1 s → unstreamed s q prod → counts s q p c →
    s.here.side h q.gen prod = some sd → sd.claims = k → s.here.claims h q.gen prod = k →
    (let ctl := padLoc (clusterOf s.cur) q.ctl
     s.held s.cur { walk := (s.here.at_ .x).1, eng := .x, cls := cls, kinds := ks, home := some (s.home ctl), loc := ctl, len := 64, run := run } = false) →
    (if prod then p + k < c + geomSlots q.geom else c + k < p) →
    ∃ u, (claimSlot .x cls ks run h q prod (s.here.at_ .x).1).run s =
        .ok ((if prod then p + k else c + k) % geomSlots q.geom) u ∧
      u.here.side h q.gen prod = some { sd with claims := k + 1 } ∧ s.sameMemory u) ∧
  (∀ (s : State) (r : CopyRun) (h : Handle) (k p c : Nat) (sd : Side) (prod : Bool), atUnit s r → r.units = r.unit + 1 →
    s.here.firstRun r = true → r.q = some h → counts s h p c → s.here.side r.h h.gen prod = some sd → sd.owner = .x →
    let n := r.src.rowlen
    let src := rowAddr r r.src r.srcSlot n r.unit
    let ctl := padLoc (clusterOf s.cur) h.ctl
    let ended := fun (t : State) => joined t {
      acc := { runAccess s r { cw := true } ctl 64 with rel := if prod then some 1 else none }
      who := s.whoOf s.cur, act := .count r.h h prod 1 true none }
    (r.srcSlot = some k → r.dstSlot = none → prod = false → (∃ a l q c, r.word = .xCheck a l q c) →
      ∀ ps, rangeIn s r src n ps →
      ∃ u, exec .copyUnit s = .next u ∧ u.here.cpy.runs = s.here.cpy.runs.filter (fun x => x.id != r.id) ∧
        u.here.req.path = (ended s).here.req.path ∧ s.sameMemory u) ∧
    (r.srcSlot = none → r.dstSlot = some k → prod = true → unstreamed s h true →
      (∃ a d l q c, r.word = .xCopy a d l q c true) → r.dst.kind = 1 →
      ∀ ps ds zs, rangeIn s r src n ps → rangeOut s r (rowAddr r r.dst (some k) n r.unit) n ds →
      let rest := geomBytes h.geom - r.units * n
      rangeOut s { r with unit := r.units } (rowAddr r r.dst (some k) n r.units) rest zs →
      let full := laidParts s r (zs.zip (zs.map freshMark)) (List.replicate rest 0)
        (laidParts s r (ds.zip (ds.map freshMark)) (bytesAt s ps) s)
      ∃ u, exec .copyUnit s = .next u ∧ u.here.cpy.runs = s.here.cpy.runs.filter (fun x => x.id != r.id) ∧
        u.here.req.path = (ended full).here.req.path ∧ s.sameMemory u)) ∧
  (∀ (s : State) (n m h : Nat) (i : PathItem) (q : Handle) (prod : Bool), first s n i → i.act = .count h q prod m true none →
    i.who.mode = 0 →
    (∀ x ∈ s.here.req.path.take n, ∀ g r d k b o, x.act = .count g r d k b o → ¬ (g = h ∧ r.gen = q.gen ∧ d = prod)) →
    let loc := padLoc (clusterOf s.cur) (q.ctl + if prod then 0 else 8)
    ∃ t, exec (.heldAccessPerform n) s = .next t ∧ t.stalled = false ∧ t.dword loc = s.dword loc + word m ∧
      changedOnly s t loc 8 ∧ t.here.req.path = s.here.req.path.eraseIdx n ∧
      ∀ sd, s.here.side h q.gen prod = some sd → t.here.side h q.gen prod = some { sd with claims := sd.claims - 1 }) ∧
  (∀ (s : State) (r : CopyRun), s.here.awake = true → s.gatedBelow = false → s.here.cpy.runs[s.pick]? = some r →
    s.here.firstRun r = false → mayRunAhead r.word = false → exec .copyUnit s = .next { s with stalled := true }) ∧
  ∀ (s : State) (m : BitVec 16), s.engineMayIssue .x (.xWait m) = true →
    let done := (∀ r ∈ s.here.cpy.runs, m.getLsbD r.cls = false) ∧
      ∀ p ∈ s.here.req.path, p.acc.run ≠ 0 → m.getLsbD p.acc.cls = false
    (done → exec (.xWait m) s = .next (s.engineRetired .x)) ∧
    (¬ done → exec (.xWait m) s = .next { s with stalled := true })

/-- 07 R233, R235-R237, R239-R243: the units that move data inside the package, with recording off, every grain good and every
page translated: a row, an indexed row, a transposed row, a padded row, sparsity metadata, a grain of a tag slot, a verified
row. What they write waits in the request path with its hallmark. A source that is bad raises HALLMARK at the unit, except that
X.COPY, X.FILL and X.EVICT without v carry grains that they write whole with their hallmark state unverified. -/
def Sys2Proof.Claim.CopyUnitsMoveTheirRows : Prop :=
  ∀ (s : State) (r : CopyRun) (a d : BitVec 4) (l : BitVec 3) (q c : BitVec 4) (v : Bool), copying s r →
    let x := r.src
    let y := r.dst
    let n := x.rowlen
    let src := rowAddr r x r.srcSlot n r.unit
    let apart := fun (ps : List (Nat × Nat)) (ds : List Dest) => (ps.map fun p => p.2) ≠ ds.map (fun d => d.len)
    let verified := fun (from_ dest : Word) => movesRow s r from_ dest n ∧ badRow s r from_ dest n n
    let copies := fun (from_ dest : Word) (n : Nat) =>
      if v then movesRow s r from_ dest n ∧ badRow s r from_ dest n n
      else carriesRow s r from_ dest n ∧ movesRow s r from_ dest n apart
    ((r.word = .xCopy a d l q c v → copies src (rowAddr r y r.dstSlot n r.unit) n) ∧
     (r.word = .xGath a d l q c → ∀ k, indexIs s r x k → verified (indexedRow x k) (rowAddr r y r.dstSlot n r.unit)) ∧
     (r.word = .xScat a d l q c → ∀ k, indexIs s r y k → verified src (indexedRow y k)) ∧
     (r.word = .xFill a d c v ∨ r.word = .xEvict a d c v →
       copies (x.addr + word (256 * r.unit)) (y.addr + word (256 * r.unit)) 256)) ∧
    (r.word = .xTrans a d l q c → ∀ (ps : Nat → List (Nat × Nat)) ds,
      let e := sizeOf' x.etype
      let t := tripsOf r.loop
      (∀ i, i < t → rangeIn s r (rowAddr r x r.srcSlot n i + word (r.unit * e)) e (ps i)) →
      rangeOut s r (indexedRow y r.unit) (t * e) ds →
      ∃ u, exec .copyUnit s = .next u ∧ unitDone s u r ∧
        putDown s u r ds (ds.map freshMark) ((List.range t).map fun i => bytesAt s (ps i)).flatten) ∧
    (r.word = .xTrans a d l q c → ∀ (ps : Nat → List (Nat × Nat)) ds,
      let e := sizeOf' x.etype
      let t := tripsOf r.loop
      (∀ i, i < t → (rangeParts (rowAddr r x r.srcSlot n i + word (r.unit * e)) e .read).run s = .ok (ps i) s ∧
        partsFree s r { cr := true } (ps i)) → (destParts r (indexedRow y r.unit) (t * e) .write).run s = .ok ds s →
      (∃ i < t, ∃ p ∈ ps i, s.verify p.1 p.2 = some .hallmark) → unitTraps s r { cause := .hallmark }) ∧
    (r.word = .xPad a d l q c → badRow s r src (rowAddr r y r.dstSlot y.rowlen r.unit) n y.rowlen) ∧
    (r.word = .xPad a d l q c → ∀ ps ds, n ≤ y.rowlen → rangeIn s r src n ps →
      rangeOut s r (rowAddr r y r.dstSlot y.rowlen r.unit) y.rowlen ds →
      ∃ u, exec .copyUnit s = .next u ∧ unitDone s u r ∧
        putDown s u r ds (ds.map freshMark) (bytesAt s ps ++ (List.range (y.rowlen - n)).map fun i =>
          BitVec.ofNat 8 (y.aux.toNat / 256 ^ ((n + i) % sizeOf' y.etype) % 256))) ∧
    (r.word = .xMeta a d l q c → s.here.firstRun r = true → ∀ ps, rangeIn s r src n ps →
      ∃ u, exec .copyUnit s = .next u ∧ s.sameMemory u ∧ unitDone s u r ∧
        let o := y.addr.toNat + r.unit * n
        getBytes u.here.tiles.side o n = bytesAt s ps ∧
        (∀ a, a < o ∨ o + n ≤ a → Sparse.get (0 : Byte) u.here.tiles.side a = Sparse.get (0 : Byte) s.here.tiles.side a)) ∧
    (r.word = .xCheck a l q c → ∀ ps, rangeIn s r src n ps →
      ∃ u, exec .copyUnit s = .next u ∧ s.sameMemory u ∧ unitDone s u r) ∧
    (r.word = .xCheck a l q c ∨ r.word = .xMeta a d l q c ∧ s.here.firstRun r = true →
      ∀ ps, (rangeParts src n .read).run s = .ok ps s → partsFree s r { cr := true } ps →
      (∃ p ∈ ps, s.verify p.1 p.2 = some .hallmark) → unitTraps s r { cause := .hallmark })

/-- 07 R238, 10 R311, R313: X.SADD adds a row into the row its index names, element by element by its type; X.IRED sums the rows
of a bag, sign-extended, and adds the sums mod 2^32. Both read and verify everything first; an element off its alignment raises
ALIGN. -/
def Sys2Proof.Claim.CopyUnitsAddRows : Prop :=
  ∀ (s : State) (r : CopyRun) (a d : BitVec 4) (l : BitVec 3) (q c : BitVec 4) (v w : Bool), copying s r →
    s.here.firstRun r = true →
    let x := r.src
    let y := r.dst
    let n := x.rowlen
    let sums := fun (t : Nat) (old new : List Byte) (m : Nat) =>
      ((List.range m).map fun j => leBytes (sizeOf' t) (added t (rowElem t old j) (rowElem t new j))).flatten
    (r.word = .xSadd a d l q c w → (w = true → s.here.sc.convOn = false) → x.rowlen % sizeOf' y.etype = 0 →
      ∀ k, indexIs s r y k →
      ((indexedRow y k).toNat % sizeOf' y.etype = 0 → ∀ ps ds,
        rangeIn s r (rowAddr r x r.srcSlot n r.unit) n ps → rangeBoth s r (indexedRow y k) n ds →
        ∃ u, exec .copyUnit s = .next u ∧ unitDone s u r ∧
          putAt s u ds (sums y.etype (bytesAt s (places ds)) (bytesAt s ps) (n / sizeOf' y.etype))) ∧
      ((indexedRow y k).toNat % sizeOf' y.etype ≠ 0 → unitTraps s r (copyAlign (indexedRow y k)))) ∧
    (r.word = .xIred a d l c v w → (w = true → s.here.sc.convOn = false) → x.etype ≤ 1 → n % sizeOf' x.etype = 0 →
      y.rowlen = 4 * (n / sizeOf' x.etype) →
      ∀ (ks : List Nat) (rows : List (Nat × List (Nat × Nat))) (e : Nat) (m : State) ds,
      (readBag r x.aux (tripsOf r.loop - r.aux) r.aux).run s = .ok (ks, e) m →
      (ks.mapM (bagRow x)).run m = .ok rows m → (∀ p ∈ rows, partsFree m r { cr := true } p.2 ∧ partsGood m p.2) →
      (rowAddr r y none y.rowlen r.unit).toNat % 4 = 0 →
      rangeBoth m r (rowAddr r y none y.rowlen r.unit) (4 * (n / sizeOf' x.etype)) ds →
      ∃ u, exec .copyUnit s = .next u ∧ u.stalled = false ∧
        u.here.cpy.runs = (if e = tripsOf r.loop then s.here.cpy.runs.filter fun z => z.id != r.id
          else s.here.cpy.runs.map fun z =>
            if z.id = r.id then { r with units := r.unit + 2, unit := r.unit + 1, aux := e } else z) ∧
        putAt s u ds (((List.range (n / sizeOf' x.etype)).map fun j => leBytes 4 ((rowElem 2 (bytesAt s (places ds)) j +
          ((BitVec.ofInt 32 ((rows.map fun p => sext (8 * sizeOf' x.etype) (rowElem x.etype (bytesAt s p.2) j)).sum)).toNat)) %
            2 ^ 32)).flatten))

/-- 14 R422-R426, 11 R329-R334, R350: units that reach the host and flash: X.HIN and X.HOUT move rows over the link, X.HDEC opens
and authenticates one and marks its frames plain; X.FREAD copies a flash row, X.FAPP appends a page or a log entry, X.KV fills
a slot and writes its entry, and refuses a destination that is not mapped for writing. The host may end a read or a write with
an error (any choice, log 10). -/
def Sys2Proof.Claim.CopyUnitsReachHostAndFlash : Prop :=
  ∀ (s : State) (r : CopyRun) (a d : BitVec 4) (l : BitVec 3) (q c : BitVec 4) (v : Bool), copying s r →
    s.here.firstRun r = true →
    let x := r.src
    let y := r.dst
    let n := x.rowlen
    let hostVa := fun (z : CDesc) => z.addr + BitVec.ofInt 64 (r.unit * z.pitch)
    let k := s.ctx s.here.job.ctx
    let open_ := s.trust.tdisp ≠ .error ∧ k.hostio = true ∧ (k.lockreq = false ∨ s.trust.tdisp = .run)
    let hostFree := fun (kd : Kinds) => s.held s.cur (runAccess s r kd Config.hostBase 0) = false
    let fails := fun (done : State → Prop) => if Config.hostFails s.fresh = true
      then unitTraps s r { cause := .uncorr } else ∃ u, exec .copyUnit s = .next u ∧ done u
    (r.word = .xHin a d l q c v → open_ → hostFree { cr := true } → ∀ ds,
      rangeOut s r (rowAddr r y r.dstSlot n r.unit) n ds →
      fails fun u => putDown s u r ds (ds.map freshMark) (getBytes s.host (hostVa x).toNat n) ∧ unitDone s u r) ∧
    (r.word = .xHout a d l q c v → open_ → hostFree { cw := true } → ∀ ps,
      rangeIn s r (rowAddr r x r.srcSlot n r.unit) n ps →
      fails fun u => getBytes u.host (hostVa y).toNat n = bytesAt s ps ∧ u.mem = s.mem ∧ unitDone s u r ∧
        ∀ b, b < (hostVa y).toNat ∨ (hostVa y).toNat + n ≤ b → Sparse.get (0 : Byte) u.host b = Sparse.get (0 : Byte) s.host b) ∧
    (r.word = .xHin a d l q c v ∨ r.word = .xHout a d l q c v → ¬ open_ → s.parks .protect → ∃ u f,
      exec .copyUnit s = .next u ∧ s.enteredAt u .x (r.walk, r.addr) { cause := .protect, fault := some f }) ∧
    (r.word = .xHdec a d l q c v → open_ → hostFree { cr := true } → k.keyok = true → ∀ ds text,
      let count := y.aux.toNat + r.unit
      let qs := places ds
      k.rxhigh.toNat < count → rangeNow s r .write { cw := true } false (rowAddr r y none n r.unit) n ds →
      (∀ p ∈ qs, place p.1 = .dram) →
      (∀ p ∈ qs, let e := (s.dword (frameAt s (p.1 / 2 ^ 19))).toNat; ftPlain e = true → ftOwner e = s.here.job.ctx) →
      let bs := getBytes s.host (hostVa x).toNat (n + 16)
      let found := gcmOpen k.key (beBytes 4 k.salt.toNat ++ beBytes 8 count) (bs.take n) (bs.drop n)
      (found = some text → text.length = n → fails fun u => bytesAt u qs = text ∧ unitDone s u r ∧
        (u.ctx s.here.job.ctx).rxhigh = word count ∧
        (∀ p ∈ qs, let f := frameAt s (p.1 / 2 ^ 19)
          (∀ q ∈ qs, f + 8 ≤ q.1 ∨ q.1 + q.2 ≤ f) → ftPlain (u.dword f).toNat = true ∧ ftOwner (u.dword f).toNat = s.here.job.ctx) ∧
        ∀ b, (∀ p ∈ qs, b < p.1 ∨ p.1 + p.2 ≤ b) →
          (∀ p ∈ qs, b < frameAt s (p.1 / 2 ^ 19) ∨ frameAt s (p.1 / 2 ^ 19) + 8 ≤ b) → u.byte b = s.byte b) ∧
      (found = none → s.parks .idetag → s.parks .uncorr → ∃ u, exec .copyUnit s = .next u ∧
        s.enteredAt u .x (r.walk, r.addr) { cause := if Config.hostFails s.fresh = true then .uncorr else .idetag })) ∧
    (∀ (va : Word) (no off : Nat) (g : Region), (∀ reg die kd, s.held s.cur
        { walk := r.walk, eng := .x, cls := r.cls, kinds := kd, home := some (.region reg die), run := r.id } = false) →
      let named := va.toNat < 2 ^ 50 ∧ no = va.toNat / 2 ^ 42 ∧ off = va.toNat % 2 ^ 42 ∧ g = s.region no ∧ g.valid = true ∧
        g.ctx = s.here.job.ctx
      let row := named ∧ g.r = true ∧ off / pageBytes < g.pages ∧ off % pageBytes + n ≤ pageBytes ∧
        (g.index = true ∨ off / pageBytes < g.fill) ∧ (s.page (g.pageKey (off / pageBytes))).fault = none
      (r.word = .xFread a d l q c v → va = rowAddr r x none n r.unit → row → ∀ ds,
        rangeOut s r (rowAddr r y r.dstSlot n r.unit) n ds →
        ∃ u, exec .copyUnit s = .next u ∧ putDown s u r ds (ds.map freshMark) (s.flashBytes g off n) ∧ unitDone s u r) ∧
      (r.word = .xFapp a d l c v → va = y.addr → named → g.w = true → ∀ ps,
        rangeIn s r (rowAddr r x r.srcSlot n r.unit) n ps →
        (g.index = false → n = pageBytes → g.fill < g.pages →
          ∃ u, exec .copyUnit s = .next u ∧ (u.region no).fill = g.fill + 1 ∧ s.sameMemory u ∧ unitDone s u r ∧
            getBytes (u.page (g.pageKey g.fill)).bytes 0 n = bytesAt s ps) ∧
        (g.index = true → n = 8 + (s.indexHead g).dim * (s.indexHead g).e → leNat (((bytesAt s ps).drop 4).take 4) ≤ 1 →
          g.logpos - g.merged < g.logcap →
          ∃ u, exec .copyUnit s = .next u ∧ (u.region no).log = g.log ++ [bytesAt s ps] ∧
            (u.region no).logpos = g.logpos + 1 ∧ s.sameMemory u ∧ unitDone s u r)) ∧
      (r.word = .xKv a d l c v → va = rowAddr r x none n r.unit → row → ∀ ds es first size pa,
        let dest := rowAddr r y none n r.unit
        let entry := y.aux + word (16 * r.unit)
        let tokens := x.aux.toNat % 2 ^ 16
        let shaped := y.kind = 0 ∧ x.aux.toNat < 2 ^ 32 ∧ tokens * (x.aux.toNat / 2 ^ 16) = n ∧ dest.toNat < 2 ^ 63 ∧
          dest.toNat % 256 = 0 ∧ y.aux.toNat % 16 = 0 ∧ entry.toNat < 2 ^ 63
        (¬ shaped ∨ (∀ p u, (pageOf dest .write).run s ≠ .ok p u) → unitTraps s r { cause := .operand }) ∧
        (shaped → (pageOf dest .write).run s = .ok (first, size, pa) s →
          (first + size < dest.toNat + n ∨ place pa ≠ .dram ∧ place pa ≠ .kv → unitTraps s r { cause := .operand }) ∧
          (dest.toNat + n ≤ first + size → place pa = .dram ∨ place pa = .kv → rangeNow s r .write { cw := true } false dest n ds →
            rangeBoth s r entry 16 es → leNat (bytesAt s (places es)) / 2 ^ 88 % 2 ^ 8 = 0 →
            (∀ p ∈ places ds, ∀ e ∈ places es, p.1 + p.2 ≤ e.1 ∨ e.1 + e.2 ≤ p.1) →
            ∃ u, exec .copyUnit s = .next u ∧ bytesAt u (places ds) = s.flashBytes g off n ∧ unitDone s u r ∧
              leNat (bytesAt u (places es)) = 2 ^ 62 + dest.toNat +
                2 ^ 64 * ((crc32c (s.flashBytes g off n)).toNat * 2 ^ 32 + tokens)))))

/-- 10 R299, R302, R303: X.BANKP's unit puts a checked image to its bank unit, behind the commands that wait; X.BANKT's loads a
timetable and its window into the channel of its frames; unit 0 of X.BANKGO raises OPERAND unless every channel is LOADED, arms
them before their tick or raises SCHEDMISS, or asks the running ones to stop. An image or a table that breaks its rules raises
OPERAND and changes nothing. -/
def Sys2Proof.Claim.CopyUnitsLoadBanks : Prop :=
  ∀ (s : State) (r : CopyRun) (a d : BitVec 4) (l : BitVec 3) (c : BitVec 4) (v : Bool), copying s r →
    s.here.firstRun r = true →
    let x := r.src
    let y := r.dst
    let n := x.rowlen
    let va := rowAddr r y none 0 r.unit
    let traps := fun (k : Cause) => unitTraps s r { cause := k }
    let w := r.words
    let named := fun (m : Nat) => m < 128 ∧ bit (w.getD (m / 64) 0).toNat (m % 64) = true
    let goesOnAt := fun (t : State) => t.stalled = false ∧ t.here.cpy.runs =
      s.here.cpy.runs.map fun z => if z.id = r.id then { r with unit := 1 } else z
    (r.word = .xBankp a d l c v → ∀ ps pa, (locate va .both .x).run s = .ok pa s → place pa = .dram →
      rangeIn s r (rowAddr r x none n r.unit) n ps →
      let ws := (List.range (n / 4)).map fun j => BitVec.ofNat 32 (leNat (((bytesAt s ps).drop (4 * j)).take 4))
      let u := pa / 2 ^ 30
      let before := ((s.stack (pa / 2 ^ 36)).waiting.filter fun q => q.unit == u).length
      let ok := (∀ w ∈ ws.drop 16, moveOk w = true) ∧ ∀ w ∈ ws.take 16, entryOk (ws.drop 16) w = true
      (ok → ∃ t, exec .copyUnit s = .next t ∧ s.sameMemory t ∧ unitDone s t r ∧
        t.unit u = { s.unit u with uploads := (s.unit u).uploads ++ [(before, ws)] } ∧ ∀ m, m ≠ u → t.unit m = s.unit m) ∧
      (¬ ok → traps .operand)) ∧
    (r.word = .xBankt a d l c v → ∀ fs ps ch, va.toNat % 2 ^ 19 = 0 → fs ≠ [] →
      (windowFrames (y.aux.toNat / 2 ^ 19) va).run s = .ok fs s →
      rangeIn s r (rowAddr r x none n r.unit) n ps → (∀ p ∈ fs, place p.2 = .dram ∧ p.2 / 2 ^ 33 = ch) →
      let ws := (List.range (n / 8)).map fun j => word (leNat (((bytesAt s ps).drop (8 * j)).take 8))
      let starts := (List.range ws.length).filter fun j => kindOf (ws.getD j 0) = 2
      let at_ := fun (j : Nat) => ((ws.take j).map durOf).sum
      let bad := fun (w : Word) => 2 < kindOf w ∨ w.toNat / 2 ^ 41 % 2 ^ 7 ≠ 0 ∨ durOf w = 0 ∨
        (kindOf w = 1 ∧ w.toNat / 2 ^ 52 % 2 ^ 8 = 0) ∨ (kindOf w ≠ 1 ∧ w.toNat / 2 ^ 52 % 2 ^ 8 ≠ 0) ∨
        (kindOf w = 2 ∧ durOf w < 96)
      let close := (∀ j i, starts[j]? = some i → ∀ i', starts[j + 1]? = some i' → at_ i' ≤ at_ i + 3120) ∧
        ∀ i i', starts.head? = some i → starts.getLast? = some i' → at_ i + (ws.map durOf).sum ≤ at_ i' + 3120
      let ok := (∀ w ∈ ws, ¬ bad w) ∧ starts ≠ [] ∧ close ∧ (s.chan ch).st ≠ .armed ∧ (s.chan ch).st ≠ .running
      (ok → ∃ t, exec .copyUnit s = .next t ∧ s.sameMemory t ∧ unitDone s t r ∧ (∀ m, m ≠ ch → t.chan m = s.chan m) ∧
        (t.chan ch).st = .loaded ∧ (t.chan ch).table = ws ∧ (t.chan ch).window = fs ∧ (t.chan ch).slip = 0 ∧
        (t.chan ch).forced = 0 ∧ (t.chan ch).cause = 0) ∧
      (¬ ok → traps .operand)) ∧
    (r.word = .xBankgo a c → bit (w.getD 2 0).toNat 0 = false →
      let start := (w.getD 3 0).toNat
      ((∃ m, named m ∧ (s.chan m).st ≠ .loaded) → traps .operand) ∧
      ((∀ m, named m → (s.chan m).st = .loaded) →
        (s.stamp < start → ∃ t, exec .copyUnit s = .next t ∧ s.sameMemory t ∧ goesOnAt t ∧
          (∀ m, ¬ named m → t.chan m = s.chan m) ∧ ∀ m, named m → (t.chan m).st = .armed ∧ (t.chan m).start = start ∧
            (t.chan m).passes = 0 ∧ (t.chan m).goal = (w.getD 2 0).toNat / 2 ^ 32 ∧ (t.chan m).table = (s.chan m).table) ∧
        (start ≤ s.stamp → traps .schedmiss))) ∧
    (r.word = .xBankgo a c → bit (w.getD 2 0).toNat 0 = true → ∃ t, exec .copyUnit s = .next t ∧ s.sameMemory t ∧ goesOnAt t ∧
      ∀ m, t.chan m = if named m ∧ (s.chan m).st = .running then { s.chan m with stopping := true } else s.chan m)

/-- 10 R303: X.BANKGO checks its descriptor and joins the words in flight, with one unit to stop, two to start; that its channels are
LOADED is checked at unit 0. -/
def Sys2Proof.Claim.BankgoChecksItsChannels : Prop :=
  ∀ (s : State) (a c : BitVec 4), copyMayStart s (.xBankgo a c) →
    let w := s.here.cpy.descs.getD a.toNat []
    let named := fun (m : Nat) => m < 128 ∧ bit (w.getD (m / 64) 0).toNat (m % 64) = true
    let word2 := (w.getD 2 0).toNat
    let stop := word2 % 2 = 1
    let ok := (∃ m, named m) ∧ word2 / 2 % 2 ^ 31 = 0 ∧ (¬ stop → word2 / 2 ^ 32 ≠ 0)
    (ok → exec (.xBankgo a c) s = .next (copyBegins s s (.xBankgo a c) (if stop then 1 else 2) none none)) ∧
    (¬ ok → copyTraps s (.xBankgo a c) .operand)

namespace Sys2Proof.Claim
open Sys2Proof.Machine

/-! ## The words and the step (02, log 1) -/

/-- Instruction i is a move word of a bank unit, whose encodings stand apart from those of program text (10 R295). -/
def isMove : Instr → Bool
  | .move .. | .moveImm .. | .claspMove .. => true
  | _ => false

/-- The state in which place x of the agenda takes its turn (log 1). -/
def turnOf (s : State) (x : Slot) (rest : List Slot) : State :=
  { s with agenda := rest, cur := x.core, stamp := s.stamp + x.dt }

/-- The address of the word at walk index w, as engine e behind counts it (02 R31). -/
def farFrom (c : Core) (e : Engine) (w : Nat) : Word := (c.ctr e).addr + word (4 * (w - (c.ctr e).walk))

/-- The walk's next word for engine e is x, at index w, with no route outcome to take before it (02 R32, R34). -/
def nextWord (c : Core) (e : Engine) (w : Nat) (x : BitVec 32) : Prop :=
  (∃ a, (c.hand.trail.find? fun p => decide ((c.ctr e).walk ≤ p.1) && p.2.concerns e) = some (w, .word x a)) ∧
  ∀ r ∈ c.hand.route, (c.ctr e).walk ≤ r.walk → r.walk ≤ w → r.taken e = true

/-- No stamped word comes due before dt ticks have passed (06 R187). -/
def noStampWithin (s : State) (dt : Nat) : Prop := ∀ p ∈ s.stampTicks, s.stamp + dt < p.1

/-- The turn in which core k's stamped word issues at tick t. -/
def stampTurn (s : State) (t k : Nat) : Slot := { core := k, dt := t - s.stamp, turn := .engine .m }

/-- The text word at physical address pa of memory is w: from the text cache where that holds its grain, else from memory, and the
grain stands in the cache then (02 R30, 01 Table 7). -/
def textWord (u t : State) (pa : Nat) (w : BitVec 32) : Prop :=
  let g := pa / 256
  let at_ := fun (bs : List Byte) => wordOfBytes ((bs.drop (pa % 256)).take 4)
  (∀ p, u.here.text.find? (fun p => p.1 == g) = some p → w = at_ p.2) ∧
  (u.here.text.find? (fun p => p.1 == g) = none →
    w = at_ (u.bytes (256 * g) 256) ∧ t.here.text.head? = some (g, u.bytes (256 * g) 256) ∧ u.verify pa 4 = none)

/-- What stands at a word of text: its instruction, or the step that raises its cause (02 R58). -/
def textInstr (w : BitVec 32) (i : Instr) : Prop := decode w = .instr i ∨ (∀ j, decode w ≠ .instr j) ∧ i = .refusedWord w

/-- The memories of the device and of the host are in their canonical form. -/
def canonical (s : State) : Prop := Memory.wf s.mem = true ∧ Memory.wf s.host = true

end Sys2Proof.Claim

open Sys2Proof Sys2Proof.Machine Sys2Proof.Claim

/-- 02 R29, R48-R58, 10 R295: the words of an instruction and the instruction of a word determine each other. The word of a
well-formed instruction decodes to it, all its operands as they were; and a word that decodes has that instruction, well
formed, for no other word. -/
def Obligations.WordsAndInstructionsAgree : Prop :=
  (∀ (i : Instr) (w : Nat), i.wellFormed = true → encode i = some w →
    w < 2 ^ 32 ∧ (if isMove i then decodeBank (BitVec.ofNat 32 w) else decode (BitVec.ofNat 32 w)) = .instr i) ∧
  (∀ (w : BitVec 32) (i : Instr), decode w = .instr i → i.wellFormed = true ∧ encode i = some w.toNat ∧ isMove i = false) ∧
  (∀ (w : BitVec 32) (i : Instr), decodeBank w = .instr i → i.wellFormed = true ∧ encode i = some w.toNat ∧ isMove i = true)

/-- 04 R118, R120-R122, 05 Tables 19, 20, 06 and 07, 10 Table 105: words that the manual writes out, and what they stand
for. -/
def Obligations.WordsOfTheManualDecodeAsPrinted : Prop :=
  decode 0x04100200 = .instr (.sel 2 0 1) ∧ decode 0x0BF00000 = .instr (.dup 30) ∧
  decode 0x0500FFFF = .instr (.addi 0 false 0 0xFFFF) ∧ decode 0x06110000 = .instr (.andi 2 false 1 0) ∧
  decode 0x0A04FFFE = .instr (.lits 0xFFFE) ∧ decode 0x0A020040 = .instr (.lit 0 2 0x40) ∧
  decode 0x62600000 = .instr (.vGuard 3) ∧ decode 0x841C0000 = .instr (.mZero 3 true) ∧
  decode 0xCB000800 = .instr (.xWait 8) ∧ decode 0 = .instr (.ill 0) ∧
  decode 0xFFFFFFFF = .illword ∧ decode 0x04100201 = .resbits ∧
  decodeBank 0xC0000B01 = .instr (.claspMove 0x0B01)

/-- 02 R29-R34, R40, R45, 04 R97, R134, 06 R198, 07 R232, 10 R294: a step whose turn is an engine's, a bank unit's or an event's
runs the instruction that stands there. The scalar engine fetches its word through translation and the text cache and runs it
(one that R58 refuses as REFUSED_WORD), behind the loads that it must wait for; it passes one of another engine, which raises
CLASPMISS where a landing is due. An engine behind runs the walk's next word of its own, or its nest's; a copy word in flight does
its next unit; a unit runs its store's word. The order of the turns is the model's choice (log 1). -/
def Obligations.StepRunsTheDecodedInstruction : Prop :=
  ∀ (s : State) (x : Slot) (rest : List Slot), s.agenda = x :: rest → noStampWithin s x.dt →
    let u := turnOf s x rest
    let c := u.here
    let a := c.sc.ctr.addr
    (∀ i, x.turn = .event i → step s = exec i u) ∧
    (∀ n, x.turn = .load n → step s = exec .loadReturn { u with pick := n }) ∧
    (∀ n r, x.turn = .copy n → c.cpy.runs[n]? = some r →
      step s = exec (if r.passed then .bankgoComplete else .copyUnit) { u with pick := n }) ∧
    (x.turn = .engine .s → c.run = .running → c.sc.pend = none → c.gated = false → c.deferred = false → c.sc.ctr.stop = false →
      c.runner.isSome = true ∨ c.slipOk = true ∧ (u.core (runnerKey u.cur)).runner = none → c.sc.arrivedBy c.sc.beat = false →
      step s = exec .loadReturn { u with pick := 0 }) ∧
    (∀ (w : BitVec 32) (t : State), x.turn = .engine .s → u.scalarTurn = true →
      (∀ r, c.runner = some r → u.stamp ≤ r.started + 32768) → (fetchText a).run u = .ok w t →
      let own := engineOfWord w = .s ∨ c.runner.isSome = true
      (∀ i, textInstr w i → own → c.sc.loads = [] ∨ undoable i = true → step s = exec i t) ∧
      (∀ i, textInstr w i → own → c.sc.loads ≠ [] → undoable i = false → step s = exec .loadReturn { u with pick := 0 }) ∧
      (¬ own → c.sc.landing = true → c.sc.loads = [] → t.parks .claspmiss →
        ∃ v, step s = .next v ∧ t.entered v .s { cause := .claspmiss }) ∧
      (¬ own → c.sc.landing = false → isReturn w = false → captureOf w = [] → (∀ p ∈ c.hand.trail, p.1 ≠ c.sc.ctr.walk) →
        ∃ v, step s = .next v ∧ v.stalled = false ∧ v.here.sc.ctr.walk = c.sc.ctr.walk + 1 ∧ v.here.sc.ctr.addr = a + 4 ∧
          v.here.hand.trail = c.hand.trail ++ [(c.sc.ctr.walk, .word w a)] ∧ v.here.sc.strand = c.sc.strand ∧ s.sameMemory v) ∧
      ∃ pa t1, (resolve a .exec .s).run u = .ok pa t1 ∧ { t.here with tlb := c.tlb, text := c.text } = c ∧ u.sameMemory t ∧
        (place pa = .dram ∨ place pa = .kv → textWord t1 t pa w)) ∧
    (∀ (e : Engine) (w : Nat) (v : BitVec 32) (i : Instr), x.turn = .engine e → e ≠ .s → c.awake = true →
      (c.nest e).isNone = true → (c.ctr e).stop = false → (c.ctr e).next = none → textInstr v i →
      let m := u.setHere (c.moveTo e w (farFrom c e w))
      (nextWord c e w v → step s = if (c.ctr e).walk = w then exec i m else .next { m with stalled := false }) ∧
      ∀ t, (∀ p ∈ c.hand.trail, (c.ctr e).walk ≤ p.1 → p.2.concerns e = false) →
        (∀ r ∈ c.hand.route, (c.ctr e).walk ≤ r.walk → r.walk ≤ c.sc.ctr.walk → r.taken e = true) →
        (c.ctr e).walk = c.sc.ctr.walk → c.sc.landing = false → (fetchText (c.ctr e).addr).run u = .ok v t →
        engineOfWord v = e → step s = exec i t) ∧
    (∀ (e : Engine) (n : Nest) (v : BitVec 32) (i : Instr), x.turn = .engine e → e ≠ .s → c.run = .running →
      (c.ctr e).next = none → c.nest e = some n → n.stale = false → n.body[n.pos]? = some v →
      (e ≠ .m ∨ n.trips ≠ 0 → textInstr v i → step s = exec i u) ∧
      (e = .m → n.trips = 0 → ∀ t, popWord v u = .next t → step s = .next t)) ∧
    (∀ (g : Nat) (r : UnitRun) (v : BitVec 32) (i : Instr), x.turn = .unit g → (s.unit g).run = some r →
      u.stamp ≤ r.started + r.limit → (s.unit g).store[(s.unit g).pc]? = some v → decodeBank v = .instr i →
      step s = exec i { u with curUnit := g })

/-- 01 R15, 06 R187, log 1: with an empty agenda the step takes the first of the offered turns that is not held up; when all are, a
stamp tick passes and nothing else changes; but a stamped word that is ready at its tick issues before that tick has passed,
whatever the agenda holds. The schedule is the model's choice (log 1). -/
def Obligations.FreeStepTakesTheFirstOpenTurn : Prop :=
  ∀ (s : State),
    (s.agenda = [] → (∀ y ∈ s.offers, noStampWithin s y.dt) →
      (∀ (pre post : List Slot) (x : Slot) (t : State), s.offers = pre ++ x :: post →
        (∀ y ∈ pre, ∃ u, s.take y = .next u ∧ u.stalled = true) → s.take x = .next t → t.stalled = false → step s = .next t) ∧
      (noStampWithin s 1 → (∀ y ∈ s.offers, ∃ u, s.take y = .next u ∧ u.stalled = true) →
        step s = .next { s with stamp := s.stamp + 1, stalled := true })) ∧
    ∀ (t k : Nat) (l : List (Nat × Nat)) (v : State), s.stampTicks = (t, k) :: l → s.take (stampTurn s t k) = .next v →
      v.stalled = false →
      (∀ x rest, s.agenda = x :: rest → t ≤ s.stamp + x.dt → step s = .next v) ∧
      (s.agenda = [] → (s.offers = [] → t ≤ s.stamp + 1) → (∀ x, s.offers.head? = some x → t ≤ s.stamp + x.dt) → step s = .next v)

/-- 01 R18, R208, 14 R423, log 2: every step keeps the memory of the device and the memory of the host in their canonical
form: addresses strictly rising, no byte listed that an unlisted address reads as. -/
def Obligations.EveryStepKeepsMemoryCanonical : Prop :=
  ∀ (s t : State), canonical s → step s = .next t → canonical t

/-- 01 R28, log 2: the machine after reset lists no byte, so its memories are in their canonical form. -/
def Obligations.ResetMemoryIsCanonical : Prop := canonical State.reset

/-- 01 R15, R28, 06 R188, 10 R310, 11 R328, 12 Table 141, 13 Tables 143, 144, 14 Table 157, 04 Table 46: after reset the stamp
counter reads 0, no core holds a task, no waybill is live, and the registers of the package read the reset values of their
maps. -/
def Obligations.ResetLeavesTheMapsValues : Prop :=
  let s := State.reset
  s.stamp = 0 ∧ s.cores = [] ∧ (∀ k, (s.core k).run = .idle) ∧ (∀ e, (s.score e).st = .free ∧ (s.score e).seq = 0) ∧
  (∀ a, s.byte a = 0) ∧
  (∀ c < 9, s.readReg (0x10000 + 0x40 * c) = 0x3D090 ∧ s.readReg (0x10008 + 0x40 * c) = 0x3E8 ∧
    s.readReg (0x10010 + 0x40 * c) = 0x3D090) ∧
  (∀ c < 64, s.readReg (0x20000 + 16 * c) = 0 ∧ s.readReg (0x20008 + 16 * c) = 0 ∧ s.readReg (0x33000 + 16 * c) = 0 ∧
    s.readReg (0x33008 + 16 * c) = 0) ∧
  (∀ k < 16, s.readReg (0x30000 + 0x40 * k) = 0xC350 ∧ s.readReg (0x30008 + 0x40 * k) = 0x138 ∧
    s.readReg (0x30010 + 0x40 * k) = 0xC350 ∧ s.readReg (0x30018 + 0x40 * k) = 0x20) ∧
  (∀ c < 128, s.readReg (0x31000 + 0x20 * c) = 0 ∧ s.readReg (0x31008 + 0x20 * c) = 0 ∧ s.readReg (0x31010 + 0x20 * c) = 0) ∧
  (∀ r < 256, (∀ q < 7, s.readReg (0x40000 + 0x40 * r + 8 * q) = 0) ∧ s.readReg (0x40038 + 0x40 * r) = 0x4000) ∧
  (∀ o, o ∈ [0x50000, 0x50010, 0x50018, 0x50020, 0x50028, 0x50040, 0x50050, 0x50058, 0x50060, 0x50080, 0x20400, 0x20408,
    0x20410, 0x20418, 0x20420, 0x20440, 0x20448, 0x20458, 0x20460, 0x60808, 0x60810, 0x70000, 0x70008] → s.readReg o = 0) ∧
  s.readReg 0x50030 = 0x13880 ∧ s.readReg 0x50038 = 0x4C4B4000 ∧
  (∀ z < 36, s.readReg (0x60000 + 0x20 * z) = 0xFF ∧ s.readReg (0x60008 + 0x20 * z) = 0 ∧
    s.readReg (0x60010 + 0x20 * z) = 0x14 ∧ s.readReg (0x60018 + 0x20 * z) = 0) ∧
  s.readReg 0x60800 = 0x690_05F0_0960 ∧ s.readReg 0x71080 = 0x40

/-! ## Statements of several parts -/

/-- Sums, products, bit functions, quotients and remainders drop the values of Table 50 (04 (R114, R115)). -/
def Obligations.ScalarSumsProductsAndQuotients : Prop :=
  ArithmeticWordsDropTableFifty ∧ DivisionWordsDropTableFifty

/-- Shifts, rotations, bit counts, reversals and extensions drop their values (04 (R114, R115, R117, R120)). -/
def Obligations.ShiftAndBitWordsDropTheirValue : Prop :=
  ShiftWordsDropTableFifty ∧ BitWordsCountAndReverse

/-- Immediate words, NOP, STAMP and LHASH drop their values (02 (R60); 04 (R109, R119, R121); 14 (R414)). -/
def Obligations.ImmediateWordsAndPlainReads : Prop :=
  ImmediateWordsDropTheirResult ∧ PlainReadsOfTheMachine

/-- Results land at their beat; a word that names an unwritten item raises OPERAND and does nothing (02 (R31, R58); 04 (R94, R95, R98, R99)). -/
def Obligations.ResultsLandAndUnwrittenItemsTrap : Prop :=
  ResultsLandAtTheirBeat ∧ UnwrittenItemRaisesOperand

/-- PBR, BR, JTB and CLASP: targets, conditions, table jumps and landings (02 (R34); 04 (R127-R129, R133, R134); 10 (R317, R318)). -/
def Obligations.TransfersGoToTheirTargets : Prop :=
  PbrSetsItsTargetRegister ∧ BranchGoesWhereItsConditionSays ∧ TableJumpGoesWhereItsEntrySays ∧ LandingAcceptsOnlyClasp

/-- CALL pushes the next address and transfers; RETS pops the newest; a full or empty stack traps (R131; R132). -/
def Obligations.CallsPushAndReturnsPop : Prop :=
  CallPushesTheNextAddress ∧ RetsPopsTheNewestAddress

/-- GETK drops every register of Table 46, SETK writes those that can be written (04 (R103-R105, R108); 06 (R186)). -/
def Obligations.KRegistersReadAndWrite : Prop :=
  GetkDropsTheNamedRegister ∧ SetkWritesItsRegister

/-- Loads issue at their address, land four beats later, and fill the line they miss (04 (R97, R111, R123, R124, R126); 07 (R208); 09 (R273); 14 (R418)). -/
def Obligations.LoadsIssueLandAndFillLines : Prop :=
  LoadsIssueAtTheirAddress ∧ LoadedDataLandsFourBeatsLater ∧ LoadMissReadsMemoryAndFillsTheLine

/-- Stores retire into the request path and perform exactly their bytes (04 (R111, R125); 09 (R273, R278, R279); 10 (R318); 14 (R410, R413, R417, R432)). -/
def Obligations.StoresRetireAndPerform : Prop :=
  StoreRetiresIntoTheRequestPath ∧ HeldStorePerformsItsBytes

/-- Atomics read and write as one step; in a convoy window each waits for its turn (04 (R111, R112); 08 (R257); 09 (R285-R287, R289, R290); 14 (R413)). -/
def Obligations.AtomicsActInOneStep : Prop :=
  AtomicsReadAndWriteAsOneStep ∧ ConvoyAtomicsWaitForTheirTurn

/-- Fences stand while stores wait and empty the ordinary lines; RINV removes the lines of its range (04 (R112, R113); 09 (R282, R283)). -/
def Obligations.FencesAndCacheRemovals : Prop :=
  FencesStandWhileStoresWait ∧ RinvRemovesTheLinesOfItsRange

/-- TLOOK, TSETK and TDROP on the crew's tag table (04 (R97); 07 (R213-R216)). -/
def Obligations.TagTableWordsFindClaimAndFree : Prop :=
  TagLookupsDropTheirSlot ∧ TagWritesSetAndFreeTheirSlot

/-- GIVE and TAKE move seals of every engine; PRMW, FMTQ and STMPQ join their queues (02 (R37, R49); 06 (R185); 07 (R225-R228)). -/
def Obligations.SealsAndHandOffsAreQueued : Prop :=
  SealsArePushedAndPopped ∧ HandOffsJoinTheirQueue

/-- QSET, QADV, X.QADV, QWAIT and QINFO: handles and counts of queues (07 (R217-R224, R245)). -/
def Obligations.QueuesAreSetAdvancedAndRead : Prop :=
  QsetSetsItsHandle ∧ QueueAdvancesMoveOneCount ∧ QueueReadsSeeTheCounts

/-- WAIT ends at its tick or message, BAR when every participant has arrived (09 (R288); 12 (R368, R378)). -/
def Obligations.WaitsAndBarriersEnd : Prop :=
  WaitsEndAtTheirTickOrMessage ∧ BarriersPassWhenAllHaveArrived

/-- TLAUNCH enters a waybill; SREG, SBIND and SPOST register, bind and post (12 (R361, R363-R366, R369)). -/
def Obligations.LaunchesAndSeraiWordsAct : Prop :=
  LaunchEntersTheWaybill ∧ SeraiWordsRegisterBindAndPost

/-- TRIG, TEXIT, TYIELD and LMARK (12 (R374-R376, R386); 14 (R408, R409, R415)). -/
def Obligations.TaskWordsAndMarksAct : Prop :=
  TaskWordsReleaseEndAndYield ∧ LmarkWritesOrMatchesItsRecord

/-- Taking an exception by the action table, and returning from it with TRET (02 (R58); 12 (R379-R384)). -/
def Obligations.TrapsStopAndResumeTasks : Prop :=
  TrapStopsTheTaskAndTheTableDecides ∧ TretResumesOrEndsTheParkedTask

/-- RCALL sends its call, RPOLL drops the outcome and frees the slot (10 (R312, R314-R316, R320, R322-R325); 14 (R409, R411)). -/
def Obligations.CallsAreSentAndPolled : Prop :=
  RcallSendsItsCall ∧ RpollDropsAndFreesItsSlot

/-- Calls start at their target, end with RRET, and meet their time limits (10 (R316-R321, R325, R326); 11 (R348)). -/
def Obligations.FunctionsStartEndAndExpire : Prop :=
  CallsStartAtTheirTarget ∧ RretEndsTheFunctionWithItsItems ∧ CallsAndRepliesMeetTheirLimits

/-- SEARCH claims a slot, hops through its index and writes its best entries (11 (R330, R338, R339, R342-R347); 12 (R361)). -/
def Obligations.SearchesClaimHopAndEnd : Prop :=
  SearchClaimsASlotAndStarts ∧ SearchHopsAndEnds

/-- A merge makes the next version; a stream pins, copies and ends (11 (R340, R351-R354)). -/
def Obligations.MergesAndStreamsComplete : Prop :=
  MergesMakeTheNextVersion ∧ StreamsStartOnD2 ∧ StreamsPinTheirEntries ∧ StreamsCopyTheirBlocks

/-- A walk follows the page tables; invalidations complete in order (08 (R252, R253, R261)). -/
def Obligations.PagesAreWalkedAndInvalidated : Prop :=
  WalksFollowTheTables ∧ InvalidationsCompleteInOrder

/-- PGSHARE maps and counts a frame, PGDROP unmaps and frees it (08 (R261, R264-R267)). -/
def Obligations.PagesAreSharedAndDropped : Prop :=
  PgshareMapsAndCountsTheFrame ∧ PgdropUnmapsCountsAndFrees

/-- Coolant words, held waybills, measurements and valves (12 (R369); 13 (R393, R395, R397-R401, R403)). -/
def Obligations.CoolantIsReservedMeasuredAndValved : Prop :=
  CoolantWordsReserveFreeAndShow ∧ HeldWaybillsWaitForTheirCoolant ∧ MeasurementsMoveTheZones ∧ ValvesFollowTheTargets

/-- Device registers take legal values, read them back, and ignore others; a lock refuses (00 (R6); 01 (R18); 08; 10 (R316); 12; 14 (R422, R428)). -/
def Obligations.RegistersReadBackWhatTheyTake : Prop :=
  RegisterWritesReachTheirOffset ∧ PlainRegistersReadBackWhatTheyTake

/-- Host and peers read and write what is open to them and nothing else (09 (R286); 14 (R416-R418, R426, R431, R432)). -/
def Obligations.HostAndPeersReachOpenMemory : Prop :=
  HostReadsAndWritesOpenMemory ∧ PeersReachExportedMemory

/-- Boot, attestation, power loss and power-on; ECC errors and throttling (01 (R28); 06 (R186, R204); 11 (R330); 14 (R417-R419, R422, R428-R430)). -/
def Obligations.BootPowerErrorsAndThrottling : Prop :=
  TrustBootAndPower ∧ ErrorsAndThrottlingStrike

/-- Instances issue in selection order, end, and give way by Table 140 (01 (R22); 02 (R42); 07 (R209); 12 (R359, R370-R372, R374, R376, R385, R386)). -/
def Obligations.InstancesIssueEndAndGiveWay : Prop :=
  TasksEndWhenEveryEngineStops ∧ InstancesIssueInSelectionOrder ∧ PreemptionFollowsTheTable

/-- A bound serai launches its handler; posts arrive in order (12 (R366, R367)). -/
def Obligations.HandlersLaunchAndPostsArrive : Prop :=
  HandlersLaunchForMessages ∧ PostsArriveInOrder

/-- Bank-unit words act on their ports, jump, repeat and end the command (10 (R294-R297, R307, R321)). -/
def Obligations.UnitWordsActAndSteer : Prop :=
  UnitWordsActOnTheirPorts ∧ SteeringWordsJumpRepeatAndEnd

/-- Bank commands issue, timetables run their entries, X.BANKGO completes (07 (R235); 10 (R296, R299-R307, R309, R312)). -/
def Obligations.CommandsAndTimetablesRun : Prop :=
  CommandsAndImagesReachTheirUnit ∧ TimetablesRunTheirEntries ∧ BankgoCompletesWhenItsChannelsStop

/-- Vector arithmetic acts on every element of every active lane; operand rules trap (03 (R87); 05 (R141, R142, R144, R156-R160)). -/
def Obligations.VectorArithmeticActsOnActiveElements : Prop :=
  VectorArithmeticActsOnActiveElementsPart ∧ VectorOperandRulesRaiseOperand

/-- Vector lanes are compared, chosen, moved, converted, packed and reduced (03 (R81, R82, R88, R91, R92); 05 (R161-R172)). -/
def Obligations.VectorLanesMoveConvertAndReduce : Prop :=
  VectorLanesAreComparedChosenAndMoved ∧ VectorRowsConvertPackAndReduce

/-- Vector windows, predicates, returns and ports (02 (R40); 05 (R140, R147-R153, R173, R174); 07 (R217, R220, R221)). -/
def Obligations.VectorStateAndPortsAct : Prop :=
  VectorStateWordsAndReturns ∧ PortsBindPopAndPush

/-- Matrix operands and formats are popped, tolls asked, granted and refilled (02 (R38, R39, R53); 06 (R181, R183, R187-R191, R201, R203)). -/
def Obligations.MatrixOperandsAndTolls : Prop :=
  OperandsAndFormatsArePopped ∧ TollsAreAskedGrantedAndRefilled

/-- Every copy word over descriptors that obey its limits starts its units; others raise OPERAND (07 (R230-R243); 10 (R299, R302, R303, R313); 11 (R332, R350); 14 (R424, R425)). -/
def Obligations.CopyWordsCheckAndStart : Prop :=
  CopyWordsCheckAndStartPart ∧ BankgoChecksItsChannels

/-- Copy units move, gather, scatter, transpose, pad, check and add rows (07 (R233, R235-R243); 10 (R311, R313)). -/
def Obligations.CopyUnitsMoveAndAddRows : Prop :=
  CopyUnitsMoveTheirRows ∧ CopyUnitsAddRows

/-- Copy units reach the host, flash and bank units (10 (R299, R302, R303); 11 (R329-R334, R350); 14 (R422-R426)). -/
def Obligations.CopyUnitsReachHostFlashAndBanks : Prop :=
  CopyUnitsReachHostAndFlash ∧ CopyUnitsLoadBanks
end

