-- ==== Sys2Proof/Laws/Sparse.lean ====
section
/-! SUPPORT. Laws of sparse maps and of the byte map: read after write, and that every operation keeps the canonical
form. -/

namespace Sys2Proof.Machine

variable {α : Type}

/-! ## Read after write -/

@[simp] theorem Sparse.get_drop_same (d : α) (m : Sparse α) (k : Nat) : Sparse.get d (m.drop k) k = d := by
  induction m with
  | nil => rfl
  | cons p m ih =>
    obtain ⟨j, v⟩ := p
    by_cases h : j = k <;> simp [Sparse.drop, Sparse.get, h, ih]

theorem Sparse.get_drop_other (d : α) (m : Sparse α) {j k : Nat} (h : j ≠ k) :
    Sparse.get d (m.drop k) j = Sparse.get d m j := by
  induction m with
  | nil => rfl
  | cons p m ih =>
    obtain ⟨i, v⟩ := p
    by_cases hi : i = k
    · have : i ≠ j := fun e => h (e ▸ hi)
      simp [Sparse.drop, Sparse.get, hi, ih]
      intro e
      exact absurd e.symm h
    · simp [Sparse.drop, Sparse.get, hi, ih]

@[simp] theorem Sparse.get_insert_same (d : α) (m : Sparse α) (k : Nat) (v : α) :
    Sparse.get d (Sparse.insert m k v) k = v := by
  induction m with
  | nil => simp [Sparse.insert, Sparse.get]
  | cons p m ih =>
    obtain ⟨j, u⟩ := p
    by_cases h : j < k
    · have : j ≠ k := by omega
      simp [Sparse.insert, Sparse.get, h, this, ih]
    · simp [Sparse.insert, Sparse.get, h]

theorem Sparse.get_insert_other (d : α) (m : Sparse α) {j k : Nat} (v : α) (h : j ≠ k) :
    Sparse.get d (Sparse.insert m k v) j = Sparse.get d m j := by
  induction m with
  | nil => simp [Sparse.insert, Sparse.get]; intro e; exact absurd e.symm h
  | cons p m ih =>
    obtain ⟨i, u⟩ := p
    by_cases hi : i < k
    · simp [Sparse.insert, Sparse.get, hi, ih]
    · simp [Sparse.insert, Sparse.get, hi]
      intro e
      exact absurd e.symm h

/-- A key that is put reads as its value. -/
@[simp] theorem Sparse.get_put_same (d : α) (m : Sparse α) (k : Nat) (v : α) : Sparse.get d (m.put k v) k = v := by
  simp [Sparse.put]

/-- Putting a key leaves every other key alone. -/
theorem Sparse.get_put_other (d : α) (m : Sparse α) {j k : Nat} (v : α) (h : j ≠ k) :
    Sparse.get d (m.put k v) j = Sparse.get d m j := by
  simp [Sparse.put, Sparse.get_insert_other d _ v h, Sparse.get_drop_other d m h]

@[simp] theorem Sparse.get_putD_same [DecidableEq α] (d : α) (m : Sparse α) (k : Nat) (v : α) :
    Sparse.get d (Sparse.putD d m k v) k = v := by
  by_cases h : v = d <;> simp [Sparse.putD, h]

theorem Sparse.get_putD_other [DecidableEq α] (d : α) (m : Sparse α) {j k : Nat} (v : α) (h : j ≠ k) :
    Sparse.get d (Sparse.putD d m k v) j = Sparse.get d m j := by
  by_cases e : v = d <;> simp [Sparse.putD, e, Sparse.get_drop_other d m h, Sparse.get_put_other d m v h]

theorem Sparse.drop_drop (m : Sparse α) (k : Nat) : (m.drop k).drop k = m.drop k := by
  induction m with
  | nil => rfl
  | cons p m ih =>
    obtain ⟨j, v⟩ := p
    by_cases h : j = k <;> simp [Sparse.drop, h, ih]

theorem Sparse.drop_insert (m : Sparse α) (k : Nat) (v : α) : (Sparse.insert m k v).drop k = m.drop k := by
  induction m with
  | nil => simp [Sparse.insert, Sparse.drop]
  | cons p m ih =>
    obtain ⟨j, u⟩ := p
    by_cases h : j < k
    · have : j ≠ k := by omega
      simp [Sparse.insert, Sparse.drop, h, this, ih]
    · simp [Sparse.insert, Sparse.drop, h]

/-- The last value put at a key is the one that stays. -/
@[simp] theorem Sparse.put_put (m : Sparse α) (k : Nat) (u v : α) : (m.put k u).put k v = m.put k v := by
  simp [Sparse.put, Sparse.drop_insert, Sparse.drop_drop]

/-! ## The canonical form -/

/-- A rising map rises from every lower bound. -/
theorem Sparse.rising_weaken {m : Sparse α} {b c : Nat} (h : b ≤ c) (hm : Sparse.risingFrom (some c) m = true) :
    Sparse.risingFrom (some b) m = true := by
  cases m with
  | nil => rfl
  | cons p m =>
    obtain ⟨j, v⟩ := p
    simp [Sparse.risingFrom] at hm ⊢
    exact ⟨by omega, hm.2⟩

/-- A map that rises from a bound rises. -/
theorem Sparse.rising_none {m : Sparse α} {b : Option Nat} (hm : Sparse.risingFrom b m = true) :
    Sparse.risingFrom none m = true := by
  cases m with
  | nil => rfl
  | cons p m => cases b <;> simp_all [Sparse.risingFrom]

theorem Sparse.rising_drop (m : Sparse α) (b : Option Nat) (k : Nat) (hm : Sparse.risingFrom b m = true) :
    Sparse.risingFrom b (m.drop k) = true := by
  induction m generalizing b with
  | nil => rfl
  | cons p m ih =>
    obtain ⟨j, v⟩ := p
    by_cases h : j = k
    · cases b with
      | none =>
        simp [Sparse.risingFrom] at hm
        simpa [Sparse.drop, h] using ih none (Sparse.rising_none hm)
      | some c =>
        simp [Sparse.risingFrom] at hm
        simpa [Sparse.drop, h] using ih (some c) (Sparse.rising_weaken (by omega) hm.2)
    · cases b <;> simp_all [Sparse.drop, Sparse.risingFrom]

/-- A key of a map that rises from a bound lies above it, so it is not listed below. -/
theorem Sparse.rising_insert (m : Sparse α) (b : Option Nat) (k : Nat) (v : α) (hb : ∀ c, b = some c → c < k)
    (hk : ∀ p ∈ m, p.1 ≠ k) (hm : Sparse.risingFrom b m = true) : Sparse.risingFrom b (Sparse.insert m k v) = true := by
  induction m generalizing b with
  | nil => cases b <;> simp_all [Sparse.insert, Sparse.risingFrom]
  | cons p m ih =>
    obtain ⟨j, u⟩ := p
    have hj : j ≠ k := hk (j, u) (by simp)
    have hm' : Sparse.risingFrom (some j) m = true := by cases b <;> simp_all [Sparse.risingFrom]
    by_cases h : j < k
    · have := ih (some j) (by simpa using h) (fun p hp => hk p (by simp [hp])) hm'
      cases b <;> simp_all [Sparse.insert, Sparse.risingFrom]
    · have : k < j := by omega
      rw [Sparse.insert, if_neg h]
      cases b <;> simp_all [Sparse.risingFrom]

theorem Sparse.drop_ne (m : Sparse α) (k : Nat) : ∀ p ∈ m.drop k, p.1 ≠ k := by
  induction m with
  | nil => simp [Sparse.drop]
  | cons p m ih =>
    obtain ⟨j, v⟩ := p
    by_cases h : j = k
    · simpa [Sparse.drop, h] using ih
    · simpa [Sparse.drop, h] using ih

theorem Sparse.drop_sub (m : Sparse α) (k : Nat) : ∀ p ∈ m.drop k, p ∈ m := by
  induction m with
  | nil => simp [Sparse.drop]
  | cons p m ih =>
    obtain ⟨j, v⟩ := p
    by_cases h : j = k
    · simp only [Sparse.drop, h, if_true]
      intro p hp
      exact List.mem_cons_of_mem _ (ih p hp)
    · simp only [Sparse.drop, h, if_false]
      intro p hp
      rcases List.mem_cons.mp hp with e | e
      · simp [e]
      · exact List.mem_cons_of_mem _ (ih p e)

theorem Sparse.mem_insert (m : Sparse α) (k : Nat) (v : α) : ∀ p ∈ Sparse.insert m k v, p = (k, v) ∨ p ∈ m := by
  induction m with
  | nil => simp [Sparse.insert]
  | cons q m ih =>
    obtain ⟨j, u⟩ := q
    by_cases h : j < k
    · simp only [Sparse.insert, h, if_true]
      intro p hp
      rcases List.mem_cons.mp hp with e | e
      · simp [e]
      · rcases ih p e with e | e
        · simp [e]
        · simp [e]
    · simp only [Sparse.insert, h, if_false]
      intro p hp
      simpa using hp

/-- Dropping a key keeps the canonical form. -/
theorem Sparse.wf_drop [DecidableEq α] (d : α) (m : Sparse α) (k : Nat) (hm : Sparse.wf d m = true) :
    Sparse.wf d (m.drop k) = true := by
  simp only [Sparse.wf, Bool.and_eq_true, List.all_eq_true] at hm ⊢
  exact ⟨Sparse.rising_drop m none k hm.1, fun p hp => hm.2 p (Sparse.drop_sub m k p hp)⟩

/-- Putting a value keeps the canonical form. -/
theorem Sparse.wf_putD [DecidableEq α] (d : α) (m : Sparse α) (k : Nat) (v : α) (hm : Sparse.wf d m = true) :
    Sparse.wf d (Sparse.putD d m k v) = true := by
  by_cases h : v = d
  · simpa [Sparse.putD, h] using Sparse.wf_drop d m k hm
  · simp only [Sparse.putD, if_neg h, Sparse.put]
    have hd := Sparse.wf_drop d m k hm
    simp only [Sparse.wf, Bool.and_eq_true, List.all_eq_true] at hd ⊢
    refine ⟨Sparse.rising_insert _ none k v (by simp) (Sparse.drop_ne m k) hd.1, fun p hp => ?_⟩
    rcases Sparse.mem_insert _ k v p hp with e | e
    · simpa [e] using h
    · exact hd.2 p e

/-! ## Bytes -/

/-- Writing bytes keeps the memory form. -/
theorem Memory.wf_putBytes (bs : List Byte) (m : List Host.Cell) (a : Nat) (hm : Memory.wf m = true) :
    Memory.wf (putBytes m a bs) = true := by
  induction bs generalizing m a with
  | nil => exact hm
  | cons b bs ih => exact ih _ _ (Sparse.wf_putD _ _ _ _ hm)

/-- A byte outside the written range is left alone. -/
theorem get_putBytes_other (bs : List Byte) (m : List Host.Cell) (a x : Nat) (h : x < a ∨ a + bs.length ≤ x) :
    Sparse.get (0 : Byte) (putBytes m a bs) x = Sparse.get (0 : Byte) m x := by
  induction bs generalizing m a with
  | nil => rfl
  | cons b bs ih =>
    have hx : x ≠ a := by
      simp only [List.length_cons] at h
      omega
    rw [putBytes, ih _ _ (by simp only [List.length_cons] at h; omega), Sparse.get_putD_other _ _ _ hx]

/-- The written bytes read back. -/
theorem get_putBytes_same (bs : List Byte) (m : List Host.Cell) (a i : Nat) (h : i < bs.length) :
    Sparse.get (0 : Byte) (putBytes m a bs) (a + i) = bs[i] := by
  induction bs generalizing m a i with
  | nil => simp at h
  | cons b bs ih =>
    cases i with
    | zero =>
      rw [putBytes, get_putBytes_other bs _ (a + 1) (a + 0) (by omega)]
      simp
    | succ i =>
      have := ih (Sparse.putD (0 : Byte) m a b) (a + 1) i (by simpa using h)
      simpa [putBytes, Nat.add_assoc, Nat.add_comm 1] using this

@[simp] theorem State.write_mem (s : State) (loc : Nat) (bs : List Byte) : (s.write loc bs).mem = putBytes s.mem loc bs := rfl

/-- A write of memory keeps the memory form. -/
theorem State.wf_write (s : State) (loc : Nat) (bs : List Byte) (h : Memory.wf s.mem = true) :
    Memory.wf (s.write loc bs).mem = true := Memory.wf_putBytes bs s.mem loc h

/-- The bytes a write stores read back. -/
theorem State.byte_write_same (s : State) (loc i : Nat) (bs : List Byte) (h : i < bs.length) :
    (s.write loc bs).byte (loc + i) = bs[i] := get_putBytes_same bs s.mem loc i h

/-- A write leaves every byte outside its range alone. -/
theorem State.byte_write_other (s : State) (loc a : Nat) (bs : List Byte) (h : a < loc ∨ loc + bs.length ≤ a) :
    (s.write loc bs).byte a = s.byte a := get_putBytes_other bs s.mem loc a h

theorem State.byte_eq_of_mem {s t : State} (h : t.mem = s.mem) (a : Nat) : t.byte a = s.byte a := by simp [State.byte, h]

/-- Little-endian bytes of a number have their count. -/
@[simp] theorem leBytes_length (n x : Nat) : (leBytes n x).length = n := by
  induction n generalizing x with
  | zero => rfl
  | succ n ih => simp [leBytes, ih]

@[simp] theorem getBytes_length (m : List Host.Cell) (a n : Nat) : (getBytes m a n).length = n := by
  induction n generalizing a with
  | zero => rfl
  | succ n ih => simp [getBytes, ih]

/-- The number that little-endian bytes of x spell is x modulo 2^(8n). -/
theorem leNat_leBytes (n x : Nat) : leNat (leBytes n x) = x % 256 ^ n := by
  induction n generalizing x with
  | zero => simp [leBytes, leNat, Nat.mod_one]
  | succ n ih =>
    have e : 256 ^ (n + 1) = 256 * 256 ^ n := by rw [Nat.pow_succ, Nat.mul_comm]
    rw [leBytes, leNat, ih, BitVec.toNat_ofNat, e, Nat.mod_mul]

end Sys2Proof.Machine
end

