-- ==== Sys2Proof/Laws/State.lean ====
section
/-! SUPPORT. What each update of the state leaves alone, field by field, and reading back what was set. -/

namespace Sys2Proof.Machine

@[simp] theorem State.setCore_frame (s : State) (k : Nat) (v : Core) :
    (s.setCore k v).stamp = s.stamp ∧ (s.setCore k v).mem = s.mem ∧ (s.setCore k v).grains = s.grains ∧
    (s.setCore k v).host = s.host ∧ (s.setCore k v).crews = s.crews ∧ (s.setCore k v).buckets = s.buckets ∧
    (s.setCore k v).sched = s.sched ∧ (s.setCore k v).pages = s.pages ∧ (s.setCore k v).records = s.records ∧
    (s.setCore k v).trust = s.trust ∧ (s.setCore k v).banks = s.banks ∧ (s.setCore k v).remote = s.remote ∧
    (s.setCore k v).flash = s.flash ∧ (s.setCore k v).cool = s.cool ∧ (s.setCore k v).sent = s.sent ∧
    (s.setCore k v).agenda = s.agenda ∧ (s.setCore k v).cur = s.cur ∧ (s.setCore k v).curUnit = s.curUnit ∧
    (s.setCore k v).pick = s.pick ∧
    (s.setCore k v).stalled = s.stalled ∧ (s.setCore k v).fresh = s.fresh :=
  ⟨rfl, rfl, rfl, rfl, rfl, rfl, rfl, rfl, rfl, rfl, rfl, rfl, rfl, rfl, rfl, rfl, rfl, rfl, rfl, rfl, rfl⟩

@[simp] theorem State.setHere_frame (s : State) (v : Core) :
    (s.setHere v).stamp = s.stamp ∧ (s.setHere v).mem = s.mem ∧ (s.setHere v).grains = s.grains ∧
    (s.setHere v).host = s.host ∧ (s.setHere v).crews = s.crews ∧ (s.setHere v).buckets = s.buckets ∧
    (s.setHere v).sched = s.sched ∧ (s.setHere v).pages = s.pages ∧ (s.setHere v).records = s.records ∧
    (s.setHere v).trust = s.trust ∧ (s.setHere v).banks = s.banks ∧ (s.setHere v).remote = s.remote ∧
    (s.setHere v).flash = s.flash ∧ (s.setHere v).cool = s.cool ∧ (s.setHere v).sent = s.sent ∧
    (s.setHere v).agenda = s.agenda ∧ (s.setHere v).cur = s.cur ∧ (s.setHere v).curUnit = s.curUnit ∧
    (s.setHere v).pick = s.pick ∧
    (s.setHere v).stalled = s.stalled ∧ (s.setHere v).fresh = s.fresh :=
  ⟨rfl, rfl, rfl, rfl, rfl, rfl, rfl, rfl, rfl, rfl, rfl, rfl, rfl, rfl, rfl, rfl, rfl, rfl, rfl, rfl, rfl⟩

@[simp] theorem State.setCrew_frame (s : State) (k : Nat) (v : Crew) :
    (s.setCrew k v).stamp = s.stamp ∧ (s.setCrew k v).mem = s.mem ∧ (s.setCrew k v).grains = s.grains ∧
    (s.setCrew k v).host = s.host ∧ (s.setCrew k v).cores = s.cores ∧ (s.setCrew k v).buckets = s.buckets ∧
    (s.setCrew k v).sched = s.sched ∧ (s.setCrew k v).pages = s.pages ∧ (s.setCrew k v).records = s.records ∧
    (s.setCrew k v).trust = s.trust ∧ (s.setCrew k v).banks = s.banks ∧ (s.setCrew k v).remote = s.remote ∧
    (s.setCrew k v).flash = s.flash ∧ (s.setCrew k v).cool = s.cool ∧ (s.setCrew k v).sent = s.sent ∧
    (s.setCrew k v).agenda = s.agenda ∧ (s.setCrew k v).cur = s.cur ∧ (s.setCrew k v).curUnit = s.curUnit ∧
    (s.setCrew k v).pick = s.pick ∧
    (s.setCrew k v).stalled = s.stalled ∧ (s.setCrew k v).fresh = s.fresh :=
  ⟨rfl, rfl, rfl, rfl, rfl, rfl, rfl, rfl, rfl, rfl, rfl, rfl, rfl, rfl, rfl, rfl, rfl, rfl, rfl, rfl, rfl⟩

@[simp] theorem State.setBucket_frame (s : State) (k : Nat) (v : Bucket) :
    (s.setBucket k v).stamp = s.stamp ∧ (s.setBucket k v).mem = s.mem ∧ (s.setBucket k v).grains = s.grains ∧
    (s.setBucket k v).host = s.host ∧ (s.setBucket k v).cores = s.cores ∧ (s.setBucket k v).crews = s.crews ∧
    (s.setBucket k v).sched = s.sched ∧ (s.setBucket k v).pages = s.pages ∧
    (s.setBucket k v).records = s.records ∧ (s.setBucket k v).trust = s.trust ∧
    (s.setBucket k v).banks = s.banks ∧ (s.setBucket k v).remote = s.remote ∧
    (s.setBucket k v).flash = s.flash ∧ (s.setBucket k v).cool = s.cool ∧ (s.setBucket k v).sent = s.sent ∧
    (s.setBucket k v).agenda = s.agenda ∧ (s.setBucket k v).cur = s.cur ∧
    (s.setBucket k v).curUnit = s.curUnit ∧
    (s.setBucket k v).pick = s.pick ∧ (s.setBucket k v).stalled = s.stalled ∧
    (s.setBucket k v).fresh = s.fresh :=
  ⟨rfl, rfl, rfl, rfl, rfl, rfl, rfl, rfl, rfl, rfl, rfl, rfl, rfl, rfl, rfl, rfl, rfl, rfl, rfl, rfl, rfl⟩

@[simp] theorem State.setStack_frame (s : State) (k : Nat) (v : Stack) :
    (s.setStack k v).stamp = s.stamp ∧ (s.setStack k v).mem = s.mem ∧ (s.setStack k v).grains = s.grains ∧
    (s.setStack k v).host = s.host ∧ (s.setStack k v).cores = s.cores ∧ (s.setStack k v).crews = s.crews ∧
    (s.setStack k v).buckets = s.buckets ∧ (s.setStack k v).sched = s.sched ∧
    (s.setStack k v).pages = s.pages ∧ (s.setStack k v).records = s.records ∧
    (s.setStack k v).trust = s.trust ∧ (s.setStack k v).remote = s.remote ∧ (s.setStack k v).flash = s.flash ∧
    (s.setStack k v).cool = s.cool ∧ (s.setStack k v).sent = s.sent ∧ (s.setStack k v).agenda = s.agenda ∧
    (s.setStack k v).cur = s.cur ∧ (s.setStack k v).curUnit = s.curUnit ∧
    (s.setStack k v).pick = s.pick ∧
    (s.setStack k v).stalled = s.stalled ∧ (s.setStack k v).fresh = s.fresh :=
  ⟨rfl, rfl, rfl, rfl, rfl, rfl, rfl, rfl, rfl, rfl, rfl, rfl, rfl, rfl, rfl, rfl, rfl, rfl, rfl, rfl, rfl⟩

@[simp] theorem State.setUnit_frame (s : State) (k : Nat) (v : BankUnit) :
    (s.setUnit k v).stamp = s.stamp ∧ (s.setUnit k v).mem = s.mem ∧ (s.setUnit k v).grains = s.grains ∧
    (s.setUnit k v).host = s.host ∧ (s.setUnit k v).cores = s.cores ∧ (s.setUnit k v).crews = s.crews ∧
    (s.setUnit k v).buckets = s.buckets ∧ (s.setUnit k v).sched = s.sched ∧ (s.setUnit k v).pages = s.pages ∧
    (s.setUnit k v).records = s.records ∧ (s.setUnit k v).trust = s.trust ∧ (s.setUnit k v).remote = s.remote ∧
    (s.setUnit k v).flash = s.flash ∧ (s.setUnit k v).cool = s.cool ∧ (s.setUnit k v).sent = s.sent ∧
    (s.setUnit k v).agenda = s.agenda ∧ (s.setUnit k v).cur = s.cur ∧ (s.setUnit k v).curUnit = s.curUnit ∧
    (s.setUnit k v).pick = s.pick ∧
    (s.setUnit k v).stalled = s.stalled ∧ (s.setUnit k v).fresh = s.fresh :=
  ⟨rfl, rfl, rfl, rfl, rfl, rfl, rfl, rfl, rfl, rfl, rfl, rfl, rfl, rfl, rfl, rfl, rfl, rfl, rfl, rfl, rfl⟩

@[simp] theorem State.setChan_frame (s : State) (k : Nat) (v : Chan) :
    (s.setChan k v).stamp = s.stamp ∧ (s.setChan k v).mem = s.mem ∧ (s.setChan k v).grains = s.grains ∧
    (s.setChan k v).host = s.host ∧ (s.setChan k v).cores = s.cores ∧ (s.setChan k v).crews = s.crews ∧
    (s.setChan k v).buckets = s.buckets ∧ (s.setChan k v).sched = s.sched ∧ (s.setChan k v).pages = s.pages ∧
    (s.setChan k v).records = s.records ∧ (s.setChan k v).trust = s.trust ∧ (s.setChan k v).remote = s.remote ∧
    (s.setChan k v).flash = s.flash ∧ (s.setChan k v).cool = s.cool ∧ (s.setChan k v).sent = s.sent ∧
    (s.setChan k v).agenda = s.agenda ∧ (s.setChan k v).cur = s.cur ∧ (s.setChan k v).curUnit = s.curUnit ∧
    (s.setChan k v).pick = s.pick ∧
    (s.setChan k v).stalled = s.stalled ∧ (s.setChan k v).fresh = s.fresh :=
  ⟨rfl, rfl, rfl, rfl, rfl, rfl, rfl, rfl, rfl, rfl, rfl, rfl, rfl, rfl, rfl, rfl, rfl, rfl, rfl, rfl, rfl⟩

@[simp] theorem State.setCtx_frame (s : State) (k : Nat) (v : Ctx) :
    (s.setCtx k v).stamp = s.stamp ∧ (s.setCtx k v).mem = s.mem ∧ (s.setCtx k v).grains = s.grains ∧
    (s.setCtx k v).host = s.host ∧ (s.setCtx k v).cores = s.cores ∧ (s.setCtx k v).crews = s.crews ∧
    (s.setCtx k v).buckets = s.buckets ∧ (s.setCtx k v).sched = s.sched ∧ (s.setCtx k v).records = s.records ∧
    (s.setCtx k v).trust = s.trust ∧ (s.setCtx k v).banks = s.banks ∧ (s.setCtx k v).remote = s.remote ∧
    (s.setCtx k v).flash = s.flash ∧ (s.setCtx k v).cool = s.cool ∧ (s.setCtx k v).sent = s.sent ∧
    (s.setCtx k v).agenda = s.agenda ∧ (s.setCtx k v).cur = s.cur ∧ (s.setCtx k v).curUnit = s.curUnit ∧
    (s.setCtx k v).pick = s.pick ∧
    (s.setCtx k v).stalled = s.stalled ∧ (s.setCtx k v).fresh = s.fresh :=
  ⟨rfl, rfl, rfl, rfl, rfl, rfl, rfl, rfl, rfl, rfl, rfl, rfl, rfl, rfl, rfl, rfl, rfl, rfl, rfl, rfl, rfl⟩

@[simp] theorem State.setZone_frame (s : State) (k : Nat) (v : Zone) :
    (s.setZone k v).stamp = s.stamp ∧ (s.setZone k v).mem = s.mem ∧ (s.setZone k v).grains = s.grains ∧
    (s.setZone k v).host = s.host ∧ (s.setZone k v).cores = s.cores ∧ (s.setZone k v).crews = s.crews ∧
    (s.setZone k v).buckets = s.buckets ∧ (s.setZone k v).sched = s.sched ∧ (s.setZone k v).pages = s.pages ∧
    (s.setZone k v).records = s.records ∧ (s.setZone k v).trust = s.trust ∧ (s.setZone k v).banks = s.banks ∧
    (s.setZone k v).remote = s.remote ∧ (s.setZone k v).flash = s.flash ∧ (s.setZone k v).sent = s.sent ∧
    (s.setZone k v).agenda = s.agenda ∧ (s.setZone k v).cur = s.cur ∧ (s.setZone k v).curUnit = s.curUnit ∧
    (s.setZone k v).pick = s.pick ∧
    (s.setZone k v).stalled = s.stalled ∧ (s.setZone k v).fresh = s.fresh :=
  ⟨rfl, rfl, rfl, rfl, rfl, rfl, rfl, rfl, rfl, rfl, rfl, rfl, rfl, rfl, rfl, rfl, rfl, rfl, rfl, rfl, rfl⟩

@[simp] theorem State.setScore_frame (s : State) (k : Nat) (v : Score) :
    (s.setScore k v).stamp = s.stamp ∧ (s.setScore k v).mem = s.mem ∧ (s.setScore k v).grains = s.grains ∧
    (s.setScore k v).host = s.host ∧ (s.setScore k v).cores = s.cores ∧ (s.setScore k v).crews = s.crews ∧
    (s.setScore k v).buckets = s.buckets ∧ (s.setScore k v).pages = s.pages ∧
    (s.setScore k v).records = s.records ∧ (s.setScore k v).trust = s.trust ∧
    (s.setScore k v).banks = s.banks ∧ (s.setScore k v).remote = s.remote ∧ (s.setScore k v).flash = s.flash ∧
    (s.setScore k v).cool = s.cool ∧ (s.setScore k v).sent = s.sent ∧ (s.setScore k v).agenda = s.agenda ∧
    (s.setScore k v).cur = s.cur ∧ (s.setScore k v).curUnit = s.curUnit ∧
    (s.setScore k v).pick = s.pick ∧
    (s.setScore k v).stalled = s.stalled ∧ (s.setScore k v).fresh = s.fresh :=
  ⟨rfl, rfl, rfl, rfl, rfl, rfl, rfl, rfl, rfl, rfl, rfl, rfl, rfl, rfl, rfl, rfl, rfl, rfl, rfl, rfl, rfl⟩

@[simp] theorem State.setSerai_frame (s : State) (k : Nat) (v : Serai) :
    (s.setSerai k v).stamp = s.stamp ∧ (s.setSerai k v).mem = s.mem ∧ (s.setSerai k v).grains = s.grains ∧
    (s.setSerai k v).host = s.host ∧ (s.setSerai k v).cores = s.cores ∧ (s.setSerai k v).crews = s.crews ∧
    (s.setSerai k v).buckets = s.buckets ∧ (s.setSerai k v).pages = s.pages ∧
    (s.setSerai k v).records = s.records ∧ (s.setSerai k v).trust = s.trust ∧
    (s.setSerai k v).banks = s.banks ∧ (s.setSerai k v).remote = s.remote ∧ (s.setSerai k v).flash = s.flash ∧
    (s.setSerai k v).cool = s.cool ∧ (s.setSerai k v).sent = s.sent ∧ (s.setSerai k v).agenda = s.agenda ∧
    (s.setSerai k v).cur = s.cur ∧ (s.setSerai k v).curUnit = s.curUnit ∧
    (s.setSerai k v).pick = s.pick ∧
    (s.setSerai k v).stalled = s.stalled ∧ (s.setSerai k v).fresh = s.fresh :=
  ⟨rfl, rfl, rfl, rfl, rfl, rfl, rfl, rfl, rfl, rfl, rfl, rfl, rfl, rfl, rfl, rfl, rfl, rfl, rfl, rfl, rfl⟩

@[simp] theorem State.setRegion_frame (s : State) (k : Nat) (v : Region) :
    (s.setRegion k v).stamp = s.stamp ∧ (s.setRegion k v).mem = s.mem ∧ (s.setRegion k v).grains = s.grains ∧
    (s.setRegion k v).host = s.host ∧ (s.setRegion k v).cores = s.cores ∧ (s.setRegion k v).crews = s.crews ∧
    (s.setRegion k v).buckets = s.buckets ∧ (s.setRegion k v).sched = s.sched ∧
    (s.setRegion k v).pages = s.pages ∧ (s.setRegion k v).records = s.records ∧
    (s.setRegion k v).trust = s.trust ∧ (s.setRegion k v).banks = s.banks ∧
    (s.setRegion k v).remote = s.remote ∧ (s.setRegion k v).cool = s.cool ∧ (s.setRegion k v).sent = s.sent ∧
    (s.setRegion k v).agenda = s.agenda ∧ (s.setRegion k v).cur = s.cur ∧
    (s.setRegion k v).curUnit = s.curUnit ∧
    (s.setRegion k v).pick = s.pick ∧ (s.setRegion k v).stalled = s.stalled ∧
    (s.setRegion k v).fresh = s.fresh :=
  ⟨rfl, rfl, rfl, rfl, rfl, rfl, rfl, rfl, rfl, rfl, rfl, rfl, rfl, rfl, rfl, rfl, rfl, rfl, rfl, rfl, rfl⟩

@[simp] theorem State.setCounters_frame (s : State) (k : Nat) (v : Counters) :
    (s.setCounters k v).stamp = s.stamp ∧ (s.setCounters k v).mem = s.mem ∧
    (s.setCounters k v).grains = s.grains ∧ (s.setCounters k v).host = s.host ∧
    (s.setCounters k v).cores = s.cores ∧ (s.setCounters k v).crews = s.crews ∧
    (s.setCounters k v).buckets = s.buckets ∧ (s.setCounters k v).sched = s.sched ∧
    (s.setCounters k v).pages = s.pages ∧ (s.setCounters k v).records = s.records ∧
    (s.setCounters k v).banks = s.banks ∧ (s.setCounters k v).remote = s.remote ∧
    (s.setCounters k v).flash = s.flash ∧ (s.setCounters k v).cool = s.cool ∧
    (s.setCounters k v).sent = s.sent ∧ (s.setCounters k v).agenda = s.agenda ∧
    (s.setCounters k v).cur = s.cur ∧ (s.setCounters k v).curUnit = s.curUnit ∧
    (s.setCounters k v).pick = s.pick ∧
    (s.setCounters k v).stalled = s.stalled ∧ (s.setCounters k v).fresh = s.fresh :=
  ⟨rfl, rfl, rfl, rfl, rfl, rfl, rfl, rfl, rfl, rfl, rfl, rfl, rfl, rfl, rfl, rfl, rfl, rfl, rfl, rfl, rfl⟩

@[simp] theorem State.write_frame (s : State) (a : Nat) (bs : List Byte) :
    (s.write a bs).stamp = s.stamp ∧ (s.write a bs).host = s.host ∧ (s.write a bs).cores = s.cores ∧
    (s.write a bs).crews = s.crews ∧ (s.write a bs).buckets = s.buckets ∧ (s.write a bs).sched = s.sched ∧
    (s.write a bs).pages = s.pages ∧ (s.write a bs).records = s.records ∧ (s.write a bs).trust = s.trust ∧
    (s.write a bs).banks = s.banks ∧ (s.write a bs).remote = s.remote ∧ (s.write a bs).flash = s.flash ∧
    (s.write a bs).cool = s.cool ∧ (s.write a bs).sent = s.sent ∧ (s.write a bs).agenda = s.agenda ∧
    (s.write a bs).cur = s.cur ∧ (s.write a bs).curUnit = s.curUnit ∧
    (s.write a bs).pick = s.pick ∧ (s.write a bs).stalled = s.stalled ∧
    (s.write a bs).fresh = s.fresh :=
  ⟨rfl, rfl, rfl, rfl, rfl, rfl, rfl, rfl, rfl, rfl, rfl, rfl, rfl, rfl, rfl, rfl, rfl, rfl, rfl, rfl⟩

@[simp] theorem State.writeWord_frame (s : State) (a : Nat) (v : Word) :
    (s.writeWord a v).stamp = s.stamp ∧ (s.writeWord a v).host = s.host ∧ (s.writeWord a v).cores = s.cores ∧
    (s.writeWord a v).crews = s.crews ∧ (s.writeWord a v).buckets = s.buckets ∧
    (s.writeWord a v).sched = s.sched ∧ (s.writeWord a v).pages = s.pages ∧
    (s.writeWord a v).records = s.records ∧ (s.writeWord a v).trust = s.trust ∧
    (s.writeWord a v).banks = s.banks ∧ (s.writeWord a v).remote = s.remote ∧
    (s.writeWord a v).flash = s.flash ∧ (s.writeWord a v).cool = s.cool ∧ (s.writeWord a v).sent = s.sent ∧
    (s.writeWord a v).agenda = s.agenda ∧ (s.writeWord a v).cur = s.cur ∧
    (s.writeWord a v).curUnit = s.curUnit ∧
    (s.writeWord a v).pick = s.pick ∧ (s.writeWord a v).stalled = s.stalled ∧
    (s.writeWord a v).fresh = s.fresh :=
  ⟨rfl, rfl, rfl, rfl, rfl, rfl, rfl, rfl, rfl, rfl, rfl, rfl, rfl, rfl, rfl, rfl, rfl, rfl, rfl, rfl⟩

@[simp] theorem State.setGrain_frame (s : State) (g : Nat) (v : BitVec 32 × Bool) :
    (s.setGrain g v).stamp = s.stamp ∧ (s.setGrain g v).mem = s.mem ∧ (s.setGrain g v).host = s.host ∧
    (s.setGrain g v).cores = s.cores ∧ (s.setGrain g v).crews = s.crews ∧
    (s.setGrain g v).buckets = s.buckets ∧ (s.setGrain g v).sched = s.sched ∧
    (s.setGrain g v).pages = s.pages ∧ (s.setGrain g v).records = s.records ∧
    (s.setGrain g v).trust = s.trust ∧ (s.setGrain g v).banks = s.banks ∧ (s.setGrain g v).remote = s.remote ∧
    (s.setGrain g v).flash = s.flash ∧ (s.setGrain g v).cool = s.cool ∧ (s.setGrain g v).sent = s.sent ∧
    (s.setGrain g v).agenda = s.agenda ∧ (s.setGrain g v).cur = s.cur ∧ (s.setGrain g v).curUnit = s.curUnit ∧
    (s.setGrain g v).pick = s.pick ∧
    (s.setGrain g v).stalled = s.stalled ∧ (s.setGrain g v).fresh = s.fresh :=
  ⟨rfl, rfl, rfl, rfl, rfl, rfl, rfl, rfl, rfl, rfl, rfl, rfl, rfl, rfl, rfl, rfl, rfl, rfl, rfl, rfl, rfl⟩

@[simp] theorem State.chargeStack_frame (s : State) (c n : Nat) :
    (s.chargeStack c n).stamp = s.stamp ∧ (s.chargeStack c n).mem = s.mem ∧
    (s.chargeStack c n).grains = s.grains ∧ (s.chargeStack c n).host = s.host ∧
    (s.chargeStack c n).cores = s.cores ∧ (s.chargeStack c n).crews = s.crews ∧
    (s.chargeStack c n).buckets = s.buckets ∧ (s.chargeStack c n).sched = s.sched ∧
    (s.chargeStack c n).pages = s.pages ∧ (s.chargeStack c n).records = s.records ∧
    (s.chargeStack c n).trust = s.trust ∧ (s.chargeStack c n).remote = s.remote ∧
    (s.chargeStack c n).flash = s.flash ∧ (s.chargeStack c n).cool = s.cool ∧
    (s.chargeStack c n).sent = s.sent ∧ (s.chargeStack c n).agenda = s.agenda ∧
    (s.chargeStack c n).cur = s.cur ∧ (s.chargeStack c n).curUnit = s.curUnit ∧
    (s.chargeStack c n).pick = s.pick ∧
    (s.chargeStack c n).stalled = s.stalled ∧ (s.chargeStack c n).fresh = s.fresh :=
  ⟨rfl, rfl, rfl, rfl, rfl, rfl, rfl, rfl, rfl, rfl, rfl, rfl, rfl, rfl, rfl, rfl, rfl, rfl, rfl, rfl, rfl⟩

@[simp] theorem State.dropPost_frame (s : State) :
    s.dropPost.stamp = s.stamp ∧ s.dropPost.mem = s.mem ∧ s.dropPost.grains = s.grains ∧
    s.dropPost.host = s.host ∧ s.dropPost.cores = s.cores ∧ s.dropPost.crews = s.crews ∧
    s.dropPost.buckets = s.buckets ∧ s.dropPost.pages = s.pages ∧ s.dropPost.records = s.records ∧
    s.dropPost.trust = s.trust ∧ s.dropPost.banks = s.banks ∧ s.dropPost.remote = s.remote ∧
    s.dropPost.flash = s.flash ∧ s.dropPost.cool = s.cool ∧ s.dropPost.sent = s.sent ∧
    s.dropPost.agenda = s.agenda ∧ s.dropPost.cur = s.cur ∧ s.dropPost.curUnit = s.curUnit ∧
    s.dropPost.pick = s.pick ∧
    s.dropPost.stalled = s.stalled ∧ s.dropPost.fresh = s.fresh :=
  ⟨rfl, rfl, rfl, rfl, rfl, rfl, rfl, rfl, rfl, rfl, rfl, rfl, rfl, rfl, rfl, rfl, rfl, rfl, rfl, rfl, rfl⟩

/-! ## Reading back -/

@[simp] theorem State.core_setCore_same (s : State) (k : Nat) (c : Core) : (s.setCore k c).core k = c := by
  simp [State.core, State.setCore]

theorem State.core_setCore_other (s : State) {j k : Nat} (c : Core) (h : j ≠ k) : (s.setCore k c).core j = s.core j := by
  simp [State.core, State.setCore, Sparse.get_put_other _ _ _ h]

@[simp] theorem State.setHere_setHere (s : State) (c d : Core) : (s.setHere c).setHere d = s.setHere d := by
  simp [State.setHere, State.setCore]

@[simp] theorem State.here_setHere (s : State) (c : Core) : (s.setHere c).here = c := by
  simp [State.here, State.setHere]

theorem State.core_setHere_other (s : State) {j : Nat} (c : Core) (h : j ≠ s.cur) : (s.setHere c).core j = s.core j :=
  State.core_setCore_other s c h

@[simp] theorem State.crew_setCrew_same (s : State) (k : Nat) (c : Crew) : (s.setCrew k c).crew k = c := by
  simp [State.crew, State.setCrew]

@[simp] theorem State.unit_setUnit_same (s : State) (k : Nat) (c : BankUnit) : (s.setUnit k c).unit k = c := by
  simp [State.unit, State.setUnit]

@[simp] theorem State.score_setScore_same (s : State) (k : Nat) (c : Score) : (s.setScore k c).score k = c := by
  simp [State.score, State.setScore]

@[simp] theorem State.zone_setZone_same (s : State) (k : Nat) (c : Zone) : (s.setZone k c).zone k = c := by
  simp [State.zone, State.setZone]

@[simp] theorem State.here_setCrew (s : State) (k : Nat) (c : Crew) : (s.setCrew k c).here = s.here := rfl
@[simp] theorem State.here_write (s : State) (a : Nat) (bs : List Byte) : (s.write a bs).here = s.here := rfl
@[simp] theorem State.crew_setHere (s : State) (k : Nat) (c : Core) : (s.setHere c).crew k = s.crew k := rfl
@[simp] theorem State.byte_setHere (s : State) (c : Core) (a : Nat) : (s.setHere c).byte a = s.byte a := rfl
@[simp] theorem State.byte_setCore (s : State) (k : Nat) (c : Core) (a : Nat) : (s.setCore k c).byte a = s.byte a := rfl

/-! ## Engines of a core -/

@[simp] theorem Core.ctr_setCtr (c : Core) (e : Engine) (v : Counter) : (c.setCtr e v).ctr e = v := by cases e <;> rfl
@[simp] theorem Core.params_setParams (c : Core) (e : Engine) (v : List ParamWrite) (h : e ≠ .s) :
    (c.setParams e v).params e = v := by cases e <;> first | rfl | exact absurd rfl h

end Sys2Proof.Machine
end

