-- ==== Sys2Proof/Laws/Run.lean ====
section
/-! SUPPORT. How bodies run, and one law for each shared operation that issues a word: when it may issue and its body
answers, the word answers the next state of its retirement. -/

namespace Sys2Proof.Machine

variable {α β : Type}

/-! ## Running a body -/

@[simp] theorem M.run_pure (a : α) (s : State) : (pure a : M α).run s = .ok a s := rfl
@[simp] theorem M.run_get (s : State) : (get : M State).run s = .ok s s := rfl
@[simp] theorem M.run_set (t s : State) : (set t : M PUnit).run s = .ok ⟨⟩ t := rfl
@[simp] theorem M.run_modify (f : State → State) (s : State) : (modify f : M PUnit).run s = .ok ⟨⟩ (f s) := rfl
@[simp] theorem M.run_throw (x : Stop) (s : State) : (throw x : M α).run s = .error x s := rfl
@[simp] theorem M.run_await (s : State) : (await : M α).run s = .error .wait s := rfl
@[simp] theorem M.run_trap (c : Cause) (s : State) : (trap c : M α).run s = .error (.trap { cause := c }) s := rfl
@[simp] theorem M.run_here (s : State) : here.run s = .ok s.here s := rfl
@[simp] theorem M.run_onHere (f : Core → Core) (s : State) : (onHere f).run s = .ok ⟨⟩ (s.setHere (f s.here)) := rfl
@[simp] theorem M.run_freshNat (s : State) : freshNat.run s = .ok s.fresh { s with fresh := s.fresh + 1 } := rfl

theorem M.run_bind (x : M α) (f : α → M β) (s : State) :
    (x >>= f).run s = match x.run s with | .ok a t => (f a).run t | .error e t => .error e t := by
  show EStateM.bind x f s = _
  unfold EStateM.bind EStateM.run
  cases x s <;> rfl

theorem M.run_ok {x : M α} {f : α → M β} {s t : State} {a : α} (h : x.run s = .ok a t) :
    (x >>= f).run s = (f a).run t := by rw [M.run_bind, h]

theorem M.run_error {x : M α} {f : α → M β} {s t : State} {e : Stop} (h : x.run s = .error e t) :
    (x >>= f).run s = .error e t := by rw [M.run_bind, h]

@[simp] theorem M.run_needs_true (s : State) : (needs true).run s = .ok ⟨⟩ s := rfl
@[simp] theorem M.run_needs_false (s : State) : (needs false).run s = .error .wait s := rfl
@[simp] theorem M.run_trapIf_false (c : Cause) (s : State) : (trapIf false c).run s = .ok ⟨⟩ s := rfl
@[simp] theorem M.run_trapIf_true (c : Cause) (s : State) : (trapIf true c).run s = .error (.trap { cause := c }) s := rfl

theorem M.run_needs {b : Bool} (h : b = true) (s : State) : (needs b).run s = .ok ⟨⟩ s := by rw [h]; rfl
theorem M.run_trapIf {b : Bool} (h : b = false) (c : Cause) (s : State) : (trapIf b c).run s = .ok ⟨⟩ s := by rw [h]; rfl

/-- An operand that the strand holds is read (04 R94). -/
theorem item_ok {n : BitVec 5} {s : State} {x : Word} (h : s.here.sc.strand[n.toNat]? = some x) :
    (item n).run s = .ok x s := by
  rw [item, M.run_ok (M.run_here s), h]; rfl

/-- An operand that the strand does not hold raises OPERAND (04 R98). -/
theorem item_none {n : BitVec 5} {s : State} (h : s.here.sc.strand[n.toNat]? = none) :
    (item n).run s = .error (.trap { cause := .operand }) s := by
  rw [item, M.run_ok (M.run_here s), h]; rfl

/-! ## Issuing -/

theorem taskReady_ok {s : State} (h : s.here.awake = true) (hb : s.gatedBelow = false) :
    (taskReady s.here).run s = .ok ⟨⟩ s := by
  simp only [Core.awake, Bool.and_eq_true, beq_iff_eq, Bool.not_eq_true'] at h
  obtain ⟨⟨h1, h2⟩, h3⟩ := h
  unfold taskReady
  simp only [h1, bne_self_eq_false, Bool.false_eq_true, if_false]
  rw [M.run_ok (M.run_get s)]
  exact M.run_needs (by simp [h2, h3, hb]) s

/-- It is the turn of scalar word i: its engine may issue it. -/
theorem scalarMay_ok {i : Instr} {s : State} (h : s.scalarTurn = true)
    (hl : (undoable i || s.here.sc.loads.isEmpty) = true) : (scalarMay i).run s = .ok ⟨⟩ s := by
  simp only [State.scalarTurn, Bool.and_eq_true, Bool.not_eq_true'] at h
  obtain ⟨⟨⟨⟨⟨⟨⟨ha, hb⟩, hr⟩, hs⟩, hp⟩, ht⟩, hd⟩, -⟩ := h
  unfold scalarMay
  rw [M.run_ok (M.run_get s), M.run_ok (taskReady_ok ha hb), M.run_ok (M.run_needs hr s),
    M.run_ok (M.run_needs (by simp [hs, hp, ht]) s)]
  exact M.run_needs (by simp [hd, hl]) s

/-- The scalar engine meets no obstacle when word i may issue. -/
theorem scalarReady_ok {i : Instr} {s : State} (h : s.mayIssue i = true) : (scalarReady i).run s = .ok ⟨⟩ s := by
  simp only [State.mayIssue, Instr.wellFormed, Bool.and_eq_true, Bool.not_eq_true'] at h
  obtain ⟨⟨⟨⟨ht, hg⟩, hl⟩, hw, hz⟩, hu⟩ := h
  have hg : (undoable i || s.here.sc.loads.isEmpty) = true := by
    simp only [Scalar.noLoad, Bool.or_eq_true, Bool.and_eq_true] at hg ⊢
    exact hg.imp id And.left
  have hland : (s.here.sc.landing && !isClasp i) = false := by
    simp only [Bool.or_eq_true, Bool.not_eq_true'] at hl
    rcases hl with hl | hl <;> simp [hl]
  have hill : (i.illOperand || (s.here.runner.isSome && !remoteSubset i)) = false := by
    simp only [Bool.or_eq_true] at hu
    rcases hu with hu | hu <;> simp_all
  have hpage : s.here.inPage = true := by
    simp only [State.scalarTurn, Bool.and_eq_true] at ht
    exact ht.2
  unfold scalarReady
  rw [M.run_ok (scalarMay_ok ht hg), M.run_ok (M.run_here s)]
  cases hrun : s.here.runner with
  | none =>
    rw [hrun] at hill
    simp only
    rw [M.run_ok (M.run_trapIf hland _ s), M.run_ok (M.run_trapIf hill _ s)]
    exact M.run_trapIf hz _ s
  | some r =>
    rw [hrun] at hill
    simp only [Core.inPage, hrun] at hpage
    simp only
    rw [M.run_ok (M.run_trapIf (by simpa using hpage) _ s), M.run_ok (M.run_trapIf hland _ s),
      M.run_ok (M.run_trapIf hill _ s)]
    exact M.run_trapIf hz _ s

/-- A word whose effects stay on the strand: it may issue and its body answers, so it retires. -/
theorem strandWord_ok {i : Instr} {body : M Drop} {s t : State} {d : Drop} (h : s.mayIssue i = true)
    (hb : body.run s = .ok d t) : strandWord i body s = .next (t.retired d) := by
  unfold strandWord
  rw [M.run_ok (scalarReady_ok h), M.run_ok hb]
  rfl

/-- A word with an effect that leaves the engine, whose check finds nothing (02 R44). -/
theorem leavingWord_ok {i : Instr} {body : M Drop} {s t : State} {d : Drop} (h : s.mayIssue i = true)
    (hc : s.here.checkerBad = false) (hb : body.run s = .ok d t) : leavingWord i body s = .next (t.retired d) := by
  unfold leavingWord
  rw [M.run_ok (scalarReady_ok h), M.run_ok (M.run_get s), M.run_ok hb, hc]
  rfl

/-- With no load open nothing on the scalar engine may trap before its word (04 R101). -/
theorem earlierFirst_no_load {s : State} (h : s.here.sc.loads = []) : s.earlierFirst .s = false := by
  unfold State.earlierFirst
  rw [h]
  rfl

/-- A body that traps with nothing before it to trap first: its trap is taken. -/
theorem finish_trap {e : Engine} {s t : State} {x : Trap} (h : s.earlierFirst e = false) :
    finish e s (.error (.trap x) t) =
      .next { ({ s with fresh := t.fresh }.takeTrap s.cur e (s.here.at_ e) x) with stalled := false } := by
  simp only [finish, h, Bool.false_eq_true, if_false]

/-- A scalar word that may issue, with no load open, and whose body traps takes its trap. -/
theorem strandWord_trap {i : Instr} {body : M Drop} {s t : State} {x : Trap} (h : s.mayIssue i = true)
    (hn : s.here.sc.loads = []) (hb : body.run s = .error (.trap x) t) :
    strandWord i body s =
      .next { ({ s with fresh := t.fresh }.takeTrap s.cur .s (s.here.at_ .s) x) with stalled := false } := by
  unfold strandWord
  rw [M.run_ok (scalarReady_ok h), M.run_error hb]
  exact finish_trap (earlierFirst_no_load hn)

theorem leavingWord_trap {i : Instr} {body : M Drop} {s t : State} {x : Trap} (h : s.mayIssue i = true)
    (hn : s.here.sc.loads = []) (hb : body.run s = .error (.trap x) t) :
    leavingWord i body s =
      .next { ({ s with fresh := t.fresh }.takeTrap s.cur .s (s.here.at_ .s) x) with stalled := false } := by
  unfold leavingWord
  rw [M.run_ok (scalarReady_ok h), M.run_ok (M.run_get s), M.run_error hb]
  exact finish_trap (earlierFirst_no_load hn)

theorem engineReady_ok {e : Engine} {i : Instr} {s : State} (h : s.engineMayIssue e i = true) :
    (engineReady e i).run s = .ok ⟨⟩ s := by
  simp only [State.engineMayIssue, Instr.wellFormed, Bool.and_eq_true, Bool.not_eq_true', Option.isNone_iff_eq_none] at h
  obtain ⟨⟨⟨⟨⟨⟨ha, hb⟩, hr⟩, hs⟩, hn⟩, ht⟩, hw, hz⟩ := h
  unfold engineReady
  rw [M.run_ok (M.run_here s), M.run_ok (taskReady_ok ha hb)]
  simp only [hr, Option.isSome_none, Bool.false_eq_true, if_false]
  rw [M.run_ok (M.run_needs (by simp [hs, hn, ht]) s), M.run_ok (M.run_trapIf hw _ s)]
  exact M.run_trapIf hz _ s

/-- A word of an engine behind: it may issue and its body answers, so it retires. -/
theorem engineWord_ok {e : Engine} {i : Instr} {body : M PUnit} {s t : State} (h : s.engineMayIssue e i = true)
    (hb : body.run s = .ok ⟨⟩ t) : engineWord e i body s = .next (t.engineRetired e) := by
  unfold engineWord
  rw [M.run_ok (engineReady_ok h), M.run_ok hb]
  rfl

/-- A return word: its value waits for the scalar engine (02 R40). -/
theorem returnWord_ok {e : Engine} {i : Instr} {body : M Word} {s t : State} {v : Word}
    (h : s.engineMayIssue e i = true) (hr : s.here.hand.ret = none) (hb : body.run s = .ok v t) :
    returnWord e i body s =
      .next ((t.setHere { t.here with hand := { t.here.hand with ret := some v } }).engineRetired e) := by
  unfold returnWord
  refine engineWord_ok h ?_
  rw [M.run_ok (M.run_here s), M.run_ok (M.run_needs (by simp [hr]) s), M.run_ok hb]
  rfl

/-! ## What retirement leaves -/

@[simp] theorem State.retired_stamp (s : State) (d : Drop) : (s.retired d).stamp = s.stamp := rfl
@[simp] theorem State.retired_stalled (s : State) (d : Drop) : (s.retired d).stalled = false := rfl
@[simp] theorem State.engineRetired_stalled (s : State) (e : Engine) : (s.engineRetired e).stalled = false := rfl

/-- The core of a retired word. -/
@[simp] theorem State.here_retired (s : State) (d : Drop) : (s.retired d).here = s.here.scalarDone s.stamp d := by
  simp [State.retired, State.here, State.setHere, State.core, State.setCore]

@[simp] theorem State.here_engineRetired (s : State) (e : Engine) :
    (s.engineRetired e).here = s.here.engineDone e s.stamp := by
  simp [State.engineRetired, State.here, State.setHere, State.core, State.setCore]

/-- A retired word changes no memory. -/
theorem State.retired_memory (s : State) (d : Drop) : s.sameMemory (s.retired d) := ⟨fun _ => rfl, fun _ => rfl, rfl⟩

theorem State.engineRetired_memory (s : State) (e : Engine) : s.sameMemory (s.engineRetired e) :=
  ⟨fun _ => rfl, fun _ => rfl, rfl⟩

/-- A retired word changes nothing outside its core. -/
theorem State.retired_outside (s : State) (d : Drop) : s.sameOutside (s.retired d) :=
  ⟨rfl, rfl, rfl, rfl, rfl, rfl, rfl, rfl, rfl, rfl, rfl, rfl, rfl, fun _ h => State.core_setHere_other s _ h⟩

end Sys2Proof.Machine
end

