-- ==== Sys2Proof/Laws/Scalar.lean ====
section
/-! SUPPORT. One law for each shape of integer word: with its operands written it drops its result. -/

namespace Sys2Proof.Machine

/-- A two-operand body with both items written drops f of them. -/
theorem two_ok {lat : Nat} {a b : BitVec 5} {f : Word → Word → Word} {s : State} {x y : Word}
    (hx : s.here.sc.strand[a.toNat]? = some x) (hy : s.here.sc.strand[b.toNat]? = some y) :
    (two lat a b f).run s = .ok { lat := lat, items := [f x y] } s := by
  rw [two, M.run_ok (item_ok hx), M.run_ok (item_ok hy)]
  rfl

/-- A one-operand body with its item written drops f of it. -/
theorem one_ok {a : BitVec 5} {f : Word → Word} {s : State} {x : Word} (hx : s.here.sc.strand[a.toNat]? = some x) :
    (one a f).run s = .ok { items := [f x] } s := by
  rw [one, M.run_ok (item_ok hx)]
  rfl

/-- A two-operand word that may issue with both items written retires with its result. -/
theorem strandTwo_ok {i : Instr} {lat : Nat} {a b : BitVec 5} {f : Word → Word → Word} {s : State} {x y : Word}
    (h : s.mayIssue i = true) (hx : s.here.sc.strand[a.toNat]? = some x) (hy : s.here.sc.strand[b.toNat]? = some y) :
    strandWord i (two lat a b f) s = .next (s.retired { lat := lat, items := [f x y] }) :=
  strandWord_ok h (two_ok hx hy)

/-- A one-operand word that may issue with its item written retires with its result. -/
theorem strandOne_ok {i : Instr} {a : BitVec 5} {f : Word → Word} {s : State} {x : Word}
    (h : s.mayIssue i = true) (hx : s.here.sc.strand[a.toNat]? = some x) :
    strandWord i (one a f) s = .next (s.retired { items := [f x] }) :=
  strandWord_ok h (one_ok hx)

end Sys2Proof.Machine
end

