-- ==== Sys2Proof/Laws/Trap.lean ====
section
/-! SUPPORT. Taking a trap with the action PARK, and what the stop leaves. -/

namespace Sys2Proof.Machine

/-! ## What the parts of a stop leave alone -/

@[simp] theorem State.withdrawTolls_frame (s : State) (k : Nat) :
    (s.withdrawTolls k).mem = s.mem ∧ (s.withdrawTolls k).grains = s.grains ∧ (s.withdrawTolls k).host = s.host ∧
    (s.withdrawTolls k).cores = s.cores ∧ (s.withdrawTolls k).sched = s.sched ∧ (s.withdrawTolls k).cur = s.cur ∧
    (s.withdrawTolls k).trust = s.trust ∧ (s.withdrawTolls k).stamp = s.stamp :=
  ⟨rfl, rfl, rfl, rfl, rfl, rfl, rfl, rfl⟩

@[simp] theorem State.returnTolls_frame (s : State) (c n : Nat) :
    (s.returnTolls c n).mem = s.mem ∧ (s.returnTolls c n).grains = s.grains ∧ (s.returnTolls c n).host = s.host ∧
    (s.returnTolls c n).cores = s.cores ∧ (s.returnTolls c n).sched = s.sched ∧ (s.returnTolls c n).cur = s.cur ∧
    (s.returnTolls c n).trust = s.trust ∧ (s.returnTolls c n).stamp = s.stamp :=
  ⟨rfl, rfl, rfl, rfl, rfl, rfl, rfl, rfl⟩

/-- Counting a trap's event touches the counters of trust alone (14 R418, R420). -/
theorem State.countTrap_frame (s : State) (k : Nat) (c : Cause) :
    (s.countTrap k c).mem = s.mem ∧ (s.countTrap k c).grains = s.grains ∧ (s.countTrap k c).host = s.host ∧
    (s.countTrap k c).cores = s.cores ∧ (s.countTrap k c).sched = s.sched ∧ (s.countTrap k c).cur = s.cur ∧
    (s.countTrap k c).stamp = s.stamp := by
  unfold State.countTrap State.countBad
  split
  · exact ⟨rfl, rfl, rfl, rfl, rfl, rfl, rfl⟩
  · cases c <;> exact ⟨rfl, rfl, rfl, rfl, rfl, rfl, rfl⟩

/-- Recording a stop touches the core, its bucket and its place at order gates. -/
theorem State.recordStop_frame (s : State) (k : Nat) (e : Engine) (pos : Nat × Word) (x : Trap) :
    (s.recordStop k e pos x).mem = s.mem ∧ (s.recordStop k e pos x).grains = s.grains ∧
    (s.recordStop k e pos x).host = s.host ∧ (s.recordStop k e pos x).sched = s.sched ∧
    (s.recordStop k e pos x).cur = s.cur ∧ (∀ j, j ≠ k → (s.recordStop k e pos x).core j = s.core j) ∧
    (s.recordStop k e pos x).stamp = s.stamp :=
  ⟨rfl, rfl, rfl, rfl, rfl, fun _ h => State.core_setCore_other _ _ h, rfl⟩

/-- Cutting the copy words leaves everything of a core alone but them, their claims and what they hold in the path
(07 R233). -/
theorem Core.cutCopies_frame (c : Core) :
    c.cutCopies.job = c.job ∧ c.cutCopies.sc = c.sc ∧ c.cutCopies.vec = c.vec ∧ c.cutCopies.mat = c.mat ∧
    c.cutCopies.tiles = c.tiles ∧ c.cutCopies.hand = c.hand ∧ c.cutCopies.handles = c.handles ∧
    c.cutCopies.seals = c.seals ∧ c.cutCopies.slots = c.slots ∧ c.cutCopies.stop = c.stop ∧
    c.cutCopies.req.fences = c.req.fences ∧ c.cutCopies.req.ahead = c.req.ahead := by
  unfold Core.cutCopies
  simp only
  split <;> exact ⟨rfl, rfl, rfl, rfl, rfl, rfl, rfl, rfl, rfl, rfl, rfl, rfl⟩

/-- With no load open nothing of the scalar engine is undone (04 R101). -/
theorem Scalar.undo_no_load {c : Scalar} (h : c.loads = []) : c.undo = c := by
  unfold Scalar.undo
  rw [h]

/-- The core of a recorded stop, with no load open (12 R379, R383). -/
theorem State.recordStop_core (s : State) (k : Nat) (e : Engine) (pos : Nat × Word) (x : Trap)
    (hl : (s.core k).sc.loads = []) :
    let c := (s.recordStop k e pos x).core k
    let o := s.core k
    c.run = .parked ∧ c.job = o.job ∧ c.stop.cause = x.cause ∧ c.stop.walk = pos.1 ∧ c.stop.code = x.code ∧
    c.sc.f.cause = statusWord x.code (s.retryOf o.cutCopies x.cause pos.1) e.tag x.cause.code 0 ∧
    c.stop.header = cutHeader k o.cutCopies pos c.sc.f.cause x ∧ c.stop.retry = s.retryOf o.cutCopies x.cause pos.1 ∧
    c.sc.strand = o.sc.strand ∧ c.sc.flight = o.sc.flight ∧ c.sc.beat = o.sc.beat ∧
    c.sc.ctr = o.sc.ctr ∧ c.sc.targets = o.sc.targets ∧ c.sc.calls = o.sc.calls ∧
    c.sc.k = o.sc.k ∧ c.vec = o.vec ∧ c.cpy = o.cutCopies.cpy ∧ c.tiles = o.tiles ∧
    c.hand = o.hand ∧ c.req = o.cutCopies.req ∧ c.mat.loops = o.mat.loops ∧
    c.sc.f.faddr = (match x.fault with | some f => f.1 | none => o.sc.f.faddr) ∧
    c.sc.f.finfo = (match x.fault with | some f => f.2 | none => o.sc.f.finfo) ∧
    c.sc.f.fladdr = (match x.flash with | some f => f | none => o.sc.f.fladdr) := by
  obtain ⟨hj, hs, hv, hm, ht, hh, -, -, -, -, -, -⟩ := (s.core k).cutCopies_frame
  simp only [State.recordStop, State.core_setCore_same, hs, hl, Scalar.undo_no_load hl, List.isEmpty_nil, Bool.not_true,
    Bool.false_eq_true, and_false, if_false]
  have hu : ∀ sc, ({ (s.core k).cutCopies with sc := sc } : Core).job = (s.core k).job := fun _ => hj
  have hc : ({ (s.core k).cutCopies with sc := (s.core k).sc } : Core) = (s.core k).cutCopies := by rw [← hs]
  rw [hc]
  cases x.fault <;> cases x.flash <;> simp [hj, hv, hm, ht, hh]

/-! ## PARK -/

/-- Reading a dword depends on memory alone. -/
theorem State.dword_of_mem {s t : State} (h : t.mem = s.mem) (a : Nat) : t.dword a = s.dword a := by
  simp [State.dword, State.bytes, h]

theorem State.actionEntry_of_mem {s t : State} (h : t.mem = s.mem) (h' : t.sched = s.sched) (ctx cause : Nat) :
    t.actionEntry ctx cause = s.actionEntry ctx cause := by
  simp [State.actionEntry, h', State.dword_of_mem h]

/-- A stop whose entry says PARK, of a task that is not recorded, takes no further action (12 R381). -/
theorem State.act_park (s : State) (k a : Nat) (ha : s.actionEntry (s.core k).job.ctx (s.core k).stop.cause.code = a)
    (hp : fld a 62 2 = 2) (hr : (s.core k).job.recmode ≠ 1) : s.act k = s := by
  unfold State.act State.actOn State.recordAction
  cases s.instOf k <;> simp [ha, hp, hr]

/-- Taking a trap whose entry says PARK, by a task that is not recorded, with no load open and no call on its core: the stop is
recorded and nothing else happens (12 R379-R383). -/
theorem State.takeTrap_park (s : State) (k : Nat) (e : Engine) (pos : Nat × Word) (x : Trap) (a : Nat)
    (h0 : (s.core k).runner = none) (h1 : (s.core (runnerKey k)).runner = none) (hl : (s.core k).sc.loads = [])
    (ha : s.actionEntry (s.core k).job.ctx x.cause.code = a) (hp : fld a 62 2 = 2) (hr : (s.core k).job.recmode ≠ 1) :
    s.takeTrap k e pos x = (s.countTrap k x.cause).recordStop k e pos x := by
  obtain ⟨hm, _, _, hc, hs, _⟩ := s.countTrap_frame k x.cause
  have hcore : ∀ j, (s.countTrap k x.cause).core j = s.core j := fun j => by simp [State.core, hc]
  obtain ⟨_, hj, hcs, _⟩ := State.recordStop_core (s.countTrap k x.cause) k e pos x (by rw [hcore]; exact hl)
  obtain ⟨hm', _, _, hs', _⟩ := State.recordStop_frame (s.countTrap k x.cause) k e pos x
  unfold State.takeTrap
  simp only [hcore, h0, h1, Option.isSome_none, Bool.false_eq_true, if_false]
  refine State.act_park _ k a ?_ hp ?_
  · rw [hj, hcs, hcore, State.actionEntry_of_mem (hm'.trans hm) (hs'.trans hs)]
    exact ha
  · rw [hj, hcore]
    exact hr

/-- The status word of a trap as a number (12 Table 138). -/
theorem statusWord_toNat (code r : Nat) (e : Engine) (c : Cause) :
    (statusWord code r e.tag c.code 0).toNat =
      code % 2 ^ 16 * 2 ^ 32 + r % 256 * 2 ^ 24 + e.tag * 2 ^ 14 + c.code * 2 ^ 8 := by
  have he : e.tag < 4 := by cases e <;> simp [Engine.tag]
  have hc : c.code < 64 := by cases c <;> simp [Cause.code]
  rw [statusWord, BitVec.toNat_ofNat, Nat.mod_eq_of_lt] <;> omega

/-- A trap that PARK answers enters as R379 and R383 say. -/
theorem enteredAt_of_park (s : State) (e : Engine) (pos : Nat × Word) (x : Trap) (f : Nat) (h : s.parks x.cause) :
    s.enteredAt { ({ s with fresh := f }.takeTrap s.cur e pos x) with stalled := false } e pos x := by
  obtain ⟨ha, hr, h0, h1, hl⟩ := h
  have hp := State.takeTrap_park { s with fresh := f } s.cur e pos x _ h0 h1 hl rfl ha hr
  rw [hp]
  have hf := State.recordStop_frame (({ s with fresh := f } : State).countTrap s.cur x.cause) s.cur e pos x
  have hc := State.recordStop_core (({ s with fresh := f } : State).countTrap s.cur x.cause) s.cur e pos x
  have ht := State.countTrap_frame ({ s with fresh := f } : State) s.cur x.cause
  have hcore : ∀ j, (({ s with fresh := f } : State).countTrap s.cur x.cause).core j = s.core j := fun j => by
    simp only [State.core, ht.2.2.2.1]
  simp only [hcore] at hc hf
  replace hc := hc hl
  have hjob := (s.core s.cur).cutCopies_frame.1
  generalize ({ s with fresh := f } : State).countTrap s.cur x.cause = u at *
  obtain ⟨c1, c2, c3, c4, c5, c6, c7, c8, c9, c10, c11, c12, c13, c14, c15, c16, c17, c18, c19, c20, c21, c22, c23, c24⟩ := hc
  have hcur : (u.recordStop s.cur e pos x).cur = s.cur := hf.2.2.2.2.1.trans ht.2.2.2.2.2.1
  have hh : (u.recordStop s.cur e pos x).here = (u.recordStop s.cur e pos x).core s.cur := by
    rw [State.here, hcur]
  have hstat := fun r => statusWord_toNat x.code r e x.cause
  have he : e.tag < 4 := by cases e <;> simp [Engine.tag]
  have hk : x.cause.code < 64 := by cases x.cause <;> simp [Cause.code]
  have hd : ∀ z, ({ u.recordStop s.cur e pos x with stalled := z } : State).here =
      (u.recordStop s.cur e pos x).core s.cur := fun z => hh
  unfold State.enteredAt
  simp only [hd]
  generalize hr' : u.retryOf (s.core s.cur).cutCopies x.cause pos.1 = r at c6
  refine ⟨hcur, trivial, c1, c3, c4, ?_, ?_, ?_, ?_, ?_, ?_, ?_, c9, c10, c11, c12, c13, c14, c15, c16, c17, c18, c2,
    ⟨fun a => State.byte_eq_of_mem (hf.1.trans ht.1) a, fun g => ?_, hf.2.2.1.trans ht.2.2.1⟩, hf.2.2.2.2.2.1⟩
  · rw [c6, hstat, fld]; omega
  · rw [c6, hstat, fld]; omega
  · rw [c6, hstat, fld]; omega
  · rw [c6, hstat, fld]; omega
  · rw [c7, cutHeader, hjob]; rfl
  · intro g hg; rw [c22, c23, hg]; exact ⟨rfl, rfl⟩
  · intro hg; rw [c22, c23, hg]; exact ⟨rfl, rfl⟩
  · have : (u.recordStop s.cur e pos x).grains = s.grains := hf.2.1.trans ht.2.1
    show Sparse.get _ (u.recordStop s.cur e pos x).grains g = _
    rw [this]; rfl

theorem entered_of_park (s : State) (e : Engine) (x : Trap) (f : Nat) (h : s.parks x.cause) :
    s.entered { ({ s with fresh := f }.takeTrap s.cur e (s.here.at_ e) x) with stalled := false } e x :=
  enteredAt_of_park s e (s.here.at_ e) x f h

/-- A scalar word that may issue and whose body traps, with PARK in its context's entry, enters its trap. -/
theorem strandWord_enters {i : Instr} {body : M Drop} {s t : State} {x : Trap} (h : s.mayIssue i = true)
    (hb : body.run s = .error (.trap x) t) (hp : s.parks x.cause) :
    ∃ u, strandWord i body s = .next u ∧ s.entered u .s x :=
  ⟨_, strandWord_trap h hp.2.2.2.2 hb, entered_of_park s .s x _ hp⟩

theorem leavingWord_enters {i : Instr} {body : M Drop} {s t : State} {x : Trap} (h : s.mayIssue i = true)
    (hb : body.run s = .error (.trap x) t) (hp : s.parks x.cause) :
    ∃ u, leavingWord i body s = .next u ∧ s.entered u .s x :=
  ⟨_, leavingWord_trap h hp.2.2.2.2 hb, entered_of_park s .s x _ hp⟩

end Sys2Proof.Machine
end

