-- ==== Sys2Proof/Tests/Slice0.lean ====
section
/-! SUPPORT. Tests: the checks of WellFormed, words written out from the manual's encodings, states that meet the hypotheses of
the obligations, and a few single steps. Expected values are the manual's or worked by hand from it. -/

namespace Sys2Proof.Tests
open Sys2Proof Sys2Proof.Machine Sys2Proof.Claim

set_option maxRecDepth 4000
set_option Elab.async false

/-- A core at work with five strand items, changed by f. -/
def core (f : Core → Core := id) : Core :=
  f { run := .running, sc := { strand := [5, 7, 9, 11, 13], ctr := { walk := 0, addr := 0x100 } } }

/-- A machine whose core 0 is at work, changed by f; every trap is answered by PARK (an action table at address 0). -/
def ready (f : Core → Core := id) : State :=
  { State.reset with
    cores := [(0, core f)]
    mem := (List.range 31).map fun c => (⟨8 * c + 7, 0x80⟩ : Host.Cell) }

/-- The same with other items on the strand. -/
def holding (items : List Word) (f : Core → Core := id) : State :=
  ready fun c => f { c with sc := { c.sc with strand := items } }

/-- Whether a state answers a cause by PARK, as a test. -/
def parksB (s : State) (c : Cause) : Bool :=
  fld (s.actionEntry s.here.job.ctx c.code) 62 2 == 2 && s.here.job.recmode != 1 && s.here.runner.isNone &&
    (s.core (runnerKey s.cur)).runner.isNone && s.here.sc.loads.isEmpty

theorem parks_of {s : State} {c : Cause} (h : parksB s c = true) : s.parks c := by
  simp only [parksB, Bool.and_eq_true, beq_iff_eq, bne_iff_ne, ne_eq, Option.isNone_iff_eq_none,
    List.isEmpty_iff] at h
  exact ⟨h.1.1.1.1, h.1.1.1.2, h.1.1.2, h.1.2, h.2⟩


/-- What a run answers, and the state it leaves. -/
def val {α : Type} [Inhabited α] : EStateM.Result Stop State α → α
  | .ok a _ => a
  | .error _ _ => default
def after {α : Type} : EStateM.Result Stop State α → State
  | .ok _ t => t
  | .error _ t => t
def isOk {α : Type} : EStateM.Result Stop State α → Bool
  | .ok _ _ => true
  | .error _ _ => false

theorem run_of {α : Type} [Inhabited α] {r : EStateM.Result Stop State α} (h : isOk r = true) : r = .ok (val r) (after r) := by
  cases r with
  | ok a t => rfl
  | error e t => exact absurd h (by simp [isOk])

/-- The state after an instruction, and whether there is one that is not held up. -/
def next (i : Instr) (s : State) : State :=
  match exec i s with | .next t => t | _ => s
def runs (i : Instr) (s : State) : Bool :=
  match exec i s with | .next t => !t.stalled | _ => false

theorem next_of {i : Instr} {s : State} (h : runs i s = true) : exec i s = .next (next i s) := by
  unfold runs next at *
  split at h <;> simp_all

/-- The same with a default value given. -/
def valD {α : Type} (d : α) : EStateM.Result Stop State α → α
  | .ok a _ => a
  | .error _ _ => d

theorem run_ofD {α : Type} (d : α) {r : EStateM.Result Stop State α} (h : isOk r = true) : r = .ok (valD d r) (after r) := by
  cases r with
  | ok a t => rfl
  | error e t => exact absurd h (by simp [isOk])

theorem reads_of {s : State} {n : BitVec 5} {x : Word} (h : (s.here.sc.strand[n.toNat]? == some x) = true) : reads s n x :=
  beq_iff_eq.mp h

theorem agrees_of {s : State} (h : (s.here.checkerBad == false) = true) : agrees s := beq_iff_eq.mp h

theorem except_of {ε α : Type} [DecidableEq α] {r : Except ε α} {a : α} (h : (r.toOption == some a) = true) : r = .ok a := by
  cases r with
  | ok b => simpa [Except.toOption] using h
  | error e => simp [Except.toOption] at h

/-! ## Witnesses: the strand -/

theorem test_hyp_two_items : ∃ (s : State) (a b : BitVec 5) (x y : Word), reads s a x ∧ reads s b y ∧
    ∀ w : Bool, ∀ mk ∈ ([.add, .sub, .mul, .mulh, .mulhn, .and, .or, .xor, .andn, .min, .max, .minn, .maxn, .div, .divn, .rem, .remn,
      .shl, .shr, .sar, .rol, .ror, .ceq, .cne, .clt, .cltn, .cle, .clen] : List (BitVec 5 → BitVec 5 → Bool → Instr)),
      s.mayIssue (mk a b w) = true :=
  ⟨ready, 0, 4, 5, 13, rfl, rfl, by decide +kernel⟩

theorem test_hyp_one_item : ∃ (s : State) (a : BitVec 5) (x : Word), reads s a x ∧ s.here.sc.flight = [] ∧ agrees s ∧
    (∀ w : Bool, ∀ mk ∈ ([.clz, .ctz, .popc, .brev] : List (BitVec 5 → Bool → Instr)), s.mayIssue (mk a w) = true) ∧
    (∀ i ∈ [Instr.sext8 a, .sext16 a, .sext32 a, .dup a, .addi a false 3 0xFFFF, .addi a true 1 0, .andi a false 3 0, .ori a true 0 1,
      .xori a false 2 1, .shli a true 0xFFFF, .shri a false 64, .sari a true 32, .roli a false 65, .lit a 3 0xFFFF, .divn a a true],
      s.mayIssue i = true) :=
  ⟨ready, 0, 5, rfl, rfl, rfl, by decide +kernel, by decide +kernel⟩

theorem test_hyp_select : ∃ (s : State) (a b c : BitVec 5) (x y z : Word), s.mayIssue (.sel a b c) = true ∧
    reads s a x ∧ reads s b y ∧ reads s c z := ⟨ready, 0, 1, 4, 5, 7, 13, by decide +kernel, rfl, rfl, rfl⟩

theorem test_hyp_no_item : ∀ i ∈ [Instr.lit 0 0 0xFFFF, .lits 0x8000, .nop, .stamp, .lhash, .getk 1, .getk 2, .getk 0xA02],
    ready.mayIssue i = true := by decide +kernel

theorem test_hyp_flight : ∃ (s : State) (p q : Word), s.mayIssue (.dup 0) = true ∧ reads s 0 5 ∧
    s.here.sc.flight = [{ due := s.here.sc.beat + 1, items := [p, q] }] :=
  ⟨ready fun c => { c with sc := { c.sc with flight := [{ due := 1, items := [1, 2] }] } }, 1, 2, by decide +kernel, rfl, rfl⟩

theorem test_hyp_unwritten : ∃ (s : State) (n : BitVec 5), (∀ i ∈ [Instr.dup n, .st 0 n 0 0 false 0, .rcall 0 1 n 1 0 false],
    s.mayIssue i = true ∧ n ∈ namedItems i ∧ ∀ a, i = .tret a → s.here.job.handler = true) ∧ s.here.sc.strand.length ≤ n.toNat ∧
    s.parks .operand :=
  ⟨ready, 5, by simp; decide +kernel, by decide +kernel, parks_of (by decide +kernel)⟩

theorem test_hyp_strand_only : ∃ (i : Instr) (s : State), strandOnly i = true ∧ s.mayIssue i = true ∧
    (∀ n ∈ itemsOf i, n.toNat < s.here.sc.strand.length) :=
  ⟨.sel 0 1 4, ready, rfl, by decide +kernel, by decide +kernel⟩

/-! ## Witnesses: control flow and k-registers -/

/-- Target register 0 set to 0x200 and three items. -/
def branching (f : Core → Core := id) : State :=
  holding [0, 1, 2 ^ 63] fun c => f { c with sc := { c.sc with targets := [some 0x200, none, none, none] } }

/-- A function of a remote call on core 513 whose page is [0x1000, 0x2000). -/
def remoteCore : State :=
  { ready with
    cores := [(513, core fun c => { c with runner := some { call := 0, page := 0x1000, size := 0x1000, started := 0 },
                                           sc := { c.sc with ctr := { walk := 0, addr := 0x1000 } } })]
    cur := 513 }

theorem test_hyp_pbr : ∃ (s : State) (t : BitVec 2) (o : BitVec 22) (r : Runner), s.mayIssue (.pbr t o) = true ∧
    s.here.runner = some r ∧ (let a := s.here.sc.ctr.addr + BitVec.ofInt 64 (4 * o.toInt)
      ¬ (r.page ≤ a.toNat ∧ a.toNat < r.page + r.size)) :=
  ⟨remoteCore, 0, 0x3FFFFF, _, by decide +kernel, rfl, by decide +kernel⟩

theorem test_hyp_pbr_free : ∃ (s : State) (t : BitVec 2) (o : BitVec 22), s.mayIssue (.pbr t o) = true ∧ s.here.runner = none :=
  ⟨ready, 3, 0x200000, by decide +kernel, rfl⟩

theorem test_hyp_branch : ∃ (s : State) (a : Word), (∀ i ∈ [Instr.br 0 0 0, .br 0 0 1, .br 0 1 2, .br 0 2 3, .br 0 1 4], s.mayIssue i = true) ∧ agrees s ∧ targets s 0 a ∧ reads s 0 0 ∧ reads s 1 1 ∧ reads s 2 (2 ^ 63) ∧ routeRoom s ∧
    s.mayIssue (.call 0) = true ∧ s.here.sc.calls.length < 32 :=
  ⟨branching, 0x200, by decide +kernel, rfl, rfl, rfl, rfl, rfl, Or.inr (by decide +kernel), by decide +kernel,
    by decide +kernel⟩

theorem test_hyp_branch_unset : ∃ (s : State) (t : BitVec 2), s.mayIssue (.br t 0 0) = true ∧
    s.here.sc.targets.getD t.toNat none = none ∧ s.parks .operand :=
  ⟨branching, 1, by decide +kernel, rfl, parks_of (by decide +kernel)⟩

theorem test_hyp_call_full : ∃ (s : State) (a : Word), s.mayIssue (.call 0) = true ∧ targets s 0 a ∧
    32 ≤ s.here.sc.calls.length ∧ s.parks .operand :=
  ⟨branching fun c => { c with sc := { c.sc with calls := List.replicate 32 0 } }, 0x200, by decide +kernel, rfl,
    by decide +kernel, parks_of (by decide +kernel)⟩

theorem test_hyp_rets : ∃ (s : State) (a : Word) (rest : List Word), s.mayIssue .rets = true ∧ agrees s ∧ routeRoom s ∧
    s.here.sc.calls = a :: rest :=
  ⟨ready fun c => { c with sc := { c.sc with calls := [0x300] } }, _, _, by decide +kernel, rfl, Or.inr (by decide +kernel), rfl⟩

theorem test_hyp_rets_empty : ∃ s : State, s.mayIssue .rets = true ∧ s.here.sc.calls = [] ∧ s.parks .retmiss :=
  ⟨ready, by decide +kernel, rfl, parks_of (by decide +kernel)⟩


theorem test_hyp_jtb_bound : ∃ (s : State) (t : BitVec 2) (i : BitVec 5) (b : BitVec 10) (a x : Word),
    s.mayIssue (.jtb t i b) = true ∧ targets s t a ∧ reads s i x ∧ b.toNat ≤ x.toNat ∧ s.parks .jtbound :=
  ⟨branching, 0, 1, 1, 0x200, 1, by decide +kernel, rfl, rfl, by decide +kernel, parks_of (by decide +kernel)⟩

/-- A machine whose last scalar word was a transfer. -/
def landed : State := ready fun c => { c with sc := { c.sc with landing := true } }

theorem test_hyp_clasp : landed.mayIssue (.clasp 0xFFFF) = true ∧ landed.scalarTurn = true ∧ landed.here.sc.landing = true ∧
    landed.parks .claspmiss := ⟨by decide +kernel, by decide +kernel, rfl, parks_of (by decide +kernel)⟩

theorem test_hyp_clasp_word : ∃ w : BitVec 32, engineOfWord w = .s ∧ w.toNat / 2 ^ 24 ≠ 0x23 := ⟨0x04100201, rfl, by decide⟩

theorem test_hyp_getk : ∃ s : State, s.mayIssue (.getk 1) = true ∧ s.here.job.pos < s.here.job.count ∧ s.here.job.count ≤ 288 ∧
    1 ≤ s.here.job.stages ∧ s.here.job.stages ≤ 16 ∧ s.here.job.count % s.here.job.stages = 0 :=
  ⟨ready fun c => { c with job := { c.job with pos := 287, count := 288, stages := 16 } }, by decide +kernel, by decide +kernel,
    by decide +kernel, by decide +kernel, by decide +kernel, by decide +kernel⟩

theorem test_hyp_setk : ∃ s : State, agrees s ∧ reads s 0 0x400 ∧ reads s 1 1 ∧
    s.here.hand.pv.length < 32 ∧ s.here.hand.pm.length < 32 ∧ s.here.slow = false ∧
    (([0x010, 0x011, 0x200] : List (BitVec 12)).all fun k => s.mayIssue (.setk 0 k) && kLimits k.toNat 0x400) = true ∧
    (([0x020, 0x100, 0x101, 0x102, 0x103, 0x500, 0x600] : List (BitVec 12)).all fun k =>
      s.mayIssue (.setk 1 k) && kLimits k.toNat 1) = true :=
  ⟨holding [0x400, 1], rfl, rfl, rfl, by decide +kernel, by decide +kernel, rfl, by decide +kernel, by decide +kernel⟩

theorem test_hyp_setk_limit : ∃ (s : State) (a : BitVec 5) (k : BitVec 12) (x : Word), s.mayIssue (.setk a k) = true ∧
    reads s a x ∧ kLimits k.toNat x = false ∧ s.parks .operand :=
  ⟨holding [2], 0, 0x020, 2, by decide +kernel, rfl, by decide +kernel, parks_of (by decide +kernel)⟩

/-! ## Witnesses: memory -/

/-- The first 512 KiB mapped onto themselves for every use, and the crew's scratchpad. -/
def mapped (items : List Word) (f : Core → Core := id) : State :=
  holding items fun c => f { c with
    tlb := [{ ctx := 0, va := 0, size := 2 ^ 19, pa := 0, r := true, w := true, x := true, plain := [] }] }

/-- A page table of context 0 that maps its first 512 KiB onto itself: its root at 0x4000, then 0x8000, its leaf at 0xC000. -/
def paged (s : State) : State :=
  let s := s.setCtx 0 { (s.ctx 0) with valid := true, root := 1 }
  ((s.writeWord 0x4000 (word (2 ^ 63 + 0x8000))).writeWord 0x8000 (word (2 ^ 63 + 0xC000))).writeWord 0xC000
    (word (2 ^ 63 + 2 ^ 62 + 2 ^ 56 + 2 ^ 57 + 2 ^ 58))

/-- An instance of two tasks on cores 0 and 1, the second changed by f, and a machine that runs it in entry 5. -/
def pairInst (f : TaskRec → TaskRec := id) : Inst :=
  { id := 3, j := 0, issued := 0, order := 0, clusters := [0],
    tasks := [{ core := 0, pos := 0, stage := 0, cluster := 0 }, f { core := 1, pos := 1, stage := 0, cluster := 0 }] }
def pair (f : TaskRec → TaskRec := id) (g : Core → Core := id) (s : State := ready) : State :=
  (s.setHere (g { s.here with job := { s.here.job with handle := 5, inst := 3, count := 2 } })).setScore 5
    { seq := 1, st := .running, next := 1, wb := { count := 1, chunk := 1 }, insts := [pairInst f] }

theorem test_hyp_jtb : ∃ (s u : State) (t : BitVec 2) (i : BitVec 5) (b : BitVec 10) (a x : Word) (e : BitVec 32),
    s.mayIssue (.jtb t i b) = true ∧ agrees s ∧ targets s t a ∧ reads s i x ∧ x.toNat < b.toNat ∧
    (fetchText (a + word (4 * x.toNat))).run s = .ok e u ∧ e.toNat < 2 ^ 22 ∧ routeRoom u :=
  ⟨mapped [0, 1] fun c => { c with sc := { c.sc with targets := [some 0x200, none, none, none] } }, _, 0, 1, 2, 0x200, 1, _,
    by decide +kernel, rfl, rfl, rfl, by decide +kernel, rfl, by decide +kernel, Or.inr (by decide +kernel)⟩

theorem test_hyp_load : ∃ (s u : State) (a : BitVec 5) (c : BitVec 4) (sz : BitVec 2) (g q : Bool) (o : BitVec 11) (x : Word)
    (loc : Nat), s.mayIssue (.ld a c sz g q o) = true ∧ s.mayIssue (.ldk a c sz g o) = true ∧ reads s a x ∧
    (effective x o.toInt sz).toNat % 2 ^ sz.toNat = 0 ∧ names s (effective x o.toInt sz) .read loc u :=
  ⟨mapped [0x1000], _, 0, 15, 2, true, true, 0x7FF, 0x1000, _, by decide +kernel, by decide +kernel, rfl, by decide +kernel, rfl⟩

theorem test_hyp_load_align : ∃ (s : State) (a : BitVec 5) (c : BitVec 4) (sz : BitVec 2) (g q : Bool) (o : BitVec 11) (x : Word),
    s.mayIssue (.ld a c sz g q o) = true ∧ reads s a x ∧ (effective x o.toInt sz).toNat % 2 ^ sz.toNat ≠ 0 ∧ s.parks .align :=
  ⟨mapped [0x1001], 0, 0, 3, false, false, 0, 0x1001, by decide +kernel, rfl, by decide +kernel, parks_of (by decide +kernel)⟩

/-- The scalar engine as a load at walk index 0 leaves the cut. -/
def backTo : ScalarBack :=
  { ctr := { walk := 0, addr := 0x100 }, strand := [], flight := [], beat := 0, targets := [none, none, none, none], landing := false }

/-- An awaited load at walk index 0. -/
def awaited (loc : Nat) (k : LoadKind) : PendLoad := { walk := 0, due := 4, cls := 0, loc := loc, kind := k, back := backTo }

/-- A load of two bytes at va, which names loc, that awaits its data, changed by f. -/
def loading (va : Word) (k q : Bool) (loc : Nat) (f : Core → Core := id) : State :=
  mapped [] fun c => f { c with sc := { c.sc with
    loads := [awaited loc (.mem ⟨va, 2, 0⟩ true k q)]
    flight := [{ due := 4, items := [], src := some 0 }] } }

/-- A line that holds grain bytes 0x1000 up. -/
def cached (k : Bool) : Line := { num := 0x40, constant := k, bytes := List.replicate 64 0xA5 }

theorem test_hyp_load_hit : ∃ (s u : State) (p : PendLoad) (va : Word) (size cls loc : Nat) (g k : Bool) (l : Line), picked s p ∧
    s.here.runner = none ∧ p.kind = .mem ⟨va, size, cls⟩ g k false ∧ bit va.toNat 63 = false ∧ names s va .read loc u ∧
    (place loc = .dram ∨ place loc = .kv ∨ place loc = .host) ∧ u.here.sc.line va.toNat k = some l :=
  ⟨loading 0x103E false false 0x103E fun c => { c with sc := { c.sc with dcache := [cached false] } }, _, _, 0x103E, 2, 0, _, true, false, _,
    ⟨by decide +kernel, by decide +kernel, rfl⟩, rfl, rfl, by decide +kernel, rfl, Or.inl rfl, rfl⟩

theorem test_hyp_load_pad : ∃ (s u v : State) (p : PendLoad) (va : Word) (size cls loc : Nat) (g k q : Bool), picked s p ∧
    p.kind = .mem ⟨va, size, cls⟩ g k q ∧ bit va.toNat 63 = true ∧ names (acquired s q) va .read loc u ∧
    goesOn u (loadAccess u p loc size) ∧ passes u loc size v ∧ plain loc ∧ v.verify loc size = none :=
  ⟨loading 0x8000000000000002 false true (padLoc 0 2), _, _, _, _, 2, 0, _, true, false, true,
    ⟨by decide +kernel, by decide +kernel, rfl⟩, rfl, by decide +kernel, run_of (by decide +kernel), Or.inr (by decide +kernel),
    run_of (by decide +kernel), Or.inr (Or.inr (Or.inl (by decide +kernel))), by decide +kernel⟩

/-- A TLB that maps the first 512 KiB onto device registers. -/
def regTlb : List TlbEntry :=
  [{ ctx := 0, va := 0, size := 2 ^ 19, pa := Config.regBase + 0x10000, r := true, w := true, x := false, plain := [] }]

/-- The same load from a device register, mapped at 0. -/
def loadingReg : State := loading 0 false false (Config.regBase + 0x10000) fun c => { c with tlb := regTlb }

theorem test_hyp_load_reg : ∃ (s u : State) (p : PendLoad) (va : Word) (size cls loc : Nat) (g k q : Bool), picked s p ∧
    s.here.runner = none ∧ p.kind = .mem ⟨va, size, cls⟩ g k q ∧ names (acquired s q) va .read loc u ∧ place loc = .reg ∧
    loc % 8 + size ≤ 8 ∧ goesOn u (loadAccess u p loc size) :=
  ⟨loadingReg, _, _, 0, 2, 0, _, true, false, false, ⟨by decide +kernel, by decide +kernel, rfl⟩, rfl, rfl, rfl, rfl,
    by decide +kernel, Or.inr (by decide +kernel)⟩

theorem test_hyp_load_arrive : ∃ (x y : Scalar) (l : PendLoad), x.loads = [l] ∧
    x.flight = [{ due := l.due, items := [], src := some l.walk }] ∧ l.due ≤ x.beat ∧ y.loads = [l] ∧
    y.flight = [{ due := l.due, items := [], src := some l.walk }] ∧ y.beat < l.due :=
  ⟨{ loadingReg.here.sc with beat := 4 }, loadingReg.here.sc, _, rfl, rfl, by decide +kernel, rfl, rfl, by decide +kernel⟩

theorem test_hyp_load_waits : ∃ (s : State) (f : InFlight), s.here.awake = true ∧ s.gatedBelow = false ∧ f ∈ s.here.sc.flight ∧
    f.src ≠ none ∧ f.due ≤ s.here.sc.beat :=
  ⟨loading 0 false false 0 fun c => { c with sc := { c.sc with beat := 4 } }, { due := 4, items := [], src := some 0 },
    by decide +kernel, by decide +kernel, by decide +kernel, by decide +kernel, by decide +kernel⟩

theorem test_hyp_load_line : ∃ (s : State) (l : Line) (va : Nat), l.num = va / 64 ∧ s.here.sc.dcache = [l] :=
  ⟨ready fun c => { c with sc := { c.sc with dcache := [cached true] } }, _, 0x103F, rfl, rfl⟩

theorem test_hyp_load_miss : ∃ (s u v : State) (p : PendLoad) (va : Word) (size cls loc : Nat) (g k q : Bool), picked s p ∧
    s.here.runner = none ∧ p.kind = .mem ⟨va, size, cls⟩ g k q ∧ bit va.toNat 63 = false ∧
    names (acquired s q) va .read loc u ∧ u.here.sc.line va.toNat k = none ∧ (place loc = .dram ∨ place loc = .kv) ∧
    loc % 64 = va.toNat % 64 ∧ va.toNat % 64 + size ≤ 64 ∧ 1 ≤ size ∧
    goesOn u (loadAccess u p (loc / 256 * 256) 256) ∧ passes u (loc / 256 * 256) 256 v ∧
    v.verify (loc / 256 * 256) 256 = none :=
  ⟨loading 0x103E true false 0x103E, _, _, _, 0x103E, 2, 0, _, true, true, false,
    ⟨by decide +kernel, by decide +kernel, rfl⟩, rfl, rfl, by decide +kernel, rfl, rfl, Or.inl rfl, by decide +kernel, by decide +kernel,
    by decide +kernel, Or.inr (by decide +kernel), rfl, by decide +kernel⟩

/-- A store's two items: an address and a value. -/
theorem test_hyp_store : ∃ (s u : State) (a v : BitVec 5) (c : BitVec 4) (sz : BitVec 2) (l : Bool) (o : BitVec 7) (x y : Word)
    (loc : Nat), s.mayIssue (.st a v c sz l o) = true ∧ agrees s ∧ reads s a x ∧ reads s v y ∧ s.here.runner = none ∧
    (effective x o.toInt sz).toNat % 2 ^ sz.toNat = 0 ∧ names s (effective x o.toInt sz) .write loc u ∧ place loc ≠ .peer ∧
    u.logRoom (u.whoOf u.cur) loc (2 ^ sz.toNat) = true :=
  ⟨mapped [0x1000, 0x1FF], _, 0, 1, 0, 3, true, 0x7F, 0x1000, 0x1FF, _, by decide +kernel, rfl, rfl, rfl, rfl, by decide +kernel, rfl,
    by decide +kernel, by decide +kernel⟩

theorem test_hyp_store_register : ∃ (s u : State) (a v : BitVec 5) (c : BitVec 4) (sz : BitVec 2) (l : Bool) (o : BitVec 7)
    (x y : Word) (loc : Nat), s.mayIssue (.st a v c sz l o) = true ∧ agrees s ∧ reads s a x ∧ reads s v y ∧ s.here.runner = none ∧
    (effective x o.toInt sz).toNat % 2 ^ sz.toNat = 0 ∧ names s (effective x o.toInt sz) .write loc u ∧ place loc = .reg ∧
    place loc ≠ .peer ∧ u.logRoom (u.whoOf u.cur) loc (2 ^ sz.toNat) = true :=
  ⟨mapped [0, 7] fun c => { c with tlb := regTlb }, _, 0, 1, 0, 3, true, 0, 0, 7, _, by decide +kernel, rfl, rfl, rfl, rfl,
    by decide +kernel, rfl, rfl, by decide +kernel, by decide +kernel⟩

/-- A machine that maps its lowest pages to the peer pages and has the first of them leading to package 1. -/
def toPeer : State :=
  let s := mapped [0, 7] fun c => { c with
    tlb := [{ ctx := 0, va := 0, size := 2 ^ 19, pa := Config.peerBase, r := true, w := true, x := false, plain := [] }] }
  { s with trust := { s.trust with peers := [(0, { valid := true, pkg := 1 })] } }

/-- What a write to another package that is not refused does. -/
theorem writePeer_run {s : State} (loc : Nat) (bs : List Byte) (m : BitVec 32) (h : Config.peerRefuses s.fresh = false) :
    (writePeer loc bs m).run s = .ok ⟨⟩ { s with
      fresh := s.fresh + 1
      sent := s.sent ++ [.peer (s.peerTarget loc).1 (s.peerTarget loc).2 (.write bs m)] } := by
  simp [writePeer, freshNat, trapIf, send, EStateM.run, bind, EStateM.bind, get, getThe, MonadStateOf.get, EStateM.get, modify,
    modifyGet, MonadStateOf.modifyGet, EStateM.modifyGet, set, MonadStateOf.set, EStateM.set, pure, EStateM.pure, h,
    State.peerTarget]

/-- The hypotheses of the store to another package, which may refuse it (a free value). -/
theorem test_hyp_store_peer (h : Config.peerRefuses toPeer.fresh = false) :
    ∃ u w : State, toPeer.mayIssue (.st 0 1 0 3 true 0) = true ∧ agrees toPeer ∧ reads toPeer 0 0 ∧
    reads toPeer 1 7 ∧ names toPeer 0 .write Config.peerBase u ∧ toPeer.here.runner = none ∧
    clear u 0 Config.peerBase 8 { w := true } (some 3) ∧ place Config.peerBase = .peer ∧
    (writePeer Config.peerBase (leBytes 8 7) 0).run u = .ok ⟨⟩ w := by
  refine ⟨toPeer, _, by decide +kernel, rfl, rfl, rfl, rfl, rfl, Or.inr (by decide +kernel), rfl, writePeer_run _ _ _ h⟩

theorem test_hyp_store_remote : ∃ (s u t : State) (a v : BitVec 5) (c : BitVec 4) (sz : BitVec 2) (l : Bool) (o : BitVec 7)
    (x y : Word) (loc : Nat), s.mayIssue (.st a v c sz l o) = true ∧ agrees s ∧ reads s a x ∧ reads s v y ∧
    (effective x o.toInt sz).toNat % 2 ^ sz.toNat = 0 ∧ names s (effective x o.toInt sz) .write loc u ∧
    s.here.runner.isSome = true ∧ plain loc ∧ passes u loc (2 ^ sz.toNat) t ∧ t.partBad loc (2 ^ sz.toNat) = none :=
  ⟨{ ready with
      cores := [(513, core fun c => { c with
        runner := some { call := 0, page := 0x1000, size := 0x1000, started := 0 }
        sc := { c.sc with ctr := { walk := 0, addr := 0x1000 }, strand := [2 ^ 63 + 8, 7] } })]
      cur := 513 }, _, _, 0, 1, 0, 0, false, 0, 2 ^ 63 + 8, 7, _, by decide +kernel, rfl, rfl, rfl, by decide +kernel,
    run_of (by decide +kernel), rfl, Or.inr (Or.inr (Or.inl (by decide +kernel))), run_of (by decide +kernel),
    by decide +kernel⟩

theorem test_hyp_store_align : ∃ (s : State) (a v : BitVec 5) (c : BitVec 4) (sz : BitVec 2) (l : Bool) (o : BitVec 7) (x y : Word),
    s.mayIssue (.st a v c sz l o) = true ∧ reads s a x ∧ reads s v y ∧ (effective x o.toInt sz).toNat % 2 ^ sz.toNat ≠ 0 ∧
    s.parks .align :=
  ⟨mapped [0x1001, 0], 0, 1, 0, 1, false, 0, 0x1001, 0, by decide +kernel, rfl, rfl, by decide +kernel, parks_of (by decide +kernel)⟩

/-- An access of walk index 0 held in the request path. -/
def heldAt (loc len : Nat) (act : HeldAct) (mode : Nat) : PathItem :=
  { acc := { walk := 0, home := some (State.reset.home loc), loc := loc, len := len }, who := ⟨mode, 0, 1⟩, act := act }

/-- One store of two bytes at 0x10FE held in the request path, in a record mode. -/
def storing (mode : Nat) : State :=
  mapped [] fun c => { c with req := { c.req with path := [heldAt 0x10FE 2 (.store [1, 2] none) mode] } }

theorem test_hyp_held_store : ∃ (s : State) (n : Nat) (p : PathItem) (bs : List Byte) (m : Option (BitVec 32 × Bool)),
    first s n p ∧ p.act = .store bs m ∧ p.acc.len = bs.length ∧ p.who.mode = 0 ∧ plain p.acc.loc :=
  ⟨storing 0, 0, _, _, _, ⟨rfl, by decide +kernel, by decide +kernel⟩, rfl, rfl, rfl, Or.inl rfl⟩

theorem test_hyp_held_register : ∃ (s : State) (n : Nat) (p : PathItem) (bs : List Byte) (m : Option (BitVec 32 × Bool)),
    first s n p ∧ p.act = .store bs m ∧ p.acc.len = bs.length ∧ p.who.mode = 0 ∧ place p.acc.loc = .reg :=
  ⟨ready fun c => { c with req := { c.req with path := [heldAt (Config.regBase + 0x10000) 8 (.store (leBytes 8 1) none) 0] } },
    0, _, _, _, ⟨rfl, by decide +kernel, by decide +kernel⟩, rfl, rfl, rfl, rfl⟩

theorem test_hyp_gated_store : ∃ (s u : State) (n : Nat) (p : PathItem) (bs : List Byte) (m : Option (BitVec 32 × Bool)),
    first s n p ∧ p.act = .store bs m ∧ p.acc.len = bs.length ∧ 1 ≤ bs.length ∧ p.who.mode = 2 ∧ plain p.acc.loc ∧
    s.ordered p.who p.acc.loc bs.length = some u ∧ u.here = s.here ∧ u.cur = s.cur :=
  ⟨{ storing 2 with records := { released := true } }, _, 0, _, _, _, ⟨rfl, by decide +kernel, by decide +kernel⟩, rfl, rfl,
    by decide, rfl, Or.inl rfl, rfl, rfl, rfl⟩

theorem test_hyp_gate_waits : ∃ (s : State) (n : Nat) (p : PathItem) (bs : List Byte) (m : Option (BitVec 32 × Bool)),
    first s n p ∧ p.act = .store bs m ∧ p.acc.len = bs.length ∧ 1 ≤ bs.length ∧ p.who.mode = 2 ∧ plain p.acc.loc ∧
    s.ordered p.who p.acc.loc bs.length = none ∧ s.atGate s.cur p.acc.loc = true :=
  ⟨(storing 2).waitGate 0 0x10FE, 0, _, _, _, ⟨rfl, by decide +kernel, by decide +kernel⟩, rfl, rfl,
    by decide, rfl, Or.inl rfl, by decide +kernel, by decide +kernel⟩

/-- Three items, the first an aligned address. -/
def atomic (f : Core → Core := id) : State := mapped [0x1000, 3, 4] f

theorem test_hyp_atomic : ∃ (s u v : State) (k : BitVec 4) (o : BitVec 2) (sc : BitVec 3) (x y z : Word) (loc : Nat),
    (∀ op ∈ [AtomOp.xch, .cas, .add, .and, .or, .xor, .min, .max, .minn, .maxn], s.mayIssue (atomWord op 0 1 2 k o sc) = true) ∧
    agrees s ∧ reads s 0 x ∧ reads s 1 y ∧ reads s 2 z ∧ x.toNat % 8 = 0 ∧ s.here.sc.convOn = false ∧ names s x .both loc u ∧
    plain loc ∧ clear u k.toNat loc 8 { r := true, w := true } (relOf o sc) ∧ passes u loc 8 v ∧ v.verify loc 8 = none :=
  ⟨atomic, _, _, 15, 3, 4, _, _, _, _, by decide +kernel, rfl, rfl, rfl, rfl, by decide +kernel, rfl, rfl, Or.inl rfl,
    Or.inr (by decide +kernel), rfl, by decide +kernel⟩

theorem test_hyp_convoy_atomic : ∃ (s u : State) (k : BitVec 4) (o : BitVec 2) (sc : BitVec 3) (x y z : Word) (loc : Nat),
    s.mayIssue (atomWord .cas 0 1 2 k o sc) = true ∧ s.mayIssue (atomWord .add 0 1 2 k o sc) = true ∧ reads s 0 x ∧ reads s 1 y ∧
    reads s 2 z ∧ x.toNat % 8 = 0 ∧ s.here.sc.convOn = true ∧ s.here.runner = none ∧ names s x .both loc u ∧ plain loc :=
  ⟨atomic fun c => { c with sc := { c.sc with convOn := true, win := 1 } }, _, 0, 1, 1, _, _, _, _, by decide +kernel,
    by decide +kernel, rfl, rfl, rfl, by decide +kernel, rfl, rfl, rfl, Or.inl rfl⟩

theorem test_hyp_convoy_turn : ∃ (s u v : State) (p : ConvoyAtom) (loc : Nat), s.here.awake = true ∧ s.gatedBelow = false ∧
    agrees s ∧ s.here.sc.arrivedBy (s.here.sc.beat + 1) = true ∧ s.here.sc.pend = some p ∧ s.convoyTurn s.cur = true ∧
    s.here.convoyBehind s.here.sc.ctr.walk = false ∧ names s p.ref.va .both loc u ∧ plain loc ∧
    clear u p.ref.cls loc 8 { r := true, w := true } p.rel ∧ passes u loc 8 v ∧ v.verify loc 8 = none :=
  ⟨atomic fun c => { c with sc := { c.sc with
      convOn := true
      win := 1
      pend := some { window := 1, num := 0, op := .add, ref := ⟨0x1000, 8, 0⟩, b := 3, c := 0, acq := false, rel := none } } },
    _, _, _, _, by decide +kernel, by decide +kernel, rfl, by decide +kernel, rfl, by decide +kernel, by decide +kernel, rfl,
    Or.inl rfl, Or.inr (by decide +kernel), rfl, by decide +kernel⟩

theorem test_hyp_atomic_align : ∃ (s : State) (x y z : Word), s.mayIssue (atomWord .cas 0 1 2 0 0 0) = true ∧ reads s 0 x ∧
    reads s 1 y ∧ reads s 2 z ∧ x.toNat % 8 ≠ 0 ∧ s.parks .align :=
  ⟨mapped [0x1004, 3, 4], _, _, _, by decide +kernel, rfl, rfl, rfl, by decide +kernel, parks_of (by decide +kernel)⟩

theorem test_hyp_fence : ∃ (s : State) (x : Word), s.mayIssue (.fence 0x3F 0x3F 4 0) = true ∧ s.mayIssue (.fencea 0x3F 0x3F 1) = true ∧
    reads s 0 x ∧ x ≠ 0 ∧ x.toNat < 2 ^ 16 ∧
    s.here.wordsAhead s.cur ++ s.here.copiesAhead ++ s.here.req.path.map (·.acc) = [] :=
  ⟨mapped [0xFFFF], _, by decide +kernel, by decide +kernel, rfl, by decide +kernel, by decide +kernel, by decide +kernel⟩

/-- A vector engine's access, held in the path, that a fence of the scalar engine covers. -/
def behindPort : State :=
  mapped [0xFFFF] fun c => { c with
    sc := { c.sc with ctr := { c.sc.ctr with walk := 1 } }
    req := { c.req with path := [{ heldAt 0x1000 2 (.store [1, 2] none) 0 with
      acc := { walk := 0, eng := .v, kinds := { cw := true }, home := some (State.reset.home 0x1000), loc := 0x1000, len := 2 } }] } }

theorem test_hyp_fence_waits : ∃ (s : State) (x : Word) (a : Acc), s.mayIssue (.fence 0x3F 0x3F 4 0) = true ∧
    s.mayIssue (.fencea 0x3F 0x3F 4) = true ∧ reads s 0 x ∧ x ≠ 0 ∧ x.toNat < 2 ^ 16 ∧
    a ∈ s.here.wordsAhead s.cur ++ s.here.copiesAhead ++ s.here.req.path.map (·.acc) ∧ a.walk < s.here.sc.ctr.walk ∧ a.eng ≠ .s ∧
    a.kinds.cw = true ∧ (x.setWidth 16).getLsbD a.cls = true ∧
    (a.home.elim true fun h => reaches 4 s.cur h) = true :=
  ⟨behindPort, _, { walk := 0, eng := .v, kinds := { cw := true }, home := some (.channel 0), loc := 0x1000, len := 2 }, by decide +kernel, by decide +kernel, rfl,
    by decide +kernel, by decide +kernel, by decide +kernel, by decide +kernel, by decide +kernel, rfl, by decide +kernel,
    by decide +kernel⟩

theorem test_hyp_fence_mask : ∃ (s : State) (x y : Word), s.mayIssue (.fence 0x20 0x20 0 0) = true ∧
    s.mayIssue (.fence 0x20 0x20 0 1) = true ∧ reads s 0 x ∧ x = 0 ∧ reads s 1 y ∧ 2 ^ 16 ≤ y.toNat ∧ s.parks .operand :=
  ⟨holding [0, 0x10000], _, _, by decide +kernel, by decide +kernel, rfl, rfl, rfl, by decide +kernel, parks_of (by decide +kernel)⟩

theorem test_hyp_rinv : ∃ (s : State) (x y : Word), s.mayIssue (.rinv 0 1 true) = true ∧ reads s 0 x ∧ reads s 1 y ∧
    s.here.sc.dcache ≠ [] :=
  ⟨holding [0x103F, 1] fun c => { c with sc := { c.sc with dcache := [cached true] } }, _, _, by decide +kernel, rfl, rfl,
    by decide +kernel⟩

/-- A worker whose crew's tag table holds tag 5 in slot 0. -/
def tagged (items : List Word) : State := (holding items).setCrew 0 { tags := [(0, 5)] }

theorem test_hyp_tags : ∃ (s : State) (c : BitVec 4) (x y : Word), s.mayIssue (.tlookFind 0 c) = true ∧
    s.mayIssue (.tlookClaim 0 c) = true ∧ s.mayIssue (.tlookFree c) = true ∧ s.mayIssue (.tsetk 1 0 c) = true ∧
    s.mayIssue (.tdrop 1 c) = true ∧ agrees s ∧ s.logRoom (s.whoOf s.cur) (padLoc (clusterOf s.cur) 0) 1 = true ∧
    reads s 0 x ∧ x.toNat < 2 ^ 52 ∧ reads s 1 y ∧ y.toNat < 1024 :=
  ⟨tagged [0x5FFFF, 1023], 0, _, _, by decide +kernel, by decide +kernel, by decide +kernel, by decide +kernel, by decide +kernel,
    rfl, by decide +kernel, rfl, by decide +kernel, rfl, by decide +kernel⟩

/-- A tag lookup that awaits its answer, on a crew with these tags. -/
def looking (k : LoadKind) (tags : List (Nat × BitVec 36)) : State :=
  (ready fun c => { c with sc := { c.sc with
    loads := [awaited (padLoc 0 0) k]
    flight := [{ due := 4, items := [], src := some 0 }] } }).setCrew 0 { tags := tags }

theorem test_hyp_tag_answer : ∀ k ∈ [LoadKind.tagFind 5, .tagClaim 5, .tagFree], ∃ (s u : State) (l : PendLoad),
    s.pick = 0 ∧ picked s l ∧ l.kind = k ∧ goesOn s (l.acc (s.home l.loc)) ∧ passes s l.loc 1 u ∧
    (u.crew (clusterOf u.cur)).tags.filter (fun p => p.2 == 5) = [(0, 5)] := by
  simp only [List.mem_cons, List.not_mem_nil, or_false, forall_eq_or_imp, forall_eq]
  refine ⟨⟨looking (.tagFind 5) [(0, 5)], ?_⟩, ⟨looking (.tagClaim 5) [(0, 5)], ?_⟩, ⟨looking .tagFree [(0, 5)], ?_⟩⟩ <;>
    exact ⟨_, _, rfl, ⟨by decide +kernel, by decide +kernel, rfl⟩, rfl, Or.inr (by decide +kernel), run_of (by decide +kernel),
      by decide +kernel⟩

theorem test_hyp_tag_write : ∀ k ∈ [HeldAct.tagSet 1023 5, .tagDrop 0], ∃ (s : State) (n : Nat) (p : PathItem), first s n p ∧
    p.who.mode = 0 ∧ p.act = k := by
  simp only [List.mem_cons, List.not_mem_nil, or_false, forall_eq_or_imp, forall_eq]
  refine ⟨⟨ready fun c => { c with req := { c.req with path := [heldAt (padLoc 0 0) 0 (.tagSet 1023 5) 0] } }, 0, ?_⟩,
    ⟨ready fun c => { c with req := { c.req with path := [heldAt (padLoc 0 0) 0 (.tagDrop 0) 0] } }, 0, ?_⟩⟩ <;>
    exact ⟨_, ⟨rfl, by decide +kernel, by decide +kernel⟩, rfl, rfl⟩

theorem test_hyp_tag_limits : ∃ (s : State) (x y : Word), s.mayIssue (.tlookFind 0 0) = true ∧ s.mayIssue (.tdrop 1 0) = true ∧
    reads s 0 x ∧ 2 ^ 52 ≤ x.toNat ∧ reads s 1 y ∧ 1024 ≤ y.toNat ∧ s.parks .operand :=
  ⟨tagged [2 ^ 52, 1024], _, _, by decide +kernel, by decide +kernel, rfl, by decide +kernel, rfl, by decide +kernel,
    parks_of (by decide +kernel)⟩

/-! ## Witnesses: seals, queues, hand-offs -/

/-- Every FIFO holds four seals. -/
def sealed : State := ready fun c => [(Engine.s, Engine.v), (.v, .s), (.v, .m), (.m, .v), (.m, .x), (.x, .m), (.x, .s), (.s, .x)].foldl
  (fun c p => c.setSeals p.1 p.2 4) c

theorem test_hyp_seals : ∃ s : State, agrees s ∧ s.mayIssue (.give 1 11) = true ∧ ¬ tooFull s .s (engineOf 1) 11 ∧
    s.mayIssue (.take 1 4) = true ∧ 4 ≤ s.here.sealCount (engineOf 1) .s ∧
    s.engineMayIssue .v (.vGive 2 11) = true ∧ ¬ tooFull s .v (engineOf 2) 11 ∧
    s.engineMayIssue .v (.vTake 2 4) = true ∧ 4 ≤ s.here.sealCount (engineOf 2) .v ∧
    matrixTurn s (.mGive 3 11) ∧ ¬ tooFull s .m (engineOf 3) 11 ∧
    matrixTurn s (.mTake 3 4) ∧ 4 ≤ s.here.sealCount (engineOf 3) .m ∧
    copyTurn s (.xGive 0 11) ∧ ¬ tooFull s .x (engineOf 0) 11 ∧
    copyTurn s (.xTake 0 4) ∧ 4 ≤ s.here.sealCount (engineOf 0) .x := by
  refine ⟨sealed, rfl, ?_, ?_, ?_, ?_, ?_, ?_, ?_, ?_, ⟨?_, rfl, ?_⟩, ?_, ⟨?_, rfl, ?_⟩, ?_, ⟨?_, rfl, ?_⟩, ?_, ⟨?_, rfl, ?_⟩, ?_⟩ <;>
    first | decide +kernel | (unfold tooFull; decide +kernel)

theorem test_hyp_seals_wait : ∃ s : State, agrees s ∧ s.mayIssue (.give 1 12) = true ∧ tooFull s .s (engineOf 1) 12 ∧
    s.mayIssue (.take 1 5) = true ∧ s.here.sealCount (engineOf 1) .s < 5 ∧
    s.engineMayIssue .v (.vGive 2 12) = true ∧ tooFull s .v (engineOf 2) 12 ∧
    s.engineMayIssue .v (.vTake 2 5) = true ∧ s.here.sealCount (engineOf 2) .v < 5 ∧
    matrixTurn s (.mGive 3 12) ∧ tooFull s .m (engineOf 3) 12 ∧
    matrixTurn s (.mTake 3 5) ∧ s.here.sealCount (engineOf 3) .m < 5 ∧
    copyTurn s (.xGive 0 12) ∧ tooFull s .x (engineOf 0) 12 ∧
    copyTurn s (.xTake 0 5) ∧ s.here.sealCount (engineOf 0) .x < 5 := by
  refine ⟨sealed, rfl, ?_, ?_, ?_, ?_, ?_, ?_, ?_, ?_, ⟨?_, rfl, ?_⟩, ?_, ⟨?_, rfl, ?_⟩, ?_, ⟨?_, rfl, ?_⟩, ?_, ⟨?_, rfl, ?_⟩, ?_⟩ <;>
    first | decide +kernel | (unfold tooFull; decide +kernel)

/-- An access of the copy engine's last word, still in the request path. -/
def copyHeld : PathItem :=
  { heldAt 0x1000 2 (.store [1, 2] none) 0 with acc := { walk := 0, eng := .x, loc := 0x1000, len := 2, run := 1 } }

theorem test_hyp_give_behind : ∃ s : State, s.engineMayIssue .x (.xGive 1 15) = true ∧ copiesLeft s ∧
    (∃ q ∈ s.here.req.path.take 1, q.acc.eng = .x) ∧
    s.here.req.path[1]? = some { acc := { walk := 0, eng := .x }, act := .seals .s 3 } :=
  ⟨ready fun c => { c with req := { c.req with path := [copyHeld, { acc := { walk := 0, eng := .x }, act := .seals .s 3 }] } },
    by decide +kernel, Or.inr ⟨copyHeld, by decide +kernel, by decide +kernel, by decide +kernel⟩,
    ⟨copyHeld, by decide +kernel, rfl⟩, rfl⟩

theorem test_hyp_give_performs : ∃ (s : State) (p : PathItem), s.here.req.path[0]? = some p ∧ p.act = .seals .v 15 ∧
    p.who.mode ≠ 2 ∧ (∀ q ∈ s.here.req.path.take 0, q.acc.eng ≠ p.acc.eng) ∧ s.here.sealCount p.acc.eng .v + 15 ≤ 15 :=
  ⟨ready fun c => { c with req := { c.req with path := [{ acc := { walk := 0 }, act := .seals .v 15 }] } }, _, rfl, rfl,
    by decide +kernel, by decide +kernel, by decide +kernel⟩

/-- A queue of two slots of 256 bytes with its control block at 0x100 and its ring at 0x4000: 1 produced, 0 consumed; handle 3
names it. -/
def queue : Handle := { gen := 0, ctl := 0x100, geom := 0x0000001000004000 }
def queued (items : List Word) (p c : Nat) (f : Core → Core := id) : State :=
  (holding items fun k => f { k with
    handles := k.handles.set 3 (some queue)
    cpy := { k.cpy with handles := k.cpy.handles.set 3 (some queue) } }).write (padLoc 0 0x100)
    (leBytes 8 p ++ leBytes 8 c ++ leBytes 8 queue.geom.toNat)

theorem test_hyp_qset : ∃ (s u : State) (ctl g : Word), s.mayIssue (.qset 0 1 3) = true ∧ agrees s ∧ reads s 0 ctl ∧ reads s 1 g ∧
    geomOk ctl g = true ∧ s.here.hand.pv.length < 32 ∧ s.here.hand.px.length < 32 ∧
    clear s 0 (padLoc (clusterOf s.cur) (ctl.toNat % 2 ^ 26)) 64 { w := true } none ∧
    passes s (padLoc (clusterOf s.cur) (ctl.toNat % 2 ^ 26)) 64 u ∧ u.here = s.here ∧ u.cur = s.cur ∧ 2 ^ 63 ≤ g.toNat ∧
    u.partBad (padLoc (clusterOf s.cur) (ctl.toNat % 2 ^ 26)) 64 = none :=
  ⟨holding [2 ^ 63 + 0x100, 2 ^ 63 + 0x0000001000004000], _, _, _, by decide +kernel, rfl, rfl, rfl, by decide +kernel, by decide +kernel,
    by decide +kernel, Or.inr (by decide +kernel), run_of (by decide +kernel), by decide +kernel, by decide +kernel, by decide +kernel,
    by decide +kernel⟩

theorem test_hyp_qset_found : ∃ (s u : State) (ctl g : Word), s.mayIssue (.qset 0 1 3) = true ∧ agrees s ∧ reads s 0 ctl ∧
    reads s 1 g ∧ geomOk ctl g = true ∧ s.here.hand.pv.length < 32 ∧ s.here.hand.px.length < 32 ∧
    clear s 0 (padLoc (clusterOf s.cur) (ctl.toNat % 2 ^ 26)) 64 { r := true } none ∧
    passes s (padLoc (clusterOf s.cur) (ctl.toNat % 2 ^ 26)) 64 u ∧ u.here = s.here ∧ u.cur = s.cur ∧ g.toNat < 2 ^ 63 ∧
    u.verify (padLoc (clusterOf s.cur) (ctl.toNat % 2 ^ 26) + 16) 8 = none ∧
    u.dword (padLoc (clusterOf s.cur) (ctl.toNat % 2 ^ 26) + 16) = g ∧ g ≠ 0 :=
  ⟨queued [2 ^ 63 + 0x100, 0x0000001000004000] 1 0, _, _, _, by decide +kernel, rfl, rfl, rfl, by decide +kernel, by decide +kernel,
    by decide +kernel, Or.inr (by decide +kernel), run_of (by decide +kernel), by decide +kernel, by decide +kernel, by decide +kernel,
    by decide +kernel, by decide +kernel, by decide +kernel⟩

theorem test_hyp_qset_other : ∃ (s u : State) (ctl g : Word), s.mayIssue (.qset 0 1 3) = true ∧ agrees s ∧ reads s 0 ctl ∧
    reads s 1 g ∧ geomOk ctl g = true ∧ g.toNat < 2 ^ 63 ∧
    clear s 0 (padLoc (clusterOf s.cur) (ctl.toNat % 2 ^ 26)) 64 { r := true } none ∧
    passes s (padLoc (clusterOf s.cur) (ctl.toNat % 2 ^ 26)) 64 u ∧ u.here = s.here ∧
    u.verify (padLoc (clusterOf s.cur) (ctl.toNat % 2 ^ 26) + 16) 8 = none ∧
    u.dword (padLoc (clusterOf s.cur) (ctl.toNat % 2 ^ 26) + 16) ≠ g ∧ s.parks .qfault :=
  ⟨queued [2 ^ 63 + 0x100, 0x0000001000008000] 1 0, _, _, _, by decide +kernel, rfl, rfl, rfl, by decide +kernel, by decide +kernel,
    Or.inr (by decide +kernel), run_of (by decide +kernel), by decide +kernel, by decide +kernel, by decide +kernel,
    parks_of (by decide +kernel)⟩

theorem test_hyp_qset_refused : ∃ (s : State) (ctl g : Word), s.mayIssue (.qset 0 1 3) = true ∧ reads s 0 ctl ∧ reads s 1 g ∧
    geomOk ctl g = false ∧ s.parks .operand :=
  ⟨holding [0x100, 0], _, _, by decide +kernel, rfl, rfl, by decide +kernel, parks_of (by decide +kernel)⟩

theorem unstreamed_of {s : State} (q : Handle) (prod : Bool) (h : clusterOf s.cur ≠ 8) : unstreamed s q prod := fun x => h x.2.1

theorem test_hyp_qadv : ∃ (s s1 : State) (x : Word), s.mayIssue (.qadv 0 true 3) = true ∧ agrees s ∧
    reads s 0 x ∧ s.here.handles.getD 3 none = some queue ∧ x ≠ 0 ∧ x.toNat ≤ 4096 ∧
    owns s .s 3 queue true s.here.sc.ctr.walk s1 :=
  ⟨queued [1] 1 0, _, _, by decide +kernel, rfl, rfl, by decide +kernel, by decide +kernel, by decide +kernel,
    run_of (by decide +kernel)⟩

/-- An advance of handle 3 by n that awaits its turn. -/
def advancing (prod : Bool) (n : Nat) : State :=
  queued [] 1 0 fun k => { k with sc := { k.sc with loads := [awaited (padLoc 0 0x100) (.advance 3 queue prod n)] } }

theorem test_hyp_qadv_applied : ∃ (s u : State) (l : PendLoad) (n p c : Nat), picked s l ∧ s.pick = 0 ∧
    l.kind = .advance 3 queue true n ∧ s.here.runner = none ∧ s.held s.cur (l.acc (s.home l.loc)) = false ∧ passes s l.loc 1 u ∧
    unstreamed u queue true ∧ counts u queue p c ∧ fits queue true p c (u.here.claims 3 queue.gen true) n :=
  ⟨advancing true 1, _, _, 1, 1, 0, ⟨by decide +kernel, by decide +kernel, rfl⟩, rfl, rfl, by decide +kernel,
    by decide +kernel, run_of (by decide +kernel), unstreamed_of _ _ (by decide +kernel),
    ⟨by decide +kernel, by decide +kernel, by decide +kernel, by decide +kernel, by decide +kernel⟩, by show _ ≤ _; decide +kernel⟩

theorem test_hyp_qadv_many : ∃ (s u : State) (l : PendLoad) (n p c : Nat), picked s l ∧ s.pick = 0 ∧
    l.kind = .advance 3 queue false n ∧ s.here.runner = none ∧ s.held s.cur (l.acc (s.home l.loc)) = false ∧ passes s l.loc 1 u ∧
    unstreamed u queue false ∧ counts u queue p c ∧ ¬ fits queue false p c (u.here.claims 3 queue.gen false) n :=
  ⟨advancing false 2, _, _, 2, 1, 0, ⟨by decide +kernel, by decide +kernel, rfl⟩, rfl, rfl, by decide +kernel,
    by decide +kernel, run_of (by decide +kernel), unstreamed_of _ _ (by decide +kernel),
    ⟨by decide +kernel, by decide +kernel, by decide +kernel, by decide +kernel, by decide +kernel⟩, by show ¬ _ ≤ _; decide +kernel⟩

theorem test_hyp_qadv_zero : ∃ (s : State) (q : Handle), s.mayIssue (.qadv 0 true 3) = true ∧ agrees s ∧ reads s 0 0 ∧
    s.here.handles.getD 3 none = some q := ⟨queued [0] 1 0, _, by decide +kernel, rfl, rfl, rfl⟩

theorem copiesGone_of {s : State} (h : (s.here.cpy.runs.isEmpty && s.here.req.path.all fun p => p.acc.run == 0) = true) :
    copiesGone s := by
  simpa [copiesGone] using h

theorem test_hyp_xqadv : ∀ n ∈ [1, 2], ∃ (s s1 u : State) (p c : Nat), copyTurn s (.xQadv 3 false n) ∧
    s.here.cpy.handles.getD 3 none = some queue ∧ owns s .x 3 queue false (s.here.at_ .x).1 s1 ∧
    s1.held s1.cur {
      walk := (s.here.at_ .x).1, eng := .x, cls := 0, loc := padLoc (clusterOf s.cur) queue.ctl, len := 64, kinds := { cw := true }
      home := some (s1.home (padLoc (clusterOf s.cur) queue.ctl)) } = false ∧
    passes s1 (padLoc (clusterOf s.cur) queue.ctl) 1 u ∧ unstreamed u queue false ∧ counts u queue p c ∧
    (fits queue false p c (u.here.claims 3 queue.gen false) n.toNat ↔ n = 1) ∧ s.parks .qfault := by
  simp only [List.mem_cons, List.not_mem_nil, or_false, forall_eq_or_imp, forall_eq]
  refine ⟨?_, ?_⟩ <;>
    exact ⟨queued [] 1 0 fun k => { k with sides := [(3, { gen := 0, prod := false, owner := .x, claims := 0 })] }, _, _, 1, 0,
      ⟨by decide +kernel, copiesGone_of (by decide +kernel)⟩, by decide +kernel, run_of (by decide +kernel), by decide +kernel,
      run_of (by decide +kernel), unstreamed_of _ _ (by decide +kernel),
      ⟨by decide +kernel, by decide +kernel, by decide +kernel, by decide +kernel, by decide +kernel⟩,
      by show _ ≤ _ ↔ _; decide +kernel, parks_of (by decide +kernel)⟩

theorem test_hyp_queue_reads : ∃ (s u : State) (x y : Word) (p c : Nat), s.mayIssue (.qwait 0 true 3) = true ∧
    s.mayIssue (.qwait 1 true 3) = true ∧ s.mayIssue (.qinfo true 3) = true ∧ reads s 0 x ∧ reads s 1 y ∧
    s.here.handles.getD 3 none = some queue ∧ x ≠ 0 ∧ x.toNat ≤ geomSlots queue.geom ∧ y ≠ 0 ∧ y.toNat ≤ geomSlots queue.geom ∧
    clear s 0 (padLoc (clusterOf s.cur) queue.ctl) 64 { r := true } none ∧ passes s (padLoc (clusterOf s.cur) queue.ctl) 1 u ∧
    counts u queue p c ∧ p + s.here.claims 3 queue.gen true + x.toNat ≤ c + geomSlots queue.geom ∧
    ¬ p + s.here.claims 3 queue.gen true + y.toNat ≤ c + geomSlots queue.geom :=
  ⟨queued [1, 2] 1 0, _, _, _, 1, 0, by decide +kernel, by decide +kernel, by decide +kernel, rfl, rfl, by decide +kernel,
    by decide +kernel, by decide +kernel, by decide +kernel, by decide +kernel, Or.inr (by decide +kernel), run_of (by decide +kernel),
    ⟨by decide +kernel, by decide +kernel, by decide +kernel, by decide +kernel, by decide +kernel⟩, by decide +kernel,
    by decide +kernel⟩

theorem test_hyp_qinfo_unset : ∃ s : State, s.mayIssue (.qinfo true 15) = true ∧ s.here.handles.getD 15 none = none ∧
    s.parks .qfault := ⟨ready, by decide +kernel, by decide +kernel, parks_of (by decide +kernel)⟩

theorem test_hyp_hand_offs : ∃ (s : State) (x : Word), agrees s ∧ reads s 0 x ∧ s.here.hand.pv = [] ∧ s.here.hand.pm = [] ∧
    s.here.hand.px = [] ∧ s.here.hand.fmtq = [] ∧ s.here.hand.stampq = [] ∧
    ∀ i ∈ [Instr.prmw 0 0 6, .prmw 0 7 0, .prmw 0 8 0, .prmw 0 15 6, .prmw 0 16 0, .prmw 0 23 6, .prmw 0 24 0, .prmw 0 39 3,
      .prmw 0 40 3, .fmtq 0, .stmpq 0], s.mayIssue i = true :=
  ⟨ready, 5, rfl, rfl, rfl, rfl, rfl, rfl, rfl, by decide +kernel⟩

theorem test_hyp_hand_offs_full : ∃ (s : State) (x : Word), agrees s ∧ reads s 0 x ∧ s.mayIssue (.prmw 0 0 6) = true ∧
    32 ≤ (s.here.params .v).length ∧ s.mayIssue (.fmtq 0) = true ∧ 64 ≤ s.here.hand.fmtq.length ∧ s.mayIssue (.stmpq 0) = true ∧
    64 ≤ s.here.hand.stampq.length :=
  ⟨ready fun c => { c with hand := { c.hand with
      pv := List.replicate 32 ⟨0, .portWord 0 0⟩, fmtq := List.replicate 64 ⟨0, 0⟩, stampq := List.replicate 64 ⟨0, 0⟩ } }, 5, rfl, rfl,
    by decide +kernel, by decide +kernel, by decide +kernel, by decide +kernel, by decide +kernel, by decide +kernel⟩

/-! ## Witnesses: tasks -/

theorem performed_of {s : State} {m : Nat} (h : (s.pending s.cur).isEmpty = true) : performed s m := by
  intro a ha
  rw [List.isEmpty_iff.mp h] at ha
  cases ha

theorem test_hyp_wait_tick : ∃ (s : State) (x y : Word), s.mayIssue (.waitTick 0) = true ∧ s.mayIssue (.waitTick 1) = true ∧
    reads s 0 x ∧ x.toNat ≤ s.stamp ∧ reads s 1 y ∧ s.stamp < y.toNat :=
  ⟨holding [0, 1], _, _, by decide +kernel, by decide +kernel, rfl, by decide +kernel, rfl, by decide +kernel⟩

/-- Serai 9 of context 0 with its ring of two slots at 0x2000, PROD and CONS as given. -/
def seraied (items : List Word) (p c : Nat) (f : Core → Core := id) : State :=
  ((mapped items f).setSerai 9 { ctx := some 0, ring := 0x2000, slots := 1, hostOk := true }).write 0x2000 (leBytes 8 p ++ leBytes 8 c)

theorem test_hyp_wait_serai : ∀ p ∈ [1, 0], ∃ (s u v : State) (n : Word) (loc : Nat), s.mayIssue (.waitSerai 0) = true ∧ reads s 0 n ∧
    n.toNat < 4096 ∧ (s.serai n.toNat).ctx = some s.here.job.ctx ∧ (s.serai n.toNat).bound = none ∧
    names s (s.serai n.toNat).ring .read loc u ∧ clear u 0 loc 16 { r := true } none ∧ passes u loc 16 v ∧ plain loc ∧
    v.verify loc 16 = none ∧ ((v.dword (loc + 8)).toNat < (v.dword loc).toNat ↔ p = 1) := by
  have h : ∀ p, p = 1 ∨ p = 0 → ∃ (s u v : State) (n : Word) (loc : Nat), s.mayIssue (.waitSerai 0) = true ∧ reads s 0 n ∧
    n.toNat < 4096 ∧ (s.serai n.toNat).ctx = some s.here.job.ctx ∧ (s.serai n.toNat).bound = none ∧
    names s (s.serai n.toNat).ring .read loc u ∧ clear u 0 loc 16 { r := true } none ∧ passes u loc 16 v ∧ plain loc ∧
    v.verify loc 16 = none ∧ ((v.dword (loc + 8)).toNat < (v.dword loc).toNat ↔ p = 1) := by
    rintro p (rfl | rfl)
    · exact ⟨seraied [9] 1 0, _, _, 9, _, by decide +kernel, rfl, by decide +kernel, by decide +kernel, by decide +kernel,
        run_of (by decide +kernel), Or.inr (by decide +kernel), run_of (by decide +kernel), Or.inl (by decide +kernel),
        by decide +kernel, by decide +kernel⟩
    · exact ⟨seraied [9] 0 0, _, _, 9, _, by decide +kernel, rfl, by decide +kernel, by decide +kernel, by decide +kernel,
        run_of (by decide +kernel), Or.inr (by decide +kernel), run_of (by decide +kernel), Or.inl (by decide +kernel),
        by decide +kernel, by decide +kernel⟩
  intro p hp
  exact h p (by simpa using hp)

theorem test_hyp_wait_serai_refused : ∃ (s : State) (n m : Word), s.mayIssue (.waitSerai 0) = true ∧ s.mayIssue (.waitSerai 1) = true ∧
    reads s 0 n ∧ 4096 ≤ n.toNat ∧ reads s 1 m ∧ (s.serai m.toNat).ctx ≠ some s.here.job.ctx ∧ s.parks .operand :=
  ⟨seraied [4096, 8] 0 0, _, _, by decide +kernel, by decide +kernel, rfl, by decide +kernel, rfl, by decide +kernel,
    parks_of (by decide +kernel)⟩

theorem test_hyp_wait_serai_bound : ∃ (s : State) (n : Word), s.mayIssue (.waitSerai 0) = true ∧ reads s 0 n ∧ n.toNat < 4096 ∧
    (s.serai n.toNat).bound.isSome = true ∧ s.parks .operand :=
  ⟨(seraied [9] 0 0).setSerai 9 { ctx := some 0, bound := some {} }, 9, by decide +kernel, rfl, by decide, rfl,
    parks_of (by decide +kernel)⟩

theorem test_hyp_barrier_alone : ∃ s : State, (∀ i ∈ [Instr.barCrew, .barSpan, .barStage], s.mayIssue i = true) ∧
    performed s 0xFFFF ∧ s.instOf s.cur = none := ⟨ready, by decide +kernel, performed_of (by decide +kernel), rfl⟩

theorem test_hyp_barrier_passes : ∃ (s : State) (e : Nat) (i : Inst) (me : TaskRec), s.mayIssue .barCrew = true ∧ performed s 0xFFFF ∧
    s.instOf s.cur = some (e, i) ∧ i.tasks.find? (fun t => t.core == s.cur) = some me ∧
    ∀ r ∈ i.tasks, r.core ≠ s.cur → share 0 me r → there s 0 (me.bars 0) r :=
  ⟨pair (fun t => { t with ended := true }), 5, pairInst (fun t => { t with ended := true }), _, by decide +kernel, performed_of (by decide +kernel),
    by decide +kernel, rfl, by
    intro r hr h _
    rcases List.mem_cons.mp hr with rfl | hr
    · exact absurd rfl h
    · rcases List.mem_singleton.mp hr with rfl; exact Or.inl rfl⟩

theorem test_hyp_barrier_waits : ∃ (s t : State) (e : Nat) (i : Inst) (me : TaskRec), s.mayIssue .barCrew = true ∧ performed s 0xFFFF ∧
    s.instOf s.cur = some (e, i) ∧ i.tasks.find? (fun t => t.core == s.cur) = some me ∧
    (¬ ∀ r ∈ i.tasks, r.core ≠ s.cur → share 0 me r → there s 0 (me.bars 0) r) ∧ s.here.sc.barrier ≠ some 0 ∧
    t = next .barCrew s ∧ t.mayIssue .barCrew = true ∧ t.here.sc.barrier = some 0 :=
  ⟨pair, _, 5, pairInst, _, by decide +kernel, performed_of (by decide +kernel), by decide +kernel, rfl, by
    intro h
    have h := h { core := 1, pos := 1, stage := 0, cluster := 0 } (by decide +kernel) (by decide +kernel) (Or.inl ⟨rfl, rfl⟩)
    rcases h with h | h | ⟨h, _⟩ <;> revert h <;> decide +kernel, by decide +kernel, rfl, by decide +kernel, by decide +kernel⟩

/-- A kernel waybill of one worker with the kind k given, at 0x3000. -/
def waybillBytes (k : Nat) : List Byte := (([k * 2 ^ 60 + 2 ^ 35, 0x1000, 1 * 2 ^ 6, 0, 0] : List Nat).map (leBytes 8)).flatten

theorem test_hyp_launch : ∃ (s u : State) (x : Word) (w : Waybill) (e : Nat), s.mayIssue (.tlaunch 0) = true ∧ agrees s ∧
    reads s 0 x ∧ (readWaybill x fun k => k == 0 || k == 2).run s = .ok w u ∧ u.sched.electing = false ∧
    u.distHeld (u.homeDie w u.cur) = false ∧ w.fencedOut u.sched.fenced = false ∧ lowestFree u (u.homeDie w u.cur) e :=
  ⟨(mapped [0x3000]).write 0x3000 (waybillBytes 0), _, _, _, 0, by decide +kernel, rfl, rfl, run_ofD {} (by decide +kernel),
    by decide +kernel, by decide +kernel, by decide +kernel,
    ⟨by decide +kernel, 0, by decide, by decide +kernel, by decide +kernel, fun j hj => absurd hj (by omega)⟩⟩

theorem test_hyp_launch_full : ∃ (s u : State) (x : Word) (w : Waybill), s.mayIssue (.tlaunch 0) = true ∧ reads s 0 x ∧
    (readWaybill x fun k => k == 0 || k == 2).run s = .ok w u ∧ 4096 ≤ u.inUse (u.homeDie w u.cur) :=
  ⟨{ (mapped [0x3000]).write 0x3000 (waybillBytes 0) with
      sched := { entries := (List.range 4096).map fun i => (i, { st := .waiting }) } }, _, _, _, by decide +kernel, rfl,
    run_ofD {} (by decide +kernel), by decide +kernel⟩

theorem test_hyp_launch_align : ∃ (s : State) (x : Word), s.mayIssue (.tlaunch 0) = true ∧ reads s 0 x ∧ x.toNat % 128 ≠ 0 ∧
    s.parks .align := ⟨holding [0x3001], _, by decide +kernel, rfl, by decide +kernel, parks_of (by decide +kernel)⟩

/-- A serai descriptor at 0x3000: a ring of two slots at 0x2000, open to the host. -/
def registering : State :=
  ((mapped [0x3000]).setHere { (mapped [0x3000]).here with tlb := (mapped []).here.tlb }).write 0x3000
    (leBytes 8 0x2000 ++ leBytes 8 (2 ^ 36 + 1))

/-- The reading of its descriptor. -/
def readIt : EStateM.Result Stop State (List Byte) := (readVa 0x3000 64).run (paged registering)

/-- The naming of its ring's header, and its passing. -/
def ringFound : EStateM.Result Stop State Nat := (locate (word (leNat ((val readIt).take 8))) .write .s).run (after readIt)
def ringPassed : EStateM.Result Stop State PUnit := (passHome (val ringFound) 16).run (after ringFound)

theorem test_hyp_sreg : ∃ (s u v w : State) (x : Word) (bs : List Byte) (loc : Nat), s.mayIssue (.sreg 0) = true ∧ agrees s ∧
    reads s 0 x ∧ x.toNat % 64 = 0 ∧ (readVa x 64).run s = .ok bs u ∧
    (let ring := word (leNat (bs.take 8))
     let q := leNat ((bs.drop 8).take 8)
     fld q 48 16 = 0 ∧ fld q 1 35 = 0 ∧ leNat ((bs.drop 16).take 48) = 0 ∧ ring.toNat % 256 = 0 ∧ isPad ring = false ∧
       u.mapped u.here.job.ctx ring.toNat (256 + 128 * (fld q 36 12 + 1)) .both = true ∧
       (u.serai 0).ctx = none ∧ names u ring .write loc v ∧ clear v 0 loc 16 { w := true } none ∧ passes v loc 16 w ∧ plain loc ∧
       w.partBad loc 16 = none) :=
  ⟨paged registering, after readIt, after ringFound, after ringPassed, 0x3000, val readIt, val ringFound, by decide +kernel,
    agrees_of (by decide +kernel), reads_of (by decide +kernel), by decide +kernel, run_of (r := readIt) (by decide +kernel),
    by decide +kernel, by decide +kernel, by decide +kernel, by decide +kernel, by decide +kernel, by decide +kernel,
    by decide +kernel, run_of (r := ringFound) (by decide +kernel), Or.inr (by decide +kernel),
    run_of (r := ringPassed) (by decide +kernel), Or.inl (by decide +kernel), by decide +kernel⟩

theorem get_listed {α : Type} (d : α) (f : Nat → α) (m : Nat) : ∀ (a n : Nat), a ≤ n → n < a + m →
    Sparse.get d ((List.range' a m).map fun i => (i, f i)) n = f n := by
  induction m with
  | zero => intro a n h h'; omega
  | succ m ih =>
    intro a n h h'
    simp only [List.range'_succ, List.map_cons, Sparse.get]
    split
    · rename_i e; rw [e]
    · exact ih (a + 1) n (by omega) (by omega)

/-- The same with every serai registered. -/
def allTaken : State :=
  { paged registering with sched := { serais := (List.range' 0 4096).map fun n => (n, { ctx := some 1 }) } }

def readAll : EStateM.Result Stop State (List Byte) := (readVa 0x3000 64).run allTaken

theorem test_hyp_sreg_none : ∃ (s u : State) (x : Word) (bs : List Byte), s.mayIssue (.sreg 0) = true ∧ agrees s ∧
    reads s 0 x ∧ x.toNat % 64 = 0 ∧ (readVa x 64).run s = .ok bs u ∧
    (let ring := word (leNat (bs.take 8))
     let q := leNat ((bs.drop 8).take 8)
     fld q 48 16 = 0 ∧ fld q 1 35 = 0 ∧ leNat ((bs.drop 16).take 48) = 0 ∧ ring.toNat % 256 = 0 ∧ isPad ring = false ∧
       u.mapped u.here.job.ctx ring.toNat (256 + 128 * (fld q 36 12 + 1)) .both = true) ∧ u.sched = s.sched ∧
    ∀ n < 4096, (s.serai n).ctx ≠ none :=
  ⟨allTaken, after readAll, 0x3000, val readAll, by decide +kernel, agrees_of (by decide +kernel), reads_of (by decide +kernel), by decide +kernel, run_of (r := readAll) (by decide +kernel), ⟨by decide +kernel,
    by decide +kernel, by decide +kernel, by decide +kernel, by decide +kernel, by decide +kernel⟩, by decide +kernel, fun n h => by
      have l : allTaken.sched.serais = (List.range' 0 4096).map fun n => (n, { ctx := some 1 }) := rfl
      have e : (allTaken.serai n).ctx = some 1 := by
        rw [State.serai, l, get_listed _ _ 4096 0 n (by omega) (by omega)]
      rw [e]; simp⟩

theorem test_hyp_sbind : ∃ (s u : State) (n y : Word) (w : Waybill), s.mayIssue (.sbind 0 1) = true ∧ s.mayIssue (.sbind 0 2) = true ∧
    agrees s ∧ reads s 0 n ∧ reads s 1 y ∧ reads s 2 0 ∧ n.toNat < 4096 ∧ (s.serai n.toNat).ctx = some s.here.job.ctx ∧ y ≠ 0 ∧
    (readWaybill y fun k => k == 3).run s = .ok w u :=
  ⟨(seraied [9, 0x3000, 0] 0 0).write 0x3000 (waybillBytes 3), _, _, _, _, by decide +kernel, by decide +kernel, rfl, rfl, rfl, rfl,
    by decide +kernel, by decide +kernel, by decide +kernel, run_ofD {} (by decide +kernel)⟩

theorem test_hyp_spost : ∃ (s u v w x z : State) (n y : Word) (bs : List Byte) (head slot : Nat), s.mayIssue (.spost 0 1 14) = true ∧
    agrees s ∧ reads s 0 n ∧ reads s 1 y ∧ n.toNat < 4096 ∧ (s.serai n.toNat).ctx = some s.here.job.ctx ∧ y.toNat % 8 = 0 ∧
    (readVa y (8 * 14)).run s = .ok bs u ∧ names u (u.serai n.toNat).ring .both head v ∧
    clear v 0 head 16 { r := true, w := true } (some 3) ∧ passes v head 16 w ∧ plain head ∧ w.verify head 16 = none ∧
    (w.dword head).toNat - (w.dword (head + 8)).toNat < (u.serai n.toNat).slots + 1 ∧
    names w (word ((u.serai n.toNat).ring.toNat + 256 + 128 * ((w.dword head).toNat % ((u.serai n.toNat).slots + 1)))) .write slot x ∧
    clear x 0 slot 128 { w := true } (some 3) ∧ passes x slot 128 z ∧ plain slot ∧ z.partBad slot 128 = none ∧ head + 8 ≤ slot :=
  ⟨seraied [9, 0x3000] 1 0, _, _, _, _, _, _, _, _, _, _, by decide +kernel, rfl, rfl, rfl, by decide +kernel, by decide +kernel,
    by decide +kernel, run_of (by decide +kernel), run_of (by decide +kernel), Or.inr (by decide +kernel), run_of (by decide +kernel),
    Or.inl (by decide +kernel), by decide +kernel, by decide +kernel, run_of (by decide +kernel), Or.inr (by decide +kernel),
    run_of (by decide +kernel), Or.inl (by decide +kernel), by decide +kernel, by decide +kernel⟩

theorem test_hyp_spost_full : ∃ (s u v w : State) (n y : Word) (bs : List Byte) (head : Nat), s.mayIssue (.spost 0 1 1) = true ∧
    agrees s ∧ reads s 0 n ∧ reads s 1 y ∧ n.toNat < 4096 ∧ (s.serai n.toNat).ctx = some s.here.job.ctx ∧ y.toNat % 8 = 0 ∧
    (readVa y (8 * 1)).run s = .ok bs u ∧ names u (u.serai n.toNat).ring .both head v ∧
    clear v 0 head 16 { r := true, w := true } (some 3) ∧ passes v head 16 w ∧ plain head ∧ w.verify head 16 = none ∧
    (u.serai n.toNat).slots + 1 ≤ (w.dword head).toNat - (w.dword (head + 8)).toNat :=
  ⟨seraied [9, 0x3000] 2 0, _, _, _, _, _, _, _, by decide +kernel, rfl, rfl, rfl, by decide +kernel, by decide +kernel,
    by decide +kernel, run_of (by decide +kernel), run_of (by decide +kernel), Or.inr (by decide +kernel), run_of (by decide +kernel),
    Or.inl (by decide +kernel), by decide +kernel, by decide +kernel⟩

theorem test_hyp_trig : ∃ (s : State) (x : Word), s.mayIssue (.trig 0) = true ∧ agrees s ∧ reads s 0 x ∧ x ≠ 0 ∧ x.toNat < 2 ^ 16 ∧
    s.here.sc.trig = false ∧ performed s x.toNat ∧ s.instOf s.cur = none ∧ s.mayIssue .texit = true ∧ s.here.job.recmode ≠ 2 ∧
    s.mayIssue .tyield = true ∧ s.yields = none :=
  ⟨holding [0xFFFF], _, by decide +kernel, rfl, rfl, by decide +kernel, by decide +kernel, rfl, performed_of (by decide +kernel), rfl,
    by decide +kernel, by decide +kernel, by decide +kernel, by decide +kernel⟩

theorem test_hyp_trig_again : ∃ (s : State) (x : Word), s.mayIssue (.trig 0) = true ∧ agrees s ∧ reads s 0 x ∧ x ≠ 0 ∧
    x.toNat < 2 ^ 16 ∧ s.here.sc.trig = true :=
  ⟨holding [1] fun c => { c with sc := { c.sc with trig := true } }, _, by decide +kernel, rfl, rfl, by decide +kernel,
    by decide +kernel, rfl⟩

theorem test_hyp_trig_all : ∃ (s : State) (e : Nat) (i : Inst), s.mayIssue (.trig 0) = true ∧ agrees s ∧ reads s 0 5 ∧
    s.here.sc.trig = false ∧ performed s 5 ∧ s.instOf s.cur = some (e, i) ∧ (s.score e).killed = none ∧ (s.score e).again = [] ∧
    (s.score e).wb.instances ≤ (s.score e).next :=
  ⟨pair (fun t => { t with trig := true }), 5, pairInst (fun t => { t with trig := true }), by decide +kernel, rfl, rfl, rfl,
    performed_of (by decide +kernel), by decide +kernel, by decide +kernel, by decide +kernel, by decide +kernel⟩

/-- A core of die 0 in a record mode, with an item 7; the ring of its die, in memory, holds a MARK of the value v, or room. -/
def marked (mode v : Nat) : State :=
  let s := holding [7, 2 ^ 32] fun c => { c with job := { c.job with recmode := mode } }
  (s.write (32 * 137) (leBytes 8 0x6000 ++ leBytes 8 9 ++ leBytes 8 (if mode = 2 then 3 else 0) ++ leBytes 8 0)).write 0x6000
    (leBytes 8 (6 * 2 ^ 56 + 2 * 2 ^ 54) ++ leBytes 8 v ++ leBytes 8 0)

theorem test_hyp_texit_diverge : ∃ s : State, s.mayIssue .texit = true ∧ s.here.job.recmode = 2 ∧ s.records.released = false ∧
    s.nextMark ≠ none ∧ s.parks .diverge :=
  ⟨marked 2 7, by decide +kernel, by decide +kernel, by decide +kernel, by decide +kernel, parks_of (by decide +kernel)⟩

theorem test_hyp_lmark : ∃ (s t u : State) (k ty : Nat) (b : List Word), s.mayIssue (.lmark 0) = true ∧ agrees s ∧ reads s 0 7 ∧
    s.here.job.recmode = 2 ∧ s.records.released = false ∧ s.nextMark = some (k, ty, b) ∧ fld (b.getD 0 0).toNat 0 32 = 7 ∧
    b.getD 1 0 = s.here.sc.hash ∧
    t.mayIssue (.lmark 0) = true ∧ reads t 0 7 ∧ t.here.job.recmode = 1 ∧ t.distHeld (dieOf t.cur) = false ∧
    3 ≤ (t.ring (137 + dieOf t.cur)).room ∧
    u.mayIssue (.lmark 0) = true ∧ reads u 0 7 ∧ u.here.job.recmode = 0 :=
  ⟨marked 2 7, marked 1 7, holding [7], _, _, _, by decide +kernel, agrees_of (by decide +kernel),
    reads_of (by decide +kernel), by decide +kernel, by decide +kernel, Option.some_get (by decide +kernel) |>.symm, by decide +kernel,
    by decide +kernel, by decide +kernel, reads_of (by decide +kernel), by decide +kernel, by decide +kernel, by decide +kernel,
    by decide +kernel, rfl, rfl⟩

theorem test_hyp_lmark_diverge : ∃ (s t : State) (k ty : Nat) (b : List Word), s.mayIssue (.lmark 0) = true ∧ agrees s ∧ reads s 0 7 ∧
    s.here.job.recmode = 2 ∧ s.records.released = false ∧ s.nextMark = some (k, ty, b) ∧ fld (b.getD 0 0).toNat 0 32 ≠ 7 ∧
    s.parks .diverge ∧ s.mayIssue (.lmark 1) = true ∧ reads s 1 (2 ^ 32) ∧ s.parks .operand ∧
    t.mayIssue (.lmark 0) = true ∧ reads t 0 7 ∧ t.here.job.recmode = 2 ∧ t.nextMark = none ∧ t.parks .diverge :=
  ⟨marked 2 8, holding [7] fun c => { c with job := { c.job with recmode := 2 } }, _, _, _, by decide +kernel, agrees_of (by decide +kernel),
    reads_of (by decide +kernel), by decide +kernel, by decide +kernel, Option.some_get (by decide +kernel) |>.symm, by decide +kernel,
    parks_of (by decide +kernel), by decide +kernel, reads_of (by decide +kernel), parks_of (by decide +kernel), by decide +kernel, rfl, rfl,
    by decide +kernel, parks_of (by decide +kernel)⟩

/-- Entry 6 stands ready with the waybill of a crew for cluster 0, and the checkpoint area has room for the pair. -/
def yielding : State :=
  let s := (pair).setScore 6 { seq := 1, st := .ready, wb := { shape := [(1, 0)], count := 1, chunk := 1, prio := 9 } }
  { s.setCrew 0 { resident := some 3 } with sched := { s.sched with ckunits := 2 ^ 32 } }

theorem test_hyp_tyield : ∃ (s : State) (e : Nat) (i : Inst) (r : TaskRec), s.mayIssue .tyield = true ∧ s.yields = some (e, i) ∧
    s.anyCall i = false ∧ r ∈ i.tasks ∧ r.core = s.cur ∧ r.ended = false :=
  ⟨yielding, 5, pairInst, { core := 0, pos := 0, stage := 0, cluster := 0 }, by decide +kernel, by decide +kernel, by decide +kernel,
    by decide +kernel, by decide +kernel, by decide +kernel⟩

/-- The action table answers every cause by the word a. -/
def answering (a : Nat) : State :=
  (List.range 31).foldl (fun s c => s.writeWord (8 * c) (word a)) (seraied [9] 0 0)

theorem test_hyp_trap : ∃ s : State, s.mayIssue (.trap 0xFFFF) = true ∧ s.parks .swtrap ∧ s.mayIssue (.ill 0) = true ∧
    s.parks .illword ∧ s.scalarTurn = true ∧ s.here.runner = none ∧ s.here.sc.landing = false ∧
    (decode 0x3F000000 = .illword) ∧ decode 0x04100201 = .resbits ∧ s.parks .resbits :=
  ⟨ready, by decide +kernel, parks_of (by decide +kernel), by decide +kernel, parks_of (by decide +kernel), by decide +kernel, rfl, rfl,
    by decide +kernel, by decide +kernel, parks_of (by decide +kernel)⟩

theorem answers_of {s : State} {c : Cause} {n : Nat} (h : (let a := s.actionEntry s.here.job.ctx c.code
    fld a 62 2 == n && fld a 56 6 == 0 && fld a 44 4 == 0 && fld a 0 32 == 0 && s.here.runner.isNone &&
    (s.core (runnerKey s.cur)).runner.isNone && s.here.job.recmode != 1) = true) : answers s c n := by
  simp only [Bool.and_eq_true, beq_iff_eq, bne_iff_ne, ne_eq, Option.isNone_iff_eq_none] at h
  exact ⟨h.1.1.1.1.1.1, h.1.1.1.1.1.2, h.1.1.1.1.2, h.1.1.1.2, h.1.1.2, h.1.2, h.2⟩

theorem test_hyp_trap_answers : ∃ s t u : State, s.mayIssue (.trap 1) = true ∧ answers s .swtrap 1 ∧ s.here.stop.cause = .none ∧
    1 ≤ fld (s.actionEntry s.here.job.ctx Cause.swtrap.code) 48 8 ∧
    t.mayIssue (.trap 1) = true ∧ answers t .swtrap 3 ∧
    (t.serai (fld (t.actionEntry t.here.job.ctx Cause.swtrap.code) 32 12)).ctx = some t.here.job.ctx ∧ t.sched.posts.length < 16384 ∧
    t.sched.sources = [] ∧
    u.mayIssue (.trap 1) = true ∧ answers u .swtrap 0 ∧ u.instOf u.cur = none :=
  ⟨answering (2 ^ 62 + 2 ^ 48), answering (3 * 2 ^ 62 + 9 * 2 ^ 32), answering 0, by decide +kernel, answers_of (by decide +kernel),
    by decide +kernel, by decide +kernel, by decide +kernel, answers_of (by decide +kernel), by decide +kernel, by decide +kernel,
    by decide +kernel, by decide +kernel, answers_of (by decide +kernel), by decide +kernel⟩

/-- A handler on core 0 with the cut header of core 1's parked task at 0x3000, its RESUME field r. -/
def handling (r : Nat) (f : Core → Core := id) : State :=
  let s := next (.trap 1) ready
  let h := s.here.stop.header
  let t := (mapped [0x3000]).setHere { (mapped [0x3000]).here with job := { handler := true } }
  (t.setCore 1 (f s.here)).write 0x3000 (((word ((h.getD 0 0).toNat + r) :: h.drop 1).map fun w => leBytes 8 w.toNat).flatten)

theorem test_hyp_tret : ∃ (s u v : State) (bs : List Byte) (cs : List Byte), s.mayIssue (.tret 0) = true ∧ agrees s ∧ reads s 0 0x3000 ∧
    s.here.job.handler = true ∧ (readVa 0x3000 64).run s = .ok bs u ∧
    (let d := leNat (bs.take 8)
     fld d 48 16 = 0 ∧ fld d 16 8 = 0 ∧ fld d 2 6 = 0 ∧ fld d 0 2 = 0) ∧
    s.parkedBy (wordsOf bs 8) s.here.job.ctx = (some 1, false) ∧ performed u 0xFFFF ∧ 1 ≠ u.cur ∧
    (readVa 0x3000 64).run (handling 1) = .ok cs v ∧ fld (leNat (cs.take 8)) 0 2 = 1 ∧ v.instOf 1 = none :=
  ⟨handling 0, _, _, _, _, by decide +kernel, agrees_of (by decide +kernel), reads_of (by decide +kernel), by decide +kernel, run_of (by decide +kernel),
    ⟨by decide +kernel, by decide +kernel, by decide +kernel, by decide +kernel⟩, by decide +kernel,
    performed_of (by decide +kernel), by decide +kernel, run_of (by decide +kernel), by decide +kernel,
    by decide +kernel⟩

theorem test_hyp_tret_refused : ∃ (s t u v w : State) (bs cs : List Byte), s.mayIssue (.tret 0) = true ∧ s.here.job.handler = false ∧
    s.parks .tretctx ∧
    t.mayIssue (.tret 0) = true ∧ reads t 0 0x3000 ∧ t.here.job.handler = true ∧ (readVa 0x3000 64).run t = .ok bs u ∧
    fld (leNat (bs.take 8)) 2 6 ≠ 0 ∧ t.parks .resbits ∧
    v.mayIssue (.tret 0) = true ∧ reads v 0 0x3000 ∧ v.here.job.handler = true ∧ (readVa 0x3000 64).run v = .ok cs w ∧
    v.parkedBy (wordsOf cs 8) v.here.job.ctx = (none, false) ∧ v.parks .operand :=
  ⟨ready, handling 4, _, handling 0 (fun _ => {}), _, _, _, by decide +kernel, rfl, parks_of (by decide +kernel), by decide +kernel,
    reads_of (by decide +kernel), by decide +kernel, run_of (by decide +kernel), by decide +kernel, parks_of (by decide +kernel),
    by decide +kernel, reads_of (by decide +kernel), by decide +kernel, run_of (by decide +kernel), by decide +kernel, parks_of (by decide +kernel)⟩

theorem test_hyp_lmark_full : ∃ s : State, s.mayIssue (.lmark 0) = true ∧ agrees s ∧ reads s 0 7 ∧ s.here.job.recmode = 1 ∧
    (s.ring (137 + dieOf s.cur)).room < 3 ∧ parksAlways s .logfull :=
  ⟨holding [7] fun c => { c with job := { c.job with recmode := 1 } }, by decide +kernel, rfl, rfl, rfl, by decide +kernel,
    ⟨by decide +kernel, rfl, rfl, rfl⟩⟩

theorem test_hyp_kill_instance : ∃ (s : State) (e : Nat) (i : Inst), s.mayIssue (.trap 1) = true ∧ answers s .swtrap 0 ∧
    s.instOf s.cur = some (e, i) ∧ i.saved = none ∧ ∃ r ∈ i.tasks, r.core = s.cur :=
  ⟨pair (s := answering 0), 5, pairInst, by decide +kernel, answers_of (by decide +kernel), by decide +kernel, rfl,
    { core := 0, pos := 0, stage := 0, cluster := 0 }, by decide +kernel, by decide +kernel⟩

/-- The handler of a task of core 1, parked, that belongs to an instance of entry 5. -/
def handlingPair : State :=
  (handling 1 fun c => { c with job := { c.job with handle := 5, inst := 3, count := 2 } }).setScore 5
    { seq := 1, st := .running, next := 1, wb := { count := 1, chunk := 1 }, insts := [pairInst] }

theorem test_hyp_tret_instance : ∃ (u : State) (bs : List Byte) (e : Nat) (i : Inst) (b : Bool), handlingPair.mayIssue (.tret 0) = true ∧
    reads handlingPair 0 0x3000 ∧ handlingPair.here.job.handler = true ∧ (readVa 0x3000 64).run handlingPair = .ok bs u ∧
    agrees handlingPair ∧ (let d := leNat (bs.take 8); fld d 48 16 = 0 ∧ fld d 16 8 = 0 ∧ fld d 2 6 = 0 ∧ fld d 0 2 = 1) ∧
    handlingPair.parkedBy (wordsOf bs 8) handlingPair.here.job.ctx = (some 1, b) ∧ performed u 0xFFFF ∧ 1 ≠ u.cur ∧
    u.instOf 1 = some (e, i) ∧ i.saved = none ∧ (∃ r ∈ i.tasks, r.core = 1) ∧ (u.core 1).run ≠ .idle :=
  ⟨_, _, 5, pairInst, false, by decide +kernel, reads_of (by decide +kernel), by decide +kernel, run_of (by decide +kernel),
    agrees_of (by decide +kernel), ⟨by decide +kernel, by decide +kernel, by decide +kernel, by decide +kernel⟩,
    by decide +kernel, performed_of (by decide +kernel), by decide +kernel, by decide +kernel, rfl,
    ⟨{ core := 1, pos := 1, stage := 0, cluster := 0 }, by decide +kernel, rfl⟩, by decide +kernel⟩

/-! ## Witnesses: remote calls -/

/-- A caller in context 0: a call to core 1 by function number 0, id 5, label 7, slot 3, two payload items. -/
def calling (f : Core → Core := id) : State :=
  let s := paged (holding [word (2 * 2 ^ 62 + 1), word (5 * 2 ^ 44 + 7 * 2 ^ 28 + 3), 11, 12, 0x40000, word 4] f)
  ({ s with stamp := 100 }.setCtx 0 { (s.ctx 0) with rftBase := 0x30000 / 8, rftCount := 1 }).write 0x30000 (leBytes 8 (2 ^ 63 + 0x1000))
    |>.write 0x1000 [7, 0, 0, 0x23]

theorem readsFrom_two (s : State) (h : (s.here.sc.strand[2]? == some 11 && s.here.sc.strand[3]? == some 12) = true) :
    readsFrom s 2 2 [11, 12] := by
  simp only [Bool.and_eq_true, beq_iff_eq] at h
  refine ⟨rfl, fun i hi => ?_⟩
  match i, hi with
  | 0, _ => exact h.1
  | 1, _ => exact h.2

theorem test_hyp_rcall : ∃ (s : State) (x y : Word), s.mayIssue (.rcall 0 1 2 2 0 true) = true ∧ agrees s ∧ reads s 0 x ∧ reads s 1 y ∧
    readsFrom s 2 2 [11, 12] ∧ targetItem x.toNat 2 ∧ replyItem s y.toNat ∧ (slotOf s (fld y.toNat 0 6)).st = .free :=
  ⟨calling, _, _, by decide +kernel, rfl, rfl, rfl, readsFrom_two _ (by decide +kernel),
    ⟨by decide +kernel, Or.inr (Or.inr ⟨rfl, by decide +kernel, by decide +kernel⟩)⟩,
    ⟨by decide +kernel, Or.inl ⟨by decide +kernel, by decide +kernel⟩⟩, by decide +kernel⟩

theorem test_hyp_rcall_unit : ∃ (s u : State) (x y : Word) (page : Nat × Nat × Nat), s.mayIssue (.rcall 4 1 2 2 0 true) = true ∧
    agrees s ∧ reads s 4 x ∧ reads s 1 y ∧ readsFrom s 2 2 [11, 12] ∧ targetItem x.toNat 0 ∧ replyItem s y.toNat ∧
    (slotOf s (fld y.toNat 0 6)).st = .free ∧ (bankTarget (word (fld x.toNat 0 52))).run s = .ok page u :=
  ⟨calling, _, _, _, _, by decide +kernel, rfl, rfl, rfl, readsFrom_two _ (by decide +kernel),
    ⟨by decide +kernel, Or.inl ⟨rfl, by decide +kernel⟩⟩,
    ⟨by decide +kernel, Or.inl ⟨by decide +kernel, by decide +kernel⟩⟩, by decide +kernel, run_of (by decide +kernel)⟩

theorem test_hyp_rcall_refused : ∃ (s : State) (x y : Word), s.mayIssue (.rcall 0 1 2 2 0 true) = true ∧ reads s 0 x ∧ reads s 1 y ∧
    readsFrom s 2 2 [11, 12] ∧ (slotOf s (fld y.toNat 0 6)).st ≠ .free ∧ s.parks .operand :=
  ⟨{ calling fun c => { c with slots := [(3, { st := .pending })] } with mem := (ready).mem }, _, _, by decide +kernel, rfl, rfl,
    readsFrom_two _ (by decide +kernel), by decide +kernel, parks_of (by decide +kernel)⟩

/-- A worker whose slot 3 holds c, read by item 0, in a record mode. -/
def polling (c : CallSlot) (mode : Nat) : State :=
  holding [3, 64] fun k => { k with slots := [(3, c)], job := { k.job with recmode := mode } }

theorem test_hyp_rpoll : ∃ (s t u : State), (∀ r ∈ [s, t, u], r.mayIssue (.rpoll 0 true) = true ∧ r.here.checkerBad = false ∧
      r.here.sc.strand[0]? = some 3 ∧ (slotOf r 3).serai = none) ∧
    s.here.job.recmode = 0 ∧ (slotOf s 3).st = .done ∧ t.here.sc.k.rctl = false ∧ (slotOf t 3).st = .lost ∧
    (consumed t 3 .lost (pollItems (slotOf t 3) (statusItem (slotOf t 3)))).parks .remlost ∧
    u.here.job.recmode = 0 ∧ (slotOf u 3).st = .pending :=
  ⟨polling { st := .done, count := 1, items := [5] } 0, polling { st := .lost } 0, polling { st := .pending } 0, by decide +kernel,
    rfl, by decide +kernel, rfl, by decide +kernel, parks_of (by decide +kernel), rfl, by decide +kernel⟩

theorem test_hyp_rpoll_refused : ∃ s : State, s.mayIssue (.rpoll 1 true) = true ∧ reads s 1 64 ∧ s.parks .operand :=
  ⟨polling {} 0, by decide +kernel, rfl, parks_of (by decide +kernel)⟩

/-- The die's ring holds a REPLY record of slot n with a status word, in replay. -/
def repolling (c : CallSlot) (n status : Nat) : State :=
  ((polling c 2).write (32 * 137) (leBytes 8 0x6000 ++ leBytes 8 9 ++ leBytes 8 3 ++ leBytes 8 0)).write 0x6000
    (leBytes 8 (7 * 2 ^ 56 + 2 * 2 ^ 54) ++ leBytes 8 n ++ leBytes 8 status)

theorem test_hyp_rpoll_replay : ∃ (s t u : State) (k m : Nat) (status x y : Word), (∀ r ∈ [s, t, u], r.mayIssue (.rpoll 0 true) = true ∧
      r.here.checkerBad = false ∧ r.here.sc.strand[0]? = some 3 ∧ (slotOf r 3).serai = none ∧ r.here.job.recmode = 2 ∧
      r.records.released = false) ∧
    s.nextReply = some (k, 3, status) ∧ status.toNat % 16 = 2 ∧ (slotOf s 3).st = .done ∧
    t.nextReply = some (k, 3, x) ∧ x.toNat % 16 = 2 ∧ (slotOf t 3).st ≠ .done ∧ (slotOf t 3).st ≠ .fault ∧
    u.nextReply = some (k, m, y) ∧ m ≠ 3 ∧ u.parks .diverge := by
  refine ⟨repolling { st := .done } 3 2, repolling { st := .pending } 3 2, repolling {} 4 2, 0, 4, 2, 2, 2, ?_⟩
  simp only [← and_assoc]
  exact ⟨by decide +kernel, parks_of (by decide +kernel)⟩

/-- The call of `calling` on its way, its target core 1 with a task of the context. -/
def called : State := (next (.rcall 0 1 2 2 0 false) calling).setCore 1 { run := .running }

/-- That call started on core 1's runner, whose turn it is. -/
def answeringCall : State :=
  let s := { next (.callStart 0) called with cur := 513 }
  s.setHere { s.here with sc := { s.here.sc with strand := [11, 12, 11, 12] } }

theorem test_hyp_call_start : ∃ (s : State) (c : Call) (va : Word) (page size : Nat), s.callAt 0 = some c ∧
    s.plan 0 c = (.text va page size, (s.plan 0 c).2) :=
  ⟨called, (called.callAt 0).get (by decide +kernel), 0x1000, 0, 2 ^ 19, (Option.some_get _).symm, by decide +kernel⟩

theorem test_hyp_rret : ∃ (s : State) (r : Runner) (c : Call), s.mayIssue (.rret 2 2) = true ∧ s.here.runner = some r ∧
    s.callAt r.call = some c ∧ readsFrom s 2 2 [11, 12] ∧ (s.core (s.cur - 512)).deferred = false :=
  ⟨answeringCall, { call := 0, page := 0, size := 2 ^ 19, started := 100 }, (answeringCall.callAt 0).get (by decide +kernel), by decide +kernel,
    by decide +kernel, (Option.some_get _).symm, readsFrom_two _ (by decide +kernel), by decide +kernel⟩

theorem test_hyp_rret_outside : ∃ s : State, s.mayIssue (.rret 0 0) = true ∧ s.here.runner = none ∧ s.parks .operand :=
  ⟨ready, by decide +kernel, rfl, parks_of (by decide +kernel)⟩

/-- A call in flight, changed by f, from the call of `calling`. -/
def flying (f : Call → Call) (s : State := called) : State :=
  { s with remote := { s.remote with calls := s.remote.calls.map fun p => (p.1, f p.2) } }

theorem callAt_some {s : State} {n : Nat} (h : (s.callAt n).isSome = true) : s.callAt n = some ((s.callAt n).get h) :=
  (Option.some_get h).symm

theorem test_hyp_call_waits : ∃ (s : State) (c : Call), s.callAt 0 = some c ∧ s.plan 0 c = (.wait, (s.plan 0 c).2) :=
  ⟨{ called with stamp := 100000 }, _, callAt_some (by decide +kernel), by decide +kernel⟩

theorem test_hyp_call_discarded : ∃ (s : State) (c : Call), s.callAt 0 = some c ∧ s.plan 0 c = (.discard, (s.plan 0 c).2) :=
  ⟨((flying fun c => { c with who := ⟨2, 0, 0⟩ }).write (32 * 137)
      (leBytes 8 0x6000 ++ leBytes 8 9 ++ leBytes 8 3 ++ leBytes 8 0)).write 0x6000
      (leBytes 8 (8 * 2 ^ 56 + 2 * 2 ^ 54) ++ leBytes 8 1 ++ leBytes 8 1), _, callAt_some (by decide +kernel), by decide +kernel⟩

theorem test_hyp_call_refused : ∃ (s : State) (c : Call), s.callAt 0 = some c ∧ s.plan 0 c = (.refuse 1, (s.plan 0 c).2) :=
  ⟨flying fun c => { c with func := 1 }, _, callAt_some (by decide +kernel), by decide +kernel⟩

theorem test_hyp_call_cached : ∃ (s : State) (c : Call), s.callAt 0 = some c ∧ s.plan 0 c = (.cached (.done, 0, false, [9], 1), (s.plan 0 c).2) :=
  ⟨{ called with remote := { called.remote with
      cache := [{ target := (called.callAt 0).get (by decide +kernel) |>.place, ctx := 0, id := 5, stamp := 0,
                  reply := some (.done, 0, false, [9], 1) }] } }, _, callAt_some (by decide +kernel), by decide +kernel⟩

theorem test_hyp_call_faults : ∃ (s : State) (c : Call), s.callAt 0 = some c ∧ s.plan 0 c = (.fault .notpresent, (s.plan 0 c).2) :=
  ⟨called.write 0x30000 (leBytes 8 (2 ^ 63 + 2 ^ 40)), _, callAt_some (by decide +kernel), by decide +kernel⟩

/-- The same caller's call to bank unit 0, whose store holds the clasp at word 1. -/
def unitCalled : State :=
  let s := next (.rcall 4 1 2 2 0 false) calling
  s.setUnit 0 { (s.unit 0) with store := [0, 0xC0000007], entries := [some 1] }

theorem test_hyp_call_bank : ∃ (s : State) (c : Call) (q : BankCmd), s.callAt 0 = some c ∧ s.plan 0 c = (.bank 1, (s.plan 0 c).2) ∧ q.call = some 0 ∧
    s.nextCmd (c.target / 64) = some q ∧ q.unit = c.target :=
  ⟨unitCalled, _, (unitCalled.nextCmd 0).get (by decide +kernel), callAt_some (by decide +kernel), by decide +kernel, by decide +kernel,
    (Option.some_get _).symm, by decide +kernel⟩

theorem test_hyp_call_late : ∃ (s t : State) (c d : Call), s.callAt 0 = some c ∧ c.started = none ∧ c.stamp + 16384 < s.stamp ∧
    (∀ x ∈ s.remote.cache, ¬ (x.target = c.place ∧ x.ctx = c.ctx ∧ x.id = c.id)) ∧ t.callAt 0 = some d ∧ d.started = none ∧ t.stamp ≤ d.stamp + 16384 :=
  ⟨{ called with stamp := 16485 }, { called with stamp := 16484 }, _, _, callAt_some (by decide +kernel), by decide +kernel,
    by decide +kernel, by decide +kernel, callAt_some (by decide +kernel), by decide +kernel, by decide +kernel⟩

theorem test_hyp_call_watchdog : ∃ (s t : State) (c d : Call) (r q : Runner), s.callAt 0 = some c ∧ c.started = some 100 ∧
    100 + 32768 < s.stamp ∧ c.kind ≠ 0 ∧ (s.core c.runner).runner = some r ∧ r.call = 0 ∧ (s.core (c.runner - 512)).deferred = false ∧
    t.callAt 0 = some d ∧ d.started = some 100 ∧ t.stamp ≤ 100 + 32768 ∧ (t.core d.runner).runner = some q :=
  ⟨{ answeringCall with stamp := 32869 }, { answeringCall with stamp := 32868 }, _, _,
    { call := 0, page := 0, size := 2 ^ 19, started := 100 }, { call := 0, page := 0, size := 2 ^ 19, started := 100 },
    callAt_some (by decide +kernel), by decide +kernel, by decide +kernel, by decide +kernel, by decide +kernel, rfl, by decide +kernel,
    callAt_some (by decide +kernel), by decide +kernel, by decide +kernel, by decide +kernel⟩

theorem test_hyp_unit_watchdog : ∃ (s : State) (c : Call) (r : UnitRun), s.callAt 0 = some c ∧ c.started = some 100 ∧
    100 + 32768 < s.stamp ∧ c.kind = 0 ∧ (s.unit c.target).run = some r ∧ r.call = some 0 :=
  ⟨{ next (.callStart 0) unitCalled with stamp := 32869 }, _,
    (((next (.callStart 0) unitCalled).unit 0).run).get (by decide +kernel), callAt_some (by decide +kernel), by decide +kernel,
    by decide +kernel, by decide +kernel, (Option.some_get _).symm, by decide +kernel⟩

/-- The reply of that call on its way, and its caller's turn. -/
def replying : State := { next (.rret 0 2) answeringCall with cur := 0 }

/-- What a state's first reply is. -/
def firstReply (s : State) : Reply :=
  match s.remote.replies with
  | p :: _ => p.2
  | [] => { caller := 0, slot := 0, inst := 0, id := 0, stamp := 0, st := .free, cause := 0, sat := false, cached := false, items := [],
            count := 0, sent := 0, target := 0 }

theorem test_hyp_reply : ∃ (s t : State) (n : Nat) (r q : Reply) (c : CallSlot), onItsWay s n r ∧ s.stamp ≤ r.sent + 16384 ∧
    s.slotAt r.caller r.inst r.slot = some c ∧ c.st = .pending ∧ c.id = r.id ∧ c.stamp = r.stamp ∧ s.stamp < r.stamp + 65536 ∧
    onItsWay t n q ∧ q.sent + 16384 < t.stamp :=
  ⟨replying, { replying with stamp := 16485 }, 1, firstReply replying, firstReply replying, slotOf replying 3, ⟨1, by decide +kernel⟩,
    by decide +kernel, by decide +kernel, by decide +kernel, by decide +kernel, by decide +kernel, by decide +kernel,
    ⟨1, by decide +kernel⟩, by decide +kernel⟩

theorem test_hyp_call_lost : ∃ (s t : State) (c d : CallSlot), s.slotAt 0 0 3 = some c ∧ c.st = .pending ∧
    c.stamp + 65536 ≤ s.stamp ∧ t.slotAt 0 0 3 = some d ∧ t.stamp < d.stamp + 65536 :=
  ⟨{ replying with stamp := 65636 }, { replying with stamp := 65635 }, _, _, rfl, by decide +kernel, by decide +kernel, rfl,
    by decide +kernel⟩

theorem test_hyp_call_ack : ∃ (s : State) (k : Nat), s.remote.acks.find? (fun p => p.1 == 2) = some (k, (7, 0, 5)) :=
  ⟨{ ready with remote := { acks := [(2, (7, 0, 5))] } }, 2, rfl⟩

theorem test_hyp_cache_expire : ∃ (s : State) (y : CacheEntry), y ∈ s.remote.cache ∧ y.target = 7 ∧ y.stamp + 8454144 ≤ s.stamp :=
  ⟨{ ready with stamp := 8454144, remote := { cache := [{ target := 7, ctx := 0, id := 5, reply := none, stamp := 0 }] } }, _,
    List.mem_singleton.mpr rfl, rfl, by decide +kernel⟩

/-- The call of `calling` again with a later issue stamp, its first attempt remembered and running. -/
def repeated : State :=
  let s := { called with remote := { called.remote with
    cache := [{ target := (called.callAt 0).get (by decide +kernel) |>.place, ctx := 0, id := 5, stamp := 0, reply := none }] } }
  flying (fun c => { c with stamp := 1 }) s

theorem test_hyp_call_found : ∃ (s : State) (c : Call), s.callAt 0 = some c ∧ s.plan 0 c = (.found, (s.plan 0 c).2) :=
  ⟨repeated, _, callAt_some (by decide +kernel), by decide +kernel⟩

theorem test_hyp_call_late_found : ∃ (s : State) (c : Call), s.callAt 0 = some c ∧ c.started = none ∧
    ∃ x ∈ s.remote.cache, x.target = c.place ∧ x.ctx = c.ctx ∧ x.id = c.id :=
  ⟨repeated, _, callAt_some (by decide +kernel), by decide +kernel, by decide +kernel⟩

theorem test_hyp_call_lost_not : ∃ (s : State) (c : CallSlot), s.slotAt 0 0 3 = some c ∧ c.st ≠ .pending :=
  ⟨polling { st := .done } 0, _, rfl, by decide +kernel⟩

theorem test_hyp_rret_late : ∃ (s : State) (r : Runner) (c : Call), s.mayIssue (.rret 2 2) = true ∧ s.here.runner = some r ∧
    s.callAt r.call = some c ∧ readsFrom s 2 2 [11, 12] ∧ (s.core (s.cur - 512)).deferred = false ∧ r.started + 32768 < s.stamp :=
  ⟨{ answeringCall with stamp := 32869 }, { call := 0, page := 0, size := 2 ^ 19, started := 100 }, _, by decide +kernel,
    by decide +kernel, callAt_some (by decide +kernel), readsFrom_two _ (by decide +kernel), by decide +kernel, by decide +kernel⟩

/-! ## Witnesses: searches, merges, streams -/

/-- Bytes of a page from an offset on. -/
def cells (off : Nat) (bs : List Byte) : Sparse Byte := (bs.zipIdx.map fun p => (off + p.2, p.1)).filter fun p => p.2 != 0

/-- A graph of two nodes of two bytes in region 1 (each other's neighbour), and a list of one member in region 2. -/
def graphHead : List Byte := ([2 ^ 32 + 6 * 2 ^ 16 + 2, 2 * 2 ^ 32, 1] : List Nat).flatMap (leBytes 8)
def listHead : List Byte := ([2 ^ 56 + 6 * 2 ^ 16 + 2, 2 ^ 32 + 1, 1, 2, 3] : List Nat).flatMap (leBytes 8)
def indexFlash : Flash where
  pages := [(0, { bytes := cells 0 graphHead }), (1, { bytes := cells 0 listHead }),
    (14000000, { bytes := cells 0 [1, 2, 1, 0, 0, 0] ++ cells 64 [3, 4, 0, 0, 0, 0] }),
    (14000001, { bytes := cells 0 [5, 6, 9, 0, 0, 0] }), (28000001, { bytes := cells 0 [1, 1] }),
    (42000001, { bytes := cells 8 [1] })]
  regions := [(1, { valid := true, index := true, r := true, ctrl := 1, pages := 32, fill := 2 }),
    (2, { valid := true, index := true, r := true, ctrl := 1, base := 1, pages := 32, fill := 4 })]

/-- A SEARCH descriptor at 0x3000 for region 1: its query at 0x3080, its ring of m slots at 0x2000, CLAIM and CONS as given. -/
def searching (claim cons m : Nat) : State :=
  let s := mapped [0x3000, 0x3001, 0x3200]
  let s := ((s.write 0x3000 (([1, 0x3080, 10 * 2 ^ 32 + 2 * 2 ^ 16 + 1, 0x2000] : List Nat).flatMap (leBytes 8))).write 0x3080
    [1, 1]).write 0x2000 (([claim, cons, (m - 1) * 2 ^ 36 + 1] : List Nat).flatMap (leBytes 8))
  { paged s with flash := indexFlash }

/-- A search of region 1 in entry 0 for two bytes 1, 1, changed by f. -/
def sought (f : Search → Search := id) : State :=
  { (paged ready).setScore 0 { seq := 1, st := .running, wb := { kind := 1 }, search := some (f {
      region := 1, reg := { valid := true, index := true, r := true, ctrl := 1, pages := 32, fill := 2 }, query := [1, 1]
      hopsMax := 10, beam := 2, k := 1, slot := 0x2200 }) } with flash := indexFlash }

/-- A stream waybill READY in entry 5: its record at 0x3000 names one entry at 0x3400, blocks of 4-byte tokens, and the queue on
D2 with two slots of 256 bytes; the entry a, b. -/
def streaming (a b : Nat) (p c : Nat := 0) (base : State := ready) : State :=
  let s := paged base
  let s := (s.write 0x3000 (([0x3400, 4 * 2 ^ 32 + 1, 2 ^ 63 + 0x100, 0x0000001000004000] : List Nat).flatMap (leBytes 8))).write 0x3400
    (leBytes 8 a ++ leBytes 8 b)
  let s := (s.write (padLoc 8 0x100) (([p, c, 0x0000001000004000] : List Nat).flatMap (leBytes 8))).write (Config.dramEnd + 0x5000)
    [1, 2, 3, 4, 5, 6, 7, 8]
  let s := s.writeWord 0xC008 (word (2 ^ 63 + 2 ^ 62 + 2 ^ 56 + 2 ^ 57 + 2 ^ 58 + Config.dramEnd))
  { (s.setScore 5 { seq := 1, st := .ready, wb := { kind := 2, entry := 0x3000 } }).setCrew 8 { resident := some 1 } with
    flash := indexFlash }

/-- The same started, its stream changed by f. -/
def started (a b : Nat) (p c : Nat := 0) (f : Stream → Stream := id) : State :=
  let s := streaming a b p c
  s.setScore 5 { (s.score 5) with st := .running, stream := some (f {
    table := 0x3400, tbytes := 4, nent := 1, q := ⟨0, 0x100, 0x0000001000004000⟩ }) }

/-- An entry that names the 8 bytes at 0x5000 of the KV store, mapped at 0x80000, with their CRC. -/
def blockA : Nat := 2 ^ 62 + 0x85000
def blockB : Nat := (crc32c [1, 2, 3, 4, 5, 6, 7, 8]).toNat * 2 ^ 32 + 2

/-- The same in a page of DRAM whose frame the table counts once. -/
def framed : State :=
  let s := (started (2 ^ 62 + 0x105000) blockB).write 0x85000 [1, 2, 3, 4, 5, 6, 7, 8]
  let s := s.writeWord 0xC010 (word (2 ^ 63 + 2 ^ 62 + 2 ^ 56 + 2 ^ 57 + 2 ^ 58 + 0x80000))
  { s.writeWord (0x100000 + 8) (word (2 ^ 48)) with pages := { s.pages with ftbase := 0x100000 } }

theorem test_hyp_search : ∃ (s u1 u2 u3 u4 u5 u6 u7 u8 u9 : State) (bs hs q : List Byte) (head loc e : Nat) (x : Nat × Nat × Option Region × Option Nat),
    s.mayIssue (.search 0 0) = true ∧ agrees s ∧ reads s 0 0x3000 ∧ (readVa 0x3000 128 0).run s = .ok bs u1 ∧
    searchBad (wordsOf bs 16) = false ∧ (u1.region 1).valid = true ∧ (u1.region 1).index = true ∧ (u1.region 1).r = true ∧
    (u1.region 1).ctx = u1.here.job.ctx ∧ (wordsOf bs 16).take 6 = [1, 0x3080, word (10 * 2 ^ 32 + 2 * 2 ^ 16 + 1), 0x2000, 0, 0] ∧
    (readVa 0x2000 64 0).run u1 = .ok hs u2 ∧ wordsOf hs 8 = [1, 1, word (2 ^ 36 + 1), 0, 0, 0, 0, 0] ∧
    (u1.indexHead (u1.region 1)).e = 1 ∧ (readVa 0x3080 2 0).run u2 = .ok q u3 ∧ (u1.indexHead (u1.region 1)).dim = 2 ∧
    (checkPages .write 1 0x2100).run u3 = .ok ⟨⟩ u4 ∧
    names u4 0x2000 .write head u5 ∧ clear u5 0 head 16 { w := true } none ∧ passes u5 head 8 u6 ∧ plain head ∧
    u6.partBad head 8 = none ∧
    names (u6.write head (leBytes 8 2)) 0x2200 .write loc u7 ∧ clear u7 0 loc 64 { w := true } none ∧ passes u7 loc 64 u8 ∧
    plain loc ∧ u8.partBad loc 64 = none ∧ head + 8 ≤ loc ∧
    (let u := u8.write loc (dwordBytes (slotHeader 0 0 0 1 0 0 0 0 0x2200))
     goesOn u { walk := u.here.sc.ctr.walk, cls := 0, home := some (.region 1 (u1.region 1).die) } ∧ bit u.sched.fenced.toNat (u1.region 1).die = false ∧
     (enterScore { kind := 1 } (u1.region 1).die).run u = .ok e u9 ∧ u9.snapshot 1 (launchKey u.cur u.here) = some x) :=
  ⟨searching 1 1 2, _, _, _, _, _, _, _, _, _, _, _, _, _, _, _, (0, 0, some ((searching 1 1 2).region 1), none),
    by decide +kernel, agrees_of (by decide +kernel), reads_of (by decide +kernel), run_of (by decide +kernel), by decide +kernel,
    by decide +kernel, by decide +kernel, by decide +kernel, by decide +kernel, by decide +kernel, run_of (by decide +kernel), by decide +kernel,
    by decide +kernel, run_of (by decide +kernel), by decide +kernel, run_of (by decide +kernel), run_of (by decide +kernel),
    Or.inr (by decide +kernel), run_of (by decide +kernel), Or.inl (by decide +kernel), by decide +kernel, run_of (by decide +kernel),
    Or.inr (by decide +kernel), run_of (by decide +kernel), Or.inl (by decide +kernel), by decide +kernel, by decide +kernel,
    Or.inr (by decide +kernel), by decide +kernel, run_of (by decide +kernel), by decide +kernel⟩

theorem test_hyp_search_full : ∃ (s u1 u2 : State) (bs hs : List Byte), s.mayIssue (.search 0 0) = true ∧
    (readVa 0x3000 128 0).run s = .ok bs u1 ∧ (readVa 0x2000 64 0).run u1 = .ok hs u2 ∧
    ((wordsOf hs 8).getD 0 0).toNat - ((wordsOf hs 8).getD 1 0).toNat = fld ((wordsOf hs 8).getD 2 0).toNat 36 12 + 1 ∧
    s.mayIssue (.search 1 0) = true ∧ reads s 1 0x3001 ∧ s.parks .align ∧ s.mayIssue (.search 2 0) = true ∧ reads s 2 0x3200 ∧
    searchBad (wordsOf (val ((readVa 0x3200 128 0).run s)) 16) = true ∧ s.parks .operand :=
  ⟨searching 2 0 2, _, _, _, _, by decide +kernel, run_of (by decide +kernel), run_of (by decide +kernel), by decide +kernel,
    by decide +kernel, reads_of (by decide +kernel), parks_of (by decide +kernel), by decide +kernel, reads_of (by decide +kernel),
    by decide +kernel, parks_of (by decide +kernel)⟩

theorem search_some {s : State} (h : (s.score 0).search.isSome = true) : (s.score 0).search = some ((s.score 0).search.get h) :=
  (Option.some_get h).symm

/-- Its controller's traversal cores both run a function. -/
def busyCores (s : State) : State :=
  (s.setCore (traversalKey 0) { runner := some ⟨0, 0, 0, 0⟩ }).setCore (traversalKey 1) { runner := some ⟨1, 0, 0, 0⟩ }

theorem test_hyp_search_hop : ∃ (s t : State) (x y : Search), (s.score 0).search = some x ∧ (t.score 0).search = some y ∧
    (s.indexHead x.reg).graph = true ∧ x.spent true = false ∧ x.begun = false ∧ x.ending = none ∧
    (s.hopPages x (s.indexHead x.reg)).findSome? (fun p => ((s.page (x.reg.pageKey p)).fault).map fun c => (c, p)) = none ∧
    s.hopBlocked (s.hopAt x (s.indexHead x.reg)) = false ∧ (busyCores s).hopBlocked (s.hopAt x (s.indexHead x.reg)) = true ∧
    y.begun = true ∧ y.spent true = false ∧ y.nextNode = some 0 ∧ y.ending = none ∧
    7 ≤ 7 * (t.hopPages y (t.indexHead y.reg)).length ∧
    (t.hopPages y (t.indexHead y.reg)).findSome? (fun p => ((t.page (y.reg.pageKey p)).fault).map fun c => (c, p)) = none := by
  refine ⟨sought, sought fun x => { x with begun := true, pool := [(3, 0)], seen := [0] }, _, _, search_some (by decide +kernel),
    search_some (by decide +kernel), ?_⟩
  decide +kernel

/-- The same search of the list index, and one whose node page fails. -/
def listSought : State := sought fun x => { x with region := 2, reg := { x.reg with base := 1, fill := 4 } }
def failing : State :=
  let s := sought fun x => { x with begun := true, pool := [(3, 0)], seen := [0] }
  { s with flash := { s.flash with pages := s.flash.pages.put 14000000 { failing := 8 } } }

theorem test_hyp_search_lists : ∃ (s t : State) (x y : Search) (c : Cause) (p : Nat), (s.score 0).search = some x ∧
    (s.indexHead x.reg).graph = false ∧ x.spent false = false ∧ x.ending = none ∧
    (s.hopPages x (s.indexHead x.reg)).findSome? (fun p => ((s.page (x.reg.pageKey p)).fault).map fun c => (c, p)) = none ∧
    (t.score 0).search = some y ∧ y.spent true = false ∧ y.ending = none ∧
    t.hopBlocked (t.hopAt y (t.indexHead y.reg)) = false ∧
    (t.hopPages y (t.indexHead y.reg)).findSome? (fun p => ((t.page (y.reg.pageKey p)).fault).map fun c => (c, p)) = some (c, p) :=
  ⟨listSought, failing, _, _, .flashunc, 1, search_some (by decide +kernel), by decide +kernel, by decide +kernel, by decide +kernel,
    by decide +kernel, search_some (by decide +kernel), by decide +kernel, by decide +kernel, by decide +kernel, by decide +kernel⟩

/-- The search with both nodes expanded. -/
def spent : State := sought fun x => { x with begun := true, pool := [(7, 1), (3, 0)], seen := [0, 1], expanded := [0, 1], hops := 2 }

theorem test_hyp_search_done : ∃ (s : State) (x : Search), (s.score 0).search = some x ∧ x.ending = none ∧
    x.spent (s.indexHead x.reg).graph = true :=
  ⟨spent, _, search_some (by decide +kernel), by decide +kernel, by decide +kernel⟩

theorem finds_of {s : State} {e : Nat} {va : Word} {n : Need} {pa : Nat}
    (h : ((s.translate (s.score e).wb.ctx va.toNat n).toOption == some pa) = true) : unitFinds s e va n pa := by
  have h := except_of h
  simp only [unitFinds, unitPlace, EStateM.run, bind, EStateM.bind, get, getThe, MonadStateOf.get, EStateM.get, h]
  rfl

/-- The same search whose end has these parts left, and why. -/
def ending (why : Option (Cause × Word)) (parts : List (Word × List Byte)) : State :=
  sought fun x => { x with ending := some { why := why, header := slotHeader 1 0 0 0 0 0 0 0 0x2200, parts := parts } }

theorem test_hyp_search_ends : ∃ (s t : State) (u v : State) (x y : Search) (d f : Ending) (bs : List Byte), (s.score 0).search = some x ∧ x.ending = some d ∧
    d.parts = [(0x2200, bs)] ∧ d.why = none ∧ unitFinds s 0 0x2200 .write 0x2200 ∧ unitWrites s x.who 0 0x2200 bs u ∧ quiet u 0 ∧
    u.postRoom = true ∧
    (t.score 0).search = some y ∧ y.ending = some f ∧ f.parts = [(0x2200, bs)] ∧ f.why = some (.flashunc, 0) ∧
    unitFinds t 0 0x2200 .write 0x2200 ∧ unitWrites t y.who 0 0x2200 bs v ∧ quiet v 0 ∧
    v.actionEntry (v.score 0).wb.ctx Cause.flashunc.code = 0 ∧ v.postRoom = true ∧ y.who.mode ≠ 1 := by
  refine ⟨ending none [(0x2200, List.replicate 64 1)], { ending (some (.flashunc, 0)) [(0x2200, List.replicate 64 1)] with mem := (paged { ready with mem := [] }).mem },
    _, _, _, _, _, _, _, search_some (by decide +kernel), rfl, rfl, rfl, finds_of (by decide +kernel), run_of (by decide +kernel),
    ⟨?_, ?_, ?_, ?_, ?_⟩, ?_, search_some (by decide +kernel), rfl, rfl, rfl, finds_of (by decide +kernel), run_of (by decide +kernel),
    ⟨?_, ?_, ?_, ?_, ?_⟩, ?_, ?_, ?_⟩ <;> decide +kernel

theorem test_hyp_search_part : ∃ (s u : State) (x : Search) (d : Ending) (bs : List Byte) (ps : List (Word × List Byte)),
    (s.score 0).search = some x ∧ x.ending = some d ∧ d.parts = (0x2200, bs) :: ps ∧ ps ≠ [] ∧
    unitFinds s 0 0x2200 .write 0x2200 ∧ unitWrites s x.who 0 0x2200 bs u :=
  ⟨ending none [(0x2200, [1]), (0x2300, [2])], _, _, _, _, [(0x2300, [2])], search_some (by decide +kernel), rfl, rfl,
    by decide, finds_of (by decide +kernel), run_of (by decide +kernel)⟩

/-- Region 1 with one log entry published, naming id 7. -/
def merging (m : Option Merge) : State :=
  ready.setRegion 1 { (({ ready with flash := indexFlash } : State).region 1) with
    logpos := 1, log := [[7, 0, 0, 0, 0, 0, 0, 0, 1, 2]], merging := m }

theorem test_hyp_merge : ∃ s t : State, ((s.region 1).valid = true ∧ (s.region 1).index = true ∧ (s.region 1).hold = false ∧
    (s.region 1).merged < (s.region 1).logpos ∧ (s.region 1).merging.isNone = true) ∧ (t.region 1).merging = some ⟨1, 1, 0, 32⟩ ∧
    ((t.region 1).log.take 1).drop (t.region 1).merged = [] ++ [[7, 0, 0, 0, 0, 0, 0, 0, 1, 2]] :=
  ⟨merging none, merging (some ⟨1, 1, 0, 32⟩), by decide +kernel, by decide +kernel, by decide +kernel⟩

theorem isNone_of {α : Type} {x : Option α} (h : x.isNone = true) : x = none := by simpa using h

/-- The reading of the stream's record. -/
def recordRead (s : State) : EStateM.Result Stop State (List Byte) :=
  (unitLoads ⟨0, 0x181, 0⟩ 5 ((s.setScore 5 { (s.score 5) with st := .running }).score 5).wb.ctx 0x3000 64).run
    (s.setScore 5 { (s.score 5) with st := .running })
def geomRead (s : State) : EStateM.Result Stop State (List Byte) :=
  (unitLoad ⟨0, 0x181, 0⟩ 5 (padLoc 8 0x110) 8 (word (2 ^ 63 + 0x110))).run (after (recordRead s))

theorem record_of (s : State) (h : isOk (recordRead s) = true) : unitReads (s.setScore 5 { (s.score 5) with st := .running }) ⟨0, 0x181, 0⟩ 5
    0x3000 64 (val (recordRead s)) (after (recordRead s)) := run_of h
theorem geom_of (s : State) (h : isOk (geomRead s) = true) : unitGrain (after (recordRead s)) ⟨0, 0x181, 0⟩ 5 (padLoc 8 0x110) 8
    (word (2 ^ 63 + 0x110)) (val (geomRead s)) (after (geomRead s)) := run_of h

theorem test_hyp_stream_start : ∃ (s t u v : State) (bs gs : List Byte), (s.score 5).st = .ready ∧ (s.score 5).wb.kind = 2 ∧
    (s.crew 8).resident ≠ none ∧ s.sched.electing = false ∧ s.launchClear (s.score 5) = true ∧
    unitReads (s.setScore 5 { (s.score 5) with st := .running }) ⟨0, 0x181, 0⟩ 5 0x3000 64 bs u ∧
    streamBad (wordsOf bs 8) = false ∧
    unitGrain u ⟨0, 0x181, 0⟩ 5 (padLoc 8 0x110) 8 (word (2 ^ 63 + 0x110)) gs v ∧
    word (leNat gs) = (wordsOf bs 8).getD 3 0 ∧ (wordsOf bs 8).getD 3 0 ≠ 0 ∧
    (t.score 5).st = .ready ∧ (t.score 5).wb.kind = 2 ∧ (t.crew 8).resident = none :=
  ⟨streaming blockA blockB, (streaming blockA blockB).setCrew 8 {}, after (recordRead (streaming blockA blockB)),
    after (geomRead (streaming blockA blockB)), val (recordRead (streaming blockA blockB)), val (geomRead (streaming blockA blockB)),
    by decide +kernel, by decide +kernel, by decide +kernel, by decide +kernel, by decide +kernel,
    record_of _ (by decide +kernel), by decide +kernel, geom_of _ (by decide +kernel), by decide +kernel,
    by decide +kernel, by decide +kernel, by decide +kernel, by decide +kernel⟩

/-- The same stream on a machine with no action table, its record bad, or its queue of another geometry. -/
def streamWrong (at_ : Nat) (x : Nat) : State :=
  (streaming blockA blockB 0 0 { ready with mem := [] }).write at_ (leBytes 8 x)

theorem test_hyp_stream_record : ∃ (s u : State) (bs : List Byte), (s.score 5).st = .ready ∧ (s.score 5).wb.kind = 2 ∧
    (s.crew 8).resident ≠ none ∧ s.sched.electing = false ∧ s.launchClear (s.score 5) = true ∧
    unitReads (s.setScore 5 { (s.score 5) with st := .running }) ⟨0, 0x181, 0⟩ 5 0x3000 64 bs u ∧ streamBad (wordsOf bs 8) = true ∧
    quiet u 5 ∧ (u.score 5).stream = none ∧ (u.score 5).search = none ∧ (u.score 5).mode ≠ 1 ∧
    u.actionEntry (u.score 5).wb.ctx Cause.operand.code = 0 := by
  refine ⟨streamWrong 0x3008 0, after (recordRead (streamWrong 0x3008 0)), val (recordRead (streamWrong 0x3008 0)), ?_, ?_, ?_, ?_, ?_,
    record_of _ ?_, ?_, ⟨?_, ?_, ?_, ?_, ?_⟩, isNone_of ?_, isNone_of ?_, ?_, ?_⟩ <;> decide +kernel

theorem test_hyp_stream_geometry : ∃ (s u v : State) (bs gs : List Byte), (s.score 5).st = .ready ∧ (s.score 5).wb.kind = 2 ∧
    (s.crew 8).resident ≠ none ∧ s.sched.electing = false ∧ s.launchClear (s.score 5) = true ∧
    unitReads (s.setScore 5 { (s.score 5) with st := .running }) ⟨0, 0x181, 0⟩ 5 0x3000 64 bs u ∧ streamBad (wordsOf bs 8) = false ∧
    unitGrain u ⟨0, 0x181, 0⟩ 5 (padLoc 8 0x110) 8 (word (2 ^ 63 + 0x110)) gs v ∧
    word (leNat gs) ≠ (wordsOf bs 8).getD 3 0 ∧
    quiet v 5 ∧ (v.score 5).stream = none ∧ (v.score 5).search = none ∧ (v.score 5).mode ≠ 1 ∧
    v.actionEntry (v.score 5).wb.ctx Cause.qfault.code = 0 := by
  refine ⟨streamWrong (padLoc 8 0x110) 0x4000, after (recordRead (streamWrong (padLoc 8 0x110) 0x4000)),
    after (geomRead (streamWrong (padLoc 8 0x110) 0x4000)), val (recordRead (streamWrong (padLoc 8 0x110) 0x4000)),
    val (geomRead (streamWrong (padLoc 8 0x110) 0x4000)), ?_, ?_, ?_, ?_, ?_,
    record_of _ ?_, ?_, geom_of _ ?_, ?_, ⟨?_, ?_, ?_, ?_, ?_⟩, isNone_of ?_, isNone_of ?_, ?_, ?_⟩ <;>
    decide +kernel

/-- A stream whose first entry is pinned. -/
def pinnedEntry (x : Stream) : Stream := { x with held := some (word blockA, word blockB), block := Config.dramEnd + 0x5000 }

theorem stream_some {s : State} (h : (s.score 5).stream.isSome = true) : (s.score 5).stream = some ((s.score 5).stream.get h) :=
  (Option.some_get h).symm

/-- A stream at its first entry, whose words are a and b. -/
def atEntry (s : State) (a b : Word) : Prop := ∃ (u : State) (x : Stream) (bs : List Byte), (s.score 5).stream = some x ∧
  x.held.isNone = true ∧ x.entry < x.nent ∧ x.table + word (16 * x.entry) = 0x3400 ∧ unitFinds s 5 0x3400 .both 0x3400 ∧ plain 0x3400 ∧
  unitGrain s ⟨0, 0, 0⟩ 5 0x3400 16 0x3400 bs u ∧
  word (leNat (bs.take 8)) = a ∧ word (leNat (bs.drop 8)) = b

/-- Each way of an entry to be pinned: flash, the KV store, a page of DRAM. -/
theorem test_hyp_stream_pin : atEntry (started (2 ^ 63) 2) (word (2 ^ 63)) 2 ∧ atEntry (started blockA blockB) (word blockA) (word blockB) ∧
    atEntry framed (word (2 ^ 62 + 0x105000)) (word blockB) ∧
    (started blockA blockB).blockPlace 0 0x85000 8 = some (Config.dramEnd + 0x5000, none) ∧
    framed.blockPlace 0 0x105000 8 = some (0x85000, some 1) := by
  refine ⟨⟨_, _, _, stream_some ?_, ?_, ?_, ?_, finds_of ?_, Or.inl ?_, run_of ?_, ?_, ?_⟩,
    ⟨_, _, _, stream_some ?_, ?_, ?_, ?_, finds_of ?_, Or.inl ?_, run_of ?_, ?_, ?_⟩,
    ⟨_, _, _, stream_some ?_, ?_, ?_, ?_, finds_of ?_, Or.inl ?_, run_of ?_, ?_, ?_⟩, ?_, ?_⟩ <;> decide +kernel

/-- The end of a stream, and a queue with and without room for the first piece. -/
theorem test_hyp_stream_claim : ∃ (s t u : State) (x y z : Stream), (s.score 5).stream = some x ∧
    x.held = some (word blockA, word blockB) ∧ x.claim.isNone = true ∧ x.copied.length < 8 ∧
    isOk ((unitLoad x.who 5 (padLoc 8 x.q.ctl) 8 (word (2 ^ 63 + x.q.ctl))).run s) = true ∧
    (s.dword (padLoc 8 x.q.ctl)).toNat = 0 ∧
    (t.score 5).stream = some y ∧ y.held = some (word blockA, word blockB) ∧ y.claim.isNone = true ∧
    (t.dword (padLoc 8 y.q.ctl)).toNat - (t.dword (padLoc 8 (y.q.ctl + 8))).toNat = geomSlots y.q.geom ∧
    (u.score 5).stream = some z ∧ z.held.isNone = true ∧ z.nent ≤ z.entry ∧ quiet u 5 := by
  refine ⟨started blockA blockB 0 0 pinnedEntry, started blockA blockB 2 0 pinnedEntry, started blockA blockB 0 0 fun x => { x with entry := 1 }, _, _, _,
    stream_some ?_, ?_, ?_, ?_, ?_, ?_, stream_some ?_, ?_, ?_, ?_, stream_some ?_, ?_, ?_, ⟨?_, ?_, ?_, ?_, ?_⟩⟩ <;> decide +kernel

/-- The steps of a piece: read in memory, read in flash, put down, published, and the unpinning of its entry. -/
theorem test_hyp_stream_read : ∃ (s u : State) (x : Stream) (bs : List Byte), (s.score 5).stream = some x ∧
    x.held = some (word blockA, word blockB) ∧ x.claim = some 0 ∧ x.reg.isNone = true ∧ x.got.length < 8 ∧
    unitGrain s x.who 5 (x.block + 0) 8 (word 0x85000) bs u :=
  ⟨started blockA blockB 0 0 fun x => { pinnedEntry x with claim := some 0 }, _, _, _, stream_some (by decide +kernel),
    by decide +kernel, by decide +kernel, by decide +kernel, by decide +kernel, run_of (by decide +kernel)⟩

theorem test_hyp_stream_flash : ∃ (s : State) (x : Stream) (r : Region), (s.score 5).stream = some x ∧
    x.held = some (word (2 ^ 63), 2) ∧ x.claim = some 0 ∧ x.reg = some r ∧ x.got = [] ∧ r.valid = true ∧ r.ctx = (s.score 5).wb.ctx ∧
    r.r = true ∧ 0 < r.pages ∧ r.index = true ∧ (s.page (r.pageKey 0)).fault = none := by
  refine ⟨started (2 ^ 63) 2 0 0 fun x => { x with held := some (word (2 ^ 63), 2), claim := some 0, reg := some (indexFlash.regions.getD 0 (0, {})).2 },
    _, _, stream_some ?_, ?_, ?_, Eq.refl _, ?_, ?_, ?_, ?_, ?_, ?_, ?_⟩ <;> decide +kernel

theorem test_hyp_stream_put : ∃ (s u v w : State) (x y z : Stream), (s.score 5).stream = some x ∧
    x.held = some (word blockA, word blockB) ∧ x.claim = some 0 ∧ 8 ≤ x.got.length ∧ x.put < geomBytes x.q.geom ∧
    unitWrites s x.who 5 (padLoc 8 (geomBase x.q.geom + 0 % geomSlots x.q.geom * geomBytes x.q.geom + x.put))
      (((x.got.drop x.put).take 256) ++ List.replicate (256 - ((x.got.drop x.put).take 256).length) 0) u ∧
    (v.score 5).stream = some y ∧ y.held = x.held ∧ y.claim = some 0 ∧ 8 ≤ y.got.length ∧ geomBytes y.q.geom ≤ y.put ∧
    (crc32c (y.copied ++ y.got)).toNat = fld (word blockB).toNat 32 32 ∧
    isOk ((unitStore y.who 5 (padLoc 8 y.q.ctl) (leBytes 8 1)).run v) = true ∧
    (w.score 5).stream = some z ∧ z.held = x.held ∧ z.claim = some 0 ∧ 8 ≤ z.got.length ∧ geomBytes z.q.geom ≤ z.put ∧
    (crc32c (z.copied ++ z.got)).toNat ≠ fld (word blockB).toNat 32 32 ∧ quiet w 5 ∧ (w.score 5).search.isNone = true ∧
    (w.score 5).mode ≠ 1 ∧ w.actionEntry (w.score 5).wb.ctx Cause.hallmark.code = 0 := by
  refine ⟨started blockA blockB 0 0 fun x => { pinnedEntry x with claim := some 0, got := [1, 2, 3, 4, 5, 6, 7, 8] }, _,
    started blockA blockB 0 0 fun x => { pinnedEntry x with claim := some 0, got := [1, 2, 3, 4, 5, 6, 7, 8], put := 256 },
    { started blockA blockB 0 0 fun x => { pinnedEntry x with claim := some 0, got := [1, 2, 3, 4, 5, 6, 7, 9], put := 256 } with mem := [] },
    _, _, _, stream_some ?_, ?_, ?_, ?_, ?_, run_of ?_, stream_some ?_, ?_, ?_, ?_, ?_, ?_, ?_, stream_some ?_, ?_, ?_, ?_, ?_, ?_,
    ⟨?_, ?_, ?_, ?_, ?_⟩, ?_, ?_, ?_⟩ <;> decide +kernel

theorem test_hyp_stream_unpin : ∃ (s u : State) (x : Stream), (s.score 5).stream = some x ∧
    x.held = some (word blockA, word blockB) ∧ x.claim.isNone = true ∧ 8 ≤ x.copied.length ∧ x.frame.isNone = true ∧
    (s.translate (s.score 5).wb.ctx (x.table.toNat + 16 * x.entry + 8) .write).toOption = some 0x3408 ∧
    (unitGo x.who 5 0x3408 8).run s = .ok ⟨⟩ u ∧ (u.score 5).stream = some x ∧ plain 0x3408 ∧ fld (u.dword 0x3408).toNat 24 8 ≠ 0 := by
  refine ⟨(started blockA blockB 0 0 fun x => { pinnedEntry x with copied := [1, 2, 3, 4, 5, 6, 7, 8] }).writeWord 0x3408 (word (blockB + 0x1000000)),
    _, _, stream_some ?_, ?_, ?_, ?_, ?_, ?_, run_of ?_, ?_, Or.inl ?_, ?_⟩ <;> decide +kernel

/-! ## Witnesses: pages -/

/-- Context 0 with three levels of tables: 512 KiB pages 0 and 1 of the second GiB, the first mapped to the frame at 0x80000. Its
frame-table entry is ft. -/
def smallPages (items : List Word) (ft : Nat) (leaf : Nat := 2 ^ 63 + 2 ^ 62 + 2 ^ 56 + 2 ^ 57 + 2 ^ 58 + 0x80000) : State :=
  let s := holding items
  let s := s.setCtx 0 { (s.ctx 0) with valid := true, root := 1 }
  let s := (s.writeWord 0x4000 (word (2 ^ 63 + 0x8000))).writeWord 0x8000 (word (2 ^ 63 + 2 ^ 62))
  let s := (s.writeWord 0x8008 (word (2 ^ 63 + 0xC000))).writeWord 0xC000 (word leaf)
  { s.writeWord (0x100000 + 8) (word ft) with pages := { s.pages with ftbase := 0x100000 } }

/-- Addresses of those pages. -/
def page0 : Word := 0x40000000
def page1 : Word := 0x40080000

theorem test_hyp_walk : ∃ s : State, (s.ctx 1).valid = false ∧ (s.ctx 0).valid = true ∧ fld (2 ^ 52) 52 11 ≠ 0 ∧
    s.verify 0x4000 8 = none ∧ bit (s.dword 0x4000).toNat 63 = true ∧ bit (s.dword 0x4008).toNat 63 = false ∧
    s.verify 0x8000 8 = none ∧ bit (s.dword 0x8000).toNat 62 = true ∧ bit (s.dword 0x8010).toNat 63 = false ∧
    s.verify 0xC000 8 = none ∧ bit (s.dword 0xC000).toNat 62 = true ∧ bit (s.dword 0xC008).toNat 63 = false ∧
    walk s 0 0 = .ok (0, 2 ^ 30, false, false, false) ∧ walk s 0 page0.toNat = .ok (0x80000, 2 ^ 19, true, true, true) := by
  refine ⟨smallPages [] 0, ?_⟩
  simp only [← and_assoc]
  exact ⟨⟨by decide +kernel, except_of (by decide +kernel)⟩, except_of (by decide +kernel)⟩

theorem swept_of {s : State} (h : s.here.req.path = []) : swept s := by
  intro p hm; rw [h] at hm; cases hm

theorem missing_of {α : Type} {r : Except XFault α} (h : (match r with
    | .error f => f.cause != .hallmark && f.cause != .uncorr | .ok _ => false) = true) : missing r := by
  cases r with
  | ok a => simp at h
  | error f => simp at h; exact ⟨f, rfl, h.1, h.2⟩

/-- The ways of PGSHARE: with COUNT 1, 0 and 65,535; onto a page that is mapped; from an absent page and from a large one. -/
theorem test_hyp_pgshare : ∃ s : State, s.mayIssue (.pgshare 0 1 7) = true ∧ agrees s ∧ reads s 0 page1 ∧ reads s 1 page0 ∧
    reads s 2 0x80000000 ∧ reads s 3 0 ∧ pageAddr page1 ∧ pageAddr page0 ∧ swept s ∧
    walk s 0 page0.toNat = .ok (0x80000, 2 ^ 19, true, true, true) ∧ place 0x80000 = .dram ∧
    fld (s.dword (s.pages.ftbase.toNat + 8 * 1)).toNat 48 16 = 1 ∧ walkTable s 0 page1.toNat = .ok (some 0xC008) ∧
    bit (s.dword 0xC008).toNat 63 = false ∧ 0xC008 + 8 ≤ s.pages.ftbase.toNat + 8 * 1 ∧
    walkTable s 0 page0.toNat = .ok (some 0xC000) ∧ bit (s.dword 0xC000).toNat 63 = true ∧ missing (walk s 0 0x80000000) ∧
    missing (walkTable s 0 0x80000000) ∧ walkTable s 0 0 = .ok none ∧ walk s 0 0 = .ok (0, 2 ^ 30, false, false, false) ∧
    fld ((smallPages [] 0).dword 0x100008).toNat 48 16 = 0 ∧ fld ((smallPages [] (65535 * 2 ^ 48)).dword 0x100008).toNat 48 16 = 65535 :=
  ⟨smallPages [page1, page0, 0x80000000, 0] (2 ^ 48), by decide +kernel, rfl, rfl, rfl, rfl, rfl, ⟨by decide, by decide⟩,
    ⟨by decide, by decide⟩, swept_of (by decide +kernel), except_of (by decide +kernel), by decide +kernel, by decide +kernel,
    except_of (by decide +kernel), by decide +kernel, by decide +kernel, except_of (by decide +kernel), by decide +kernel,
    missing_of (by decide +kernel), missing_of (by decide +kernel), except_of (by decide +kernel), except_of (by decide +kernel),
    by decide +kernel, by decide +kernel⟩

theorem test_hyp_page_kv : ∃ s : State, s.mayIssue (.pgdrop 0) = true ∧ reads s 0 page0 ∧
    walk s 0 page0.toNat = .ok (Config.dramEnd, 2 ^ 19, true, true, true) ∧ place Config.dramEnd ≠ .dram :=
  ⟨smallPages [page0] 0 (2 ^ 63 + 2 ^ 62 + 2 ^ 56 + 2 ^ 57 + 2 ^ 58 + Config.dramEnd), by decide +kernel, rfl, except_of (by decide +kernel),
    by decide +kernel⟩

theorem test_hyp_pgshare_align : ∃ s : State, s.mayIssue (.pgshare 0 1 7) = true ∧ reads s 0 1 ∧ reads s 1 0 ∧
    (1 : Word).toNat % 2 ^ 19 ≠ 0 ∧ s.parks .align :=
  ⟨holding [1, 0], by decide +kernel, rfl, rfl, by decide, parks_of (by decide +kernel)⟩

/-- PGDROP with COUNT 2, 1 without and with a pin. -/
theorem test_hyp_pgdrop : ∀ ft ∈ [2 * 2 ^ 48, 2 ^ 48, 2 ^ 48 + 2 ^ 40],
    (smallPages [page0] ft).mayIssue (.pgdrop 0) = true ∧ 0 < fld ((smallPages [page0] ft).dword 0x100008).toNat 48 16 ∧
    ((walkTable (smallPages [page0] ft) 0 page0.toNat).toOption == some (some 0xC000)) = true ∧
    (smallPages [page0] ft).windowRuns { seq := 0, ctx := some 0, range := some (page0.toNat, page0.toNat + 2 ^ 19) } = false ∧
    (smallPages [page0] ft).heldUnder { seq := 0, ctx := some 0, range := some (page0.toNat, page0.toNat + 2 ^ 19) } = false := by
  decide +kernel

/-- Another running core holds a store under the page. -/
def heldPage : State :=
  (smallPages [page0] (2 ^ 48)).setCore 1 { run := .running, req := { path := [{ heldAt 0x80008 1 (.store [1] none) 0 with
    acc := { walk := 0, loc := 0x80008, len := 1, page := (page0.toNat, 2 ^ 19) } }] } }

theorem test_hyp_pgdrop_held : ∃ s : State, s.mayIssue (.pgdrop 0) = true ∧ reads s 0 page0 ∧ swept s ∧
    s.windowRuns { seq := 0, ctx := some 0, range := some (page0.toNat, page0.toNat + 2 ^ 19) } = false ∧
    s.heldUnder { seq := 0, ctx := some 0, range := some (page0.toNat, page0.toNat + 2 ^ 19) } = true :=
  ⟨heldPage, by decide +kernel, reads_of (by decide +kernel), swept_of (by decide +kernel), by decide +kernel, by decide +kernel⟩

theorem test_hyp_invalidation : ∃ (s t : State) (i : Inval) (rest : List Inval), s.pages.invals = i :: rest ∧ s.heldUnder i = false ∧
    s.windowRuns i = false ∧ s.pages.heldInv = [] ∧ t.pages.invals = [i] ∧ t.heldUnder i = true ∧ State.reset.pages.invals = [] :=
  ⟨{ mapped [] with pages := { invals := [{ seq := 1, ctx := none, range := none }] } },
    { heldPage with pages := { invals := [{ seq := 1, ctx := none, range := none }] } }, _, [], rfl, by decide +kernel, by decide +kernel,
    rfl, rfl, by decide +kernel, rfl⟩

/-- A channel with a window on the page, running or told to stop. -/
def channelOn (told : Bool) : State :=
  let s := smallPages [page0] (2 ^ 48)
  { s with banks := { s.banks with chans := [(3, { st := .running, window := [(page0.toNat, 0x80000)], ctx := 0, revoked := told })] } }

theorem test_hyp_pgdrop_channel : ∀ told : Bool, ∃ s : State, s.mayIssue (.pgdrop 0) = true ∧ reads s 0 page0 ∧ swept s ∧
    walk s 0 page0.toNat = .ok (0x80000, 2 ^ 19, true, true, true) ∧ 0 < fld (s.dword 0x100008).toNat 48 16 ∧
    s.windowRuns { seq := 0, ctx := some 0, range := some (page0.toNat, page0.toNat + 2 ^ 19) } = true ∧
    s.windowTold { seq := 0, ctx := some 0, range := some (page0.toNat, page0.toNat + 2 ^ 19) } = told := by
  intro told
  cases told
  · exact ⟨channelOn false, by decide +kernel, reads_of (by decide +kernel), swept_of (by decide +kernel), except_of (by decide +kernel),
      by decide +kernel, by decide +kernel, by decide +kernel⟩
  · exact ⟨channelOn true, by decide +kernel, reads_of (by decide +kernel), swept_of (by decide +kernel), except_of (by decide +kernel),
      by decide +kernel, by decide +kernel, by decide +kernel⟩

theorem test_hyp_invalidation_held : ∃ (s : State) (i v : Inval), s.pages.invals = [i] ∧ s.heldUnder i = false ∧ s.windowRuns i = false ∧
    s.pages.heldInv = [v] :=
  ⟨{ mapped [] with pages := { invals := [{ seq := 1, ctx := none, range := none }], heldInv := [{ seq := 0, ctx := some 1, range := none }] } },
    _, _, rfl, by decide +kernel, by decide +kernel, rfl⟩

/-! ## Witnesses: coolant -/

/-- The coolant controller with these zones, at a time, holding items. -/
def cooled (zs : Sparse Zone) (items : List Word := []) (now : Nat := 0) (f : Cool → Cool := id) : State :=
  { holding items with stamp := now, cool := f { zones := zs } }

theorem lasted_of {o : Option Nat} {now n : Nat} (h : (match o with | some t => decide (t + n ≤ now) | none => false) = true) :
    lasted o now n := by
  cases o with
  | none => simp at h
  | some t => exact ⟨t, rfl, by simpa using h⟩

theorem named_of {mask : Word} (p : Nat → Bool) (h : ((List.range 36).all fun z => !bit mask.toNat z || p z) = true) :
    ∀ z, named mask z → p z = true := by
  intro z hz
  have := List.all_eq_true.mp h z (List.mem_range.mpr hz.1)
  simpa [hz.2] using this

/-- CRSV of zones 0 and 35 at 0 < MINF ≤ MAXF = 160: free, one held by another, one dry, no room; the bounds of the operands. -/
theorem test_hyp_crsv : ∃ x y : Word, maskOk x ∧ y.toNat < 2 ^ 24 ∧ fld y.toNat 0 12 ≤ fld y.toNat 12 12 ∧
    (∀ z, named x z → fld y.toNat 12 12 ≤ capOf z) ∧
    ∀ zs ∈ [([] : Sparse Zone), [(35, { held := true, holder := 7 })], [(0, { state := 10 })]],
      (cooled zs [x, y]).mayIssue (.crsv 0 1) = true ∧ ((cooled zs [x, y]).here.checkerBad == false) = true :=
  ⟨0x800000001, 0xA00A0, ⟨by decide, by decide⟩, by decide, by decide,
    fun z hz => of_decide_eq_true (named_of (fun z => decide (fld (0xA00A0 : Word).toNat 12 12 ≤ capOf z)) (by decide) z hz),
    by decide +kernel⟩

theorem test_hyp_crsv_ways : ∃ x y : Word, named x 35 ∧ named x 0 ∧
    (((cooled [(35, { held := true, holder := 7 })]).zone 35).held &&
      ((cooled [(35, { held := true, holder := 7 })]).zone 35).holder != ready.here.job.handle) = true ∧
    ((cooled [(0, { state := 10 })]).zone 0).state = 10 ∧
    kept (cooled []) (granted x 0 0 (fld y.toNat 12 12) (fld y.toNat 0 12)) ≤ (cooled []).cool.budget ∧
    (cooled [] [] 0 fun c => { c with budget := 999 }).cool.budget <
      kept (cooled [] [] 0 fun c => { c with budget := 999 }) (granted x 0 0 (fld y.toNat 12 12) (fld y.toNat 0 12)) :=
  ⟨0x800000001, 0xA00A0, ⟨by decide, by decide⟩, ⟨by decide, by decide⟩, by decide +kernel, by decide +kernel, by decide +kernel,
    by decide +kernel⟩

theorem test_hyp_crsv_operand : ∃ s : State, s.mayIssue (.crsv 0 1) = true ∧ s.mayIssue (.crel 0) = true ∧ s.mayIssue (.cqry 2) = true ∧
    reads s 0 (0x1000000000 : Word) ∧ reads s 1 (0x1000001 : Word) ∧ reads s 2 36 ∧ ¬ maskOk 0x1000000000 ∧ ¬ maskOk 0 ∧
    2 ^ 24 ≤ (0x1000001 : Word).toNat ∧ fld (0x001002 : Word).toNat 12 12 < fld (0x001002 : Word).toNat 0 12 ∧
    named (0x80000000 : Word) 31 ∧ capOf 31 < fld (0x0A1000 : Word).toNat 12 12 ∧ s.parks .operand :=
  ⟨holding [0x1000000000, 0x1000001, 36], by decide +kernel, by decide +kernel, by decide +kernel, rfl, rfl, rfl,
    fun h => absurd h.2 (by decide), fun h => h.1 rfl, by decide, by decide, ⟨by decide, by decide⟩, by decide, parks_of (by decide +kernel)⟩

theorem test_hyp_crel_cqry : ∃ s : State, s.mayIssue (.crel 0) = true ∧ agrees s ∧ reads s 0 0x800000001 ∧ maskOk 0x800000001 ∧
    (s.zone 35).held = true ∧ (s.zone 35).holder = s.here.job.handle ∧ s.mayIssue (.cqry 1) = true ∧ reads s 1 35 :=
  ⟨cooled [(35, { held := true, minf := 30, maxf := 200 })] [0x800000001, 35], by decide +kernel, rfl, rfl, ⟨by decide, by decide⟩,
    by decide +kernel, by decide +kernel, by decide +kernel, rfl⟩

/-- A HELD waybill in entry 5 that asks for zones 0 and 1 at 40 to 160, held behind the stream that entry 6 is. -/
def cold (cool : Word) (zs : Sparse Zone) (strm : List Word := []) (st : WbState := .running) (k : Nat := 0) : State :=
  let s := (cooled zs).setScore 5 { seq := 1, st := .held, wb := { cool := cool, strm := strm, kind := k } }
  s.setScore 6 { seq := 1, st := st }

/-- COOL: MINF 40, MAXF 160, zones 0 and 1. -/
def wish : Word := word (160 * 2 ^ 48 + 40 * 2 ^ 36 + 3)

theorem test_hyp_cool_grant : ∀ s ∈ [cold 0 [], cold wish [] [] .running 1, cold wish [] [6], cold wish [] [6] .ended, cold wish [] [6] .ready,
    cold wish [(1, { state := 8 })], cold wish [(0, { held := true, holder := 9 })]],
    (s.liveScores.filter fun p => p.2.st == .held) = [(5, s.score 5)] ∧
    (s.score 5).st = .held := by decide +kernel

theorem test_hyp_cool_grant_free : (∀ z, named (3 : Word) z → ((cold wish [] [6]).zone z).held = false) ∧
    kept (cold wish [] [6]) (granted 3 5 0 160 40) ≤ (cold wish [] [6]).cool.budget ∧ (cold wish [] [6]).named 6 = some 6 ∧
    ((cold wish [] [6]).score 6).st = .running ∧ fld wish.toNat 0 36 = 3 := by
  refine ⟨fun z hz => ?_, by decide +kernel, by decide +kernel, by decide +kernel, by decide +kernel⟩
  simpa using named_of (fun z => !((cold wish [] [6]).zone z).held) (by decide +kernel) z hz

theorem test_hyp_cool_grant_waits : ¬ (∀ z, named (3 : Word) z → ((cold wish [(1, { state := 8 })]).zone z).state = 0 ∨
    10 < ((cold wish [(1, { state := 8 })]).zone z).state) :=
  fun h => absurd (h 1 ⟨by decide, by decide⟩) (by decide +kernel)

/-- Readings of the 36 zones. -/
def reading (dry : Bool) (t : BitVec 16) : List ZoneReading :=
  List.replicate 36 { dry := dry, flow := 20, t0 := t, t1 := t, t2 := t, t3 := t }

theorem test_hyp_measure : ∃ s : State, (reading true 0).length = 36 ∧ (∀ n ∈ s.cool.measured, n + 800 ≤ s.stamp) ∧ (reading true 0)[35]? = some
    { dry := true, flow := 20, t0 := 0, t1 := 0, t2 := 0, t3 := 0 } ∧ (s.zone 35).state = 0 ∧ (s.zone 34).state = 11 ∧
    (s.zone 33).tripped = true ∧ (s.zone 35).tripArmed = true ∧
    s.cool.ttrip.toInt ≤ ((s.zone 35).read 35 { dry := false, flow := 20, t0 := 0x690, t1 := 0, t2 := 0, t3 := 0 } 0 0).tmax.toInt ∧
    s.cool.measured = some 800 :=
  ⟨cooled [(33, { tripped := true, state := 3 }), (34, { state := 11 })] [] 1600 fun c => { c with measured := some 800 },
    by decide +kernel, by decide +kernel, by decide +kernel, by decide +kernel, by decide +kernel, by decide +kernel,
    by decide +kernel, by decide +kernel, by decide +kernel⟩

theorem test_hyp_limits : ∃ s : State, (s.zone 3).tripped = true ∧ lasted (s.zone 3).coolSince s.stamp 80000 ∧
    (s.zone 4).tripped = false ∧ s.cool.limit = false ∧ lasted s.cool.badSince s.stamp 800000 ∧
    lasted s.cool.goodSince s.stamp 80000000 :=
  ⟨cooled [(3, { tripped := true, state := 3, coolSince := some 79920000 })] [] 80000000 fun c =>
    { c with badSince := some 0, goodSince := some 0 }, by decide +kernel, lasted_of (by decide +kernel), by decide +kernel,
    by decide +kernel, lasted_of (by decide +kernel), lasted_of (by decide +kernel)⟩

/-- Each time of the dry sequence, at its last tick. -/
theorem test_hyp_dry : ∀ p ∈ [(3, 1600), (4, 9600), (5, 409600), (6, 1209600), (7, 1289600), (7, 1609600)],
    ((cooled [(2, { state := p.1, seq0 := 100 })] [] (100 + p.2)).zone 2).state = p.1 ∧
    ((cooled [(2, { state := p.1, seq0 := 100 })] [] (100 + p.2)).zone 2).seq0 + p.2 ≤ 100 + p.2 ∧
    ((cooled [(2, { state := p.1, seq0 := 100 })] [] (99 + p.2)).stamp < 100 + p.2) := by decide +kernel

theorem test_hyp_dry_verify : ∃ s : State, (s.zone 2).state = 7 ∧ lasted (s.zone 2).wetSince s.stamp 80000 ∧
    (s.zone 2).seq0 + 1289600 ≤ s.stamp ∧ (s.zone 3).state = 7 ∧ ¬ lasted (s.zone 3).wetSince s.stamp 80000 ∧
    (s.zone 3).seq0 + 1609600 ≤ s.stamp ∧ (s.zone 3).fails = 2 ∧ (s.zone 4).fails ≠ 2 ∧ (s.zone 4).state = 9 :=
  ⟨cooled [(2, { state := 7, wetSince := some 1529600 }), (3, { state := 7, fails := 2 }), (4, { state := 9 })] [] 1609600,
    by decide +kernel, lasted_of (by decide +kernel), by decide +kernel, by decide +kernel,
    fun ⟨_, h, _⟩ => absurd (h.symm.trans (show _ = none by decide +kernel)) (by simp), by decide +kernel, by decide +kernel,
    by decide +kernel, by decide +kernel⟩

theorem test_hyp_valves : ∃ s : State, s.cool.valved = some 800 ∧ 800 + 800 ≤ s.stamp ∧ (s.zone 0).state = 11 ∧ (s.zone 1).state = 8 ∧
    (s.zone 2).held = true ∧ (s.zone 3).state = 5 ∧
    ({ s with stamp := 1599 } : State).stamp < 800 + 800 :=
  ⟨cooled [(0, { state := 11 }), (1, { state := 8, valve := 51 }), (2, { held := true, minf := 40, maxf := 160 }), (3, { state := 5 })] []
    1600 fun c => { c with valved := some 800 }, by decide +kernel, by decide +kernel, by decide +kernel, by decide +kernel,
    by decide +kernel, by decide +kernel, by decide +kernel⟩

theorem each_of {α : Type} (l : List α) (p : Nat → α → Bool) (h : (l.zipIdx.all fun x => p x.2 x.1) = true) :
    ∀ y q, l[y]? = some q → p y q = true := by
  intro y q hq
  exact List.all_eq_true.mp h (q, y) (List.mem_zipIdx_iff_getElem?.mpr hq)

/-- Readings of which zone 0's is at TWARN; and the zone, armed, after 800 ticks of it, with a task on its first core. -/
def warmed : List ZoneReading :=
  (List.range 36).map fun z => { dry := false, flow := 20, t0 := if z = 0 then 0x5F0 else 0, t1 := 0, t2 := 0, t3 := 0 }
def warm : State := cooled ((List.range 36).map fun z => (z, if z = 0 then { hotSince := some 0, tempArmed := true, valve := 51 } else { valve := 51 })) [] 800

theorem test_hyp_measure_warm : ∃ r : ZoneReading, warmed.length = 36 ∧ warm.cool.measured = none ∧ warmed[0]? = some r ∧
    (∀ y q, warmed[y]? = some q → (!q.dry && (temps q).all (fun x => decide (x < warm.cool.ttrip.toInt)) && (warm.zone y).valve != 255 &&
      (y == 0 || (temps q).all fun x => decide (x < warm.cool.twarn.toInt))) = true) ∧
    (warm.zone 0).tempArmed = true ∧ lasted (warm.zone 0).hotSince warm.stamp 800 ∧ (∃ x ∈ temps r, warm.cool.twarn.toInt ≤ x) ∧
    ∀ k, under 0 k → (warm.core k).run = .running → parksOn warm k .cooltemp := by
  refine ⟨_, by decide +kernel, rfl, rfl, each_of _ _ (by decide +kernel), by decide +kernel, lasted_of (by decide +kernel),
    ⟨_, List.mem_cons_self, by decide +kernel⟩, ?_⟩
  intro k hk hr
  obtain ⟨n, rfl⟩ : ∃ n : Fin 8, k = n.val := ⟨⟨k, by have := hk.2; omega⟩, rfl⟩
  have one : ∀ n : Fin 8, (warm.core n.val).run = .running → n = 0 := by decide +kernel
  rw [one n hr]
  exact ⟨by decide +kernel, by decide +kernel, rfl, rfl, rfl⟩

theorem test_hyp_valves_trip : ∃ s : State, (∀ n ∈ s.cool.valved, n + 800 ≤ s.stamp) ∧ (s.zone 0).tripped = true ∧ (s.zone 0).state = 3 ∧
    (s.zone 1).tripped = false ∧ (s.zone 1).state = 8 :=
  ⟨cooled [(0, { tripped := true, state := 3 }), (1, { state := 8 })], by decide +kernel, by decide +kernel, by decide +kernel,
    by decide +kernel, by decide +kernel⟩

theorem test_hyp_dry_waits : ∃ s : State, (s.zone 3).tripped = true ∧ (s.zone 9).state = 9 ∧ (s.zone 9).tripped = false ∧
    (s.zone 4).state ≠ 3 ∧ (s.zone 4).state ≠ 6 ∧ (s.zone 4).state ≠ 7 :=
  ⟨cooled [(3, { tripped := true, state := 3 }), (9, { state := 9 }), (4, { state := 4 })], by decide +kernel, by decide +kernel,
    by decide +kernel, by decide +kernel, by decide +kernel, by decide +kernel⟩

theorem test_hyp_limits_flow : ∃ s t : State, s.cool.limit = false ∧ lasted s.cool.lowFlowSince s.stamp 800000 ∧ t.cool.limit = true ∧
    lasted t.cool.goodSince t.stamp 80000000 :=
  ⟨cooled [] [] 800000 fun c => { c with lowFlowSince := some 0 }, cooled [] [] 80000000 fun c => { c with limit := true, goodSince := some 0 },
    rfl, lasted_of (by decide +kernel), rfl, lasted_of (by decide +kernel)⟩

theorem test_hyp_cool_granted : ∃ (s : State) (c : Score), (s.liveScores.filter fun p => p.2.st == .held) = [(5, c)] ∧ s.score 5 = c ∧
    c.cooled = true :=
  ⟨(cold wish []).setScore 5 { seq := 1, st := .held, wb := { cool := wish }, cooled := true }, _, by decide +kernel, rfl, rfl⟩

/-! ## Witnesses: registers -/

/-- Register writes by name at the ends of their ranges. -/
theorem test_hyp_register_writes : registerWrite (.tollCapWrite 8 0x3F 1) 0x1023F 1 ∧ registerWrite (.stackBucketWrite 15 0 1) 0x303C0 1 ∧
    registerWrite (.contextWrite 63 1) 0x203F0 1 ∧ registerWrite (.regionWrite 255 1) 0x43FC0 1 ∧
    registerWrite (.regionFillWrite 255 0) 0x43FD8 0 ∧ registerWrite (.coolRearm 35 1) 0x60460 1 ∧
    registerWrite (.coolFloorWrite 35 1) 0x60470 1 ∧ registerWrite (.regWrite 0x7FFF8 1) 0x7FFF8 1 ∧
    registerWrite (.recctlWrite 1) 0x70000 1 ∧ registerWrite (.hxgo 1) 0x72418 1 := by
  refine ⟨?_, ?_, ?_, ?_, ?_, ?_, ?_, ?_, ?_, ?_⟩
  · exact Or.inl ⟨8, 0x3F, by decide, by decide, rfl, by decide⟩
  · exact Or.inr (Or.inl ⟨15, 0, by decide, by decide, rfl, by decide⟩)
  · exact Or.inr (Or.inr (Or.inl ⟨63, by decide, rfl, by decide⟩))
  · exact Or.inr (Or.inr (Or.inr (Or.inr (Or.inr (Or.inl ⟨255, by decide, rfl, by decide⟩)))))
  · exact Or.inr (Or.inr (Or.inr (Or.inr (Or.inr (Or.inr (Or.inl ⟨255, by decide, rfl, by decide⟩))))))
  · simp only [registerWrite]; exact Or.inr <| Or.inr <| Or.inr <| Or.inr <| Or.inr <| Or.inr <| Or.inr <| Or.inr <| Or.inr <| Or.inr <|
      Or.inl ⟨35, by decide, rfl, by decide⟩
  · simp only [registerWrite]; exact Or.inr <| Or.inr <| Or.inr <| Or.inr <| Or.inr <| Or.inr <| Or.inr <| Or.inr <| Or.inr <| Or.inr <|
      Or.inr <| Or.inl ⟨35, by decide, rfl, by decide⟩
  all_goals simp [registerWrite]

/-- A linked package whose interface is locked, one that is not, one without power. -/
theorem test_hyp_register_state : ∃ s t u : State, s.trust.powered = true ∧ s.trust.recovery = false ∧ refused s 0x20000 ∧
    refused s 0x70FFF ∧ ¬ refused s 0x21000 ∧ ¬ refused s 0x1FFFF ∧ t.trust.powered = true ∧ t.trust.recovery = false ∧
    ¬ refused t 0x20000 ∧ u.trust.powered = false :=
  ⟨{ State.reset with trust := { tdisp := .run } }, State.reset, { State.reset with trust := { powered := false } },
    by decide +kernel, by decide +kernel, ⟨Or.inr (by decide +kernel), Or.inl ⟨by decide, by decide⟩⟩,
    ⟨Or.inr (by decide +kernel), Or.inr ⟨by decide, by decide⟩⟩,
    fun h => h.2.elim (fun h => absurd h.2 (by decide)) (fun h => absurd h.1 (by decide)),
    fun h => h.2.elim (fun h => absurd h.1 (by decide)) (fun h => absurd h.1 (by decide)), by decide +kernel, by decide +kernel,
    fun h => h.1.elim (absurd · (by decide +kernel)) (absurd · (by decide +kernel)), by decide +kernel⟩

/-- A value that goes in and one that does not, at the bounds of the registers of plain value. -/
theorem test_hyp_plain_registers : State.reset.writeReg 0x10200 (0xFFFFFFFF : Word) ≠ State.reset ∧
    State.reset.writeReg 0x10200 (0x100000000 : Word) = State.reset ∧ (State.reset.writeReg 0x20410 21).readReg 0x20410 = 21 ∧
    State.reset.writeReg 0x20410 22 = State.reset ∧ (State.reset.writeReg 0x20440 0xFFFFF).readReg 0x20440 = 0x80000 ∧
    (State.reset.writeReg 0x303D8 32).readReg 0x303D8 = 32 ∧ State.reset.writeReg 0x303D8 34 = State.reset := by decide +kernel

/-- A live waybill in entry 5, a serai open to the host, a dead zone, one open invalidation slot and none. -/
def registerState (n : Nat) : State :=
  let s := ready.setScore 5 { seq := 1, st := .running }
  let s := s.setSerai 7 { ctx := some 0, hostOk := true }
  { s with pages := { inviss := n }, cool := { zones := [(35, { state := 10 })] } }

theorem test_hyp_acting_registers : (registerState 15).named 5 = some 5 ∧ (registerState 15).named 6 = none ∧
    ((registerState 15).serai 7).hostOk = true ∧ ((registerState 15).serai 7).ctx ≠ none ∧ ((registerState 15).serai 8).ctx = none ∧
    ((registerState 15).zone 35).state = 10 ∧ (registerState 15).pages.inviss - (registerState 15).pages.invdone ≠ 16 ∧
    (registerState 16).pages.inviss - (registerState 16).pages.invdone = 16 ∧ (registerState 15).trust.tdisp ≠ .error ∧
    (registerState 15).sched.master = 0 ∧ bit (registerState 15).sched.fenced.toNat 0 = false := by decide +kernel

/-- Values that the acting registers take and ignore. -/
theorem test_hyp_acting_values : fld (0x80000FFFFFFFC000 : Word).toNat 44 19 = 0 ∧ fld (0x80000FFFFFFFC000 : Word).toNat 0 14 = 0 ∧
    bit (0x80000FFFFFFFC000 : Word).toNat 63 = true ∧ fld (0x0000100000000000 : Word).toNat 44 19 ≠ 0 ∧
    fld (0xC03F : Word).toNat 16 48 = 0 ∧ fld (0xC03F : Word).toNat 6 8 = 0 ∧ fld (0xA00FF00000000000 : Word).toNat 61 2 ≤ 1 ∧
    bit (0xA00FF00000000000 : Word).toNat 58 = false ∧ fld (0xA00FF00000000000 : Word).toNat 0 44 = 0 ∧
    fld (0xE000007 : Word).toNat 24 4 = 14 ∧ fld (0xE000007 : Word).toNat 12 12 = 0 ∧ fld (0xE000007 : Word).toNat 28 36 = 0 := by
  decide

/-! ## Witnesses: the host, peers, power -/

theorem admitted_of {s : State} {pa n : Nat} (h : (s.logRoom ⟨s.records.setting, 0x180, 0⟩ pa n &&
    (s.ordered ⟨s.records.setting, 0x180, 0⟩ pa n).isSome) = true) : ∃ u, admitted s pa n u := by
  simp only [Bool.and_eq_true, Option.isSome_iff_exists] at h
  obtain ⟨h, v, hv⟩ := h
  exact ⟨(v.passGate hostGate pa).chargeDram pa n, h, v, hv, rfl⟩

/-- 1 GiB further on nothing is mapped: an open block, its last byte, one byte too many, a register, plaintext. -/
theorem test_hyp_host : ∃ s t : State, linked s ∧ openTo s 0x7FFF 1 ∧ openTo s 0x7000 0x1000 ∧ ¬ openTo s 0x7000 0x1001 ∧
    openTo s Config.dramEnd 8 ∧ registerAt 0x20000070000 8 ∧ ¬ registerAt 0x20000070004 8 ∧ ¬ registerAt 0x7FF8 8 ∧
    linked t ∧ ¬ openTo t 0x80000 8 ∧ (∃ u, admitted s 0x7000 0x1000 u) ∧ ¬ linked { s with trust := { s.trust with recovery := true } } :=
  ⟨State.reset, { State.reset.writeWord 0x8 (word (2 ^ 37)) with pages := { ftbase := 0 } }, ⟨rfl, rfl⟩,
    ⟨Or.inl (by decide +kernel), by decide, by decide, fun _ => by decide +kernel⟩,
    ⟨Or.inl (by decide +kernel), by decide, by decide, fun _ => by decide +kernel⟩, fun h => absurd h.2.2.1 (by decide),
    ⟨Or.inr (by decide +kernel), by decide, by decide, fun h => absurd h (by decide +kernel)⟩,
    ⟨by decide +kernel, rfl, by decide⟩, fun h => absurd h.2.2 (by decide), fun h => absurd h.1 (by decide +kernel), ⟨rfl, rfl⟩,
    fun h => absurd (h.2.2.2 (by decide +kernel)) (by decide +kernel), admitted_of (by decide +kernel),
    fun h => absurd h.2 (by decide +kernel)⟩

/-- A good and a bad grain after an access has passed. -/
theorem test_hyp_host_read : ∃ s u v : State, openTo s 0x7000 8 ∧ admitted s 0x7000 8 u ∧ u.verify 0x7000 8 = none ∧
    openTo (s.setGrain 0x70 (1, false)) 0x7000 8 ∧ admitted (s.setGrain 0x70 (1, false)) 0x7000 8 v ∧ v.verify 0x7000 8 ≠ none :=
  ⟨State.reset, _, _, ⟨Or.inl (by decide +kernel), by decide, by decide, fun _ => by decide +kernel⟩,
    ⟨by decide +kernel, State.reset, by decide +kernel, rfl⟩, by decide +kernel,
    ⟨Or.inl (by decide +kernel), by decide, by decide, fun _ => by decide +kernel⟩,
    ⟨by decide +kernel, State.reset.setGrain 0x70 (1, false), by decide +kernel, rfl⟩, by decide +kernel⟩

theorem test_hyp_registers_from_host : ∃ s t : State, linked s ∧ registerAt 0x20000070000 8 ∧ ¬ refused s 0x70000 ∧ linked t ∧ refused t 0x70000 :=
  ⟨State.reset, { State.reset with trust := { tdisp := .run } }, ⟨rfl, rfl⟩, ⟨by decide +kernel, rfl, by decide⟩,
    fun h => h.1.elim (absurd · (by decide +kernel)) (absurd · (by decide +kernel)), ⟨rfl, rfl⟩,
    ⟨Or.inr (by decide +kernel), Or.inr ⟨by decide, by decide⟩⟩⟩

/-- The EXPORT range 0x7000 to 0x70FF, at its last byte and one past it. -/
theorem test_hyp_peer : ∃ s : State, s.trust.powered = true ∧ s.trust.explo.toNat ≤ 0x7000 ∧ 0x7000 + 256 ≤ s.trust.exphi.toNat + 1 ∧
    ¬ (0x7000 + 257 ≤ s.trust.exphi.toNat + 1) ∧ openTo s 0x7000 256 ∧ openTo s 0x7000 8 ∧ (∃ u, admitted s 0x7000 256 u) ∧
    (∃ u, admitted s 0x7000 8 u ∧ u.verify 0x7000 8 = none) ∧ (0x7000 : Nat) % 8 = 0 ∧ peerBytes (.atomic .add 1 0) = 8 :=
  ⟨{ State.reset with trust := { explo := 0x7000, exphi := 0x70FF } }, by decide +kernel, by decide +kernel, by decide +kernel,
    by decide +kernel, ⟨Or.inl (by decide +kernel), by decide, by decide, fun _ => by decide +kernel⟩,
    ⟨Or.inl (by decide +kernel), by decide, by decide, fun _ => by decide +kernel⟩, admitted_of (by decide +kernel),
    ⟨_, ⟨by decide +kernel, _, rfl, rfl⟩, by decide +kernel⟩, by decide, rfl⟩

/-- A machine with a context open to the host, its serai 0, and a transfer of 256 bytes to 0x3000 queued. -/
def moving (m : HostMove → HostMove := id) : State :=
  let s := paged (mapped [])
  let s := (s.setCtx 0 { (s.ctx 0) with hostio := true }).setSerai 0 { ctx := some 0 }
  { s with trust := { s.trust with moves := [m { host := 0, dev := 0x3000, len := 256, ctx := 0, serai := 0 }] } }

theorem test_hyp_host_transfer : ∃ s u : State, s.trust.moves = [{ host := 0, dev := 0x3000, len := 256, ctx := 0, serai := 0 }] ∧
    s.trust.tdisp ≠ .error ∧ (s.ctx 0).hostio = true ∧ (s.serai 0).ctx = some 0 ∧ s.translate 0 0x3000 .write = .ok 0x3000 ∧
    admitted s 0x3000 256 u ∧ plain 0x3000 :=
  ⟨moving, _, by decide +kernel, by decide +kernel, by decide +kernel, by decide +kernel, except_of (by decide +kernel),
    ⟨by decide +kernel, _, rfl, rfl⟩, Or.inl (by decide +kernel)⟩

theorem test_hyp_host_transfer_refused : (moving.ctx 1).hostio = false ∧ (moving.serai 1).ctx ≠ some 0 ∧
    (∃ f, moving.translate 0 0x40000000 .write = .error f) ∧ State.reset.trust.moves = [] := by
  refine ⟨by decide +kernel, by decide +kernel, ?_, rfl⟩
  have h : (match moving.translate 0 0x40000000 .write with | .error _ => true | .ok _ => false) = true := by decide +kernel
  split at h
  · exact ⟨_, ‹_›⟩
  · exact absurd h (by decide)

/-- A transfer of n grains, at its grain a, onto a machine that records, whose ring of the first channel has one place left. -/
def recordedMove (a n : Nat) : State :=
  let s := moving fun m => { m with len := 256 * n, at_ := 256 * a }
  let s := s.write 0x20000 (([0x21000, 9, 511, 0] : List Nat).flatMap (leBytes 8))
  { s with records := { s.records with setting := 1, ringbase := 0x20000 } }

/-- What the transfer of n grains is. -/
def moveOf (a n : Nat) : HostMove := { host := 0, dev := 0x3000, len := 256 * n, ctx := 0, serai := 0, at_ := 256 * a }

/-- The first grain of that transfer passes. -/
def firstIn (s : State) : State :=
  (((s.ordered ⟨s.records.setting, 0x180, 0⟩ 0x3000 256).getD s).passGate hostGate 0x3000).chargeDram 0x3000 256
def firstMoved (s : State) : State :=
  { firstIn s with fresh := (firstIn s).fresh + 1 }.write 0x3000 (getBytes (firstIn s).host 0 256)

theorem firstIn_of {s : State} (h : (s.logRoom ⟨s.records.setting, 0x180, 0⟩ 0x3000 256 &&
    (s.ordered ⟨s.records.setting, 0x180, 0⟩ 0x3000 256).isSome) = true) : admitted s 0x3000 256 (firstIn s) := by
  simp only [Bool.and_eq_true, Option.isSome_iff_exists] at h
  obtain ⟨h, v, hv⟩ := h
  exact ⟨h, v, hv, by simp [firstIn, hv]⟩

/-- One grain has moved and it was all, or another follows that its home does not admit; the host serves the first (a free value). -/
theorem test_hyp_host_grains (h : Config.hostFails 0 = false) : ∃ u v : Nat → State, (u 0).trust.moves = [moveOf 0 1] ∧
    grainsMove (moveOf 0 1) 0 1 u ∧ (v 0).trust.moves = [moveOf 0 2] ∧ grainsMove (moveOf 0 2) 0 1 v ∧
    (v 1).translate 0 (0x3000 + 256 * 1) .write = .ok 0x3100 ∧ barred (v 1) 0x3100 256 := by
  have go : ∀ (s : State) (n : Nat), (s.translate 0 0x3000 .write).toOption = some 0x3000 →
      (s.logRoom ⟨s.records.setting, 0x180, 0⟩ 0x3000 256 && (s.ordered ⟨s.records.setting, 0x180, 0⟩ 0x3000 256).isSome) = true →
      (firstIn s).fresh = 0 → grainsMove (moveOf 0 n) 0 1 fun i => if i = 0 then s else firstMoved s := by
    intro s n ht ha hf i _ hi
    obtain rfl : i = 0 := by omega
    refine ⟨0x3000, firstIn s, except_of (beq_iff_eq.mpr ht), Or.inl (by decide), firstIn_of ha, by rw [hf]; exact h, rfl⟩
  refine ⟨fun i => if i = 0 then recordedMove 0 1 else firstMoved (recordedMove 0 1),
    fun i => if i = 0 then recordedMove 0 2 else firstMoved (recordedMove 0 2), ?_, go _ 1 ?_ ?_ ?_, ?_, go _ 2 ?_ ?_ ?_,
    except_of ?_, Or.inl ?_⟩ <;> decide +kernel

/-- Before its next grain: one that waits, one whose address does not translate, one that the host fails (a free value). -/
theorem test_hyp_host_grain_stops (h : Config.hostFails 0 = true) : ∃ (s t : State) (f : XFault) (w : State),
    s.trust.moves = [moveOf 1 2] ∧ barred ({ s with records := { s.records with ringbase := 0x21000 } }) 0x3100 256 ∧
    t.trust.moves = [{ moveOf 0 1 with dev := 0x80000 }] ∧ t.translate 0 0x80000 .write = .error f ∧
    admitted (recordedMove 0 1) 0x3000 256 w ∧ Config.hostFails w.fresh = true := by
  have ht : (match (moving fun m => { m with dev := 0x80000 }).translate 0 0x80000 .write with
    | .error _ => true | .ok _ => false) = true := by decide +kernel
  have hf : (firstIn (recordedMove 0 1)).fresh = 0 := by decide +kernel
  have : ∃ f, (moving fun m => { m with dev := 0x80000 }).translate 0 0x80000 .write = .error f := by
    split at ht
    · exact ⟨_, ‹_›⟩
    · exact absurd ht (by decide)
  obtain ⟨f, e⟩ := this
  exact ⟨recordedMove 1 2, _, f, _, by decide +kernel, Or.inl (by decide +kernel), by decide +kernel, e,
    firstIn_of (by decide +kernel), by rw [hf]; exact h⟩

/-- A good image and a bad one. -/
def goodImage : Image := { edSig := true, mlSig := true, version := 9 }

theorem test_hyp_boot : goodImage.edKey = State.reset.trust.fusedEd ∧ goodImage.mlKey = State.reset.trust.fusedMl ∧
    goodImage.edSig = true ∧ goodImage.mlSig = true ∧ State.reset.trust.fusedMin ≤ goodImage.version ∧
    ({} : Image).edSig = false ∧ State.reset.trust.powered = true ∧ State.reset.trust.released = false ∧
    State.reset.trust.recovery = false ∧ ({ State.reset.trust with imageA := goodImage } : Trust).imageA = goodImage ∧
    ({ State.reset.trust with imageA := {}, imageB := goodImage } : Trust).imageB = goodImage ∧
    (∀ i ∈ ({ State.reset.trust with imageA := {}, imageB := {} } : Trust).recoveryImage, i.edSig = true) := by
  decide +kernel

/-- What the mailbox holds is an image; whether Fosyn accepts it is a free value. -/
theorem test_hyp_boot_mailbox (f : Nat → Nat) (h : ∀ n, Config.imageField n [(0, 1)] = f n)
    (hf : f 1 = 0 ∧ f 2 = 0 ∧ f 3 = 1 ∧ f 4 = 1 ∧ f 5 = 9) : ∃ (t : Trust) (i : Image), t.powered = true ∧ t.imageA.edSig = false ∧
    t.imageB.edSig = false ∧ t.recoveryImage = [i] ∧ i.edKey = t.fusedEd ∧ i.mlKey = t.fusedMl ∧ i.edSig = true ∧ i.mlSig = true ∧
    t.fusedMin ≤ i.version := by
  refine ⟨{ State.reset.trust with imageA := {}, imageB := {}, mailbox := [⟨0, 1⟩] }, _, by decide +kernel, rfl, rfl, rfl, ?_⟩
  simp [h, hf.1, hf.2.1, hf.2.2.1, hf.2.2.2.1, hf.2.2.2.2]
  decide +kernel

theorem test_hyp_recovery_write : ∃ s : State, s.trust.powered = true ∧ s.trust.recovery = true ∧ ¬ linked s :=
  ⟨{ State.reset with trust := { recovery := true } }, rfl, rfl, fun h => absurd h.2 (by decide)⟩

theorem test_hyp_attest : ∃ s : State, linked s ∧ s.trust.released = true ∧ State.reset.trust.released = false :=
  ⟨{ State.reset with trust := { released := true } }, ⟨rfl, rfl⟩, rfl, rfl⟩

theorem test_hyp_throttle : ∃ s t : State, s.here.sc.k.clkpin = false ∧ t.here.sc.k.clkpin = true :=
  ⟨ready, ready fun c => { c with sc := { c.sc with k := { c.sc.k with clkpin := true } } }, by decide +kernel, by decide +kernel⟩

/-! ## Witnesses: the scheduler -/

/-- Every engine of the current core stands at its TEXIT. -/
def stopped (c : Core) : Core :=
  let k : Counter := { walk := 9, addr := 0x124, stop := true }
  { c with sc := { c.sc with ctr := k }, vec := { c.vec with ctr := k }, mat := { c.mat with ctr := k }, cpy := { c.cpy with ctr := k } }

theorem atItsEnd_of {s : State} (h : (s.here.awake && s.here.sc.ctr.stop && s.here.vec.ctr.stop && s.here.mat.ctr.stop &&
    s.here.cpy.ctr.stop && s.here.cpy.runs.isEmpty && s.here.sc.pend.isNone && s.here.sc.loads.isEmpty &&
    s.here.req.path.isEmpty && decide (s.here.mat.busy ≤ s.stamp) && (s.core (runnerKey s.cur)).runner.isNone) = true) : atItsEnd s := by
  simpa [atItsEnd, and_assoc] using h

theorem test_hyp_task_end : ∃ (s t : State), atItsEnd s ∧ s.instOf s.cur = some (5, pairInst) ∧ (s.score 5).insts = [pairInst] ∧
    (∃ x ∈ pairInst.tasks, x.core ≠ s.cur ∧ x.ended = false) ∧ (s.score 5).wb.succ = [] ∧ atItsEnd t ∧ t.instOf t.cur = none ∧
    ¬ atItsEnd ready :=
  ⟨pair id stopped, ready stopped, atItsEnd_of (by decide +kernel), by decide +kernel, by decide +kernel,
    ⟨{ core := 1, pos := 1, stage := 0, cluster := 0 }, by decide +kernel, by decide +kernel, rfl⟩, by decide +kernel,
    atItsEnd_of (by decide +kernel), by decide +kernel, fun h => absurd h.2.1 (by decide +kernel)⟩

/-- The last task of an instance that ends: of a waybill of one instance, and of three. -/
theorem test_hyp_task_end_last : ∀ n ∈ [1, 3], ∃ (s : State) (i : Inst), atItsEnd s ∧ s.instOf s.cur = some (5, i) ∧
    (s.score 5).insts = [i] ∧ (∀ x ∈ i.tasks, x.core ≠ s.cur → x.ended = true ∧
      ((s.core x.core).run = .idle ∨ (s.core x.core).job.inst ≠ i.id)) ∧ i.saved = none ∧ (s.score 5).killed = none ∧
    (s.score 5).again = [] ∧ (s.score 5).wb.succ = [] ∧ (s.score 5).next = 1 ∧ (s.score 5).wb.instances = n ∧
    (s.score 5).wb.post = false ∧ ∃ r ∈ i.tasks, r.core = s.cur := by
  let f := fun (r : TaskRec) => { r with ended := true }
  let last := fun (n : Nat) =>
    let s := pair f stopped
    s.setScore 5 { (s.score 5) with wb := { count := n, chunk := 1 } }
  simp only [List.mem_cons, List.not_mem_nil, or_false, forall_eq_or_imp, forall_eq]
  refine ⟨⟨last 1, pairInst f, atItsEnd_of (by decide +kernel), ?_⟩, last 3, pairInst f, atItsEnd_of (by decide +kernel), ?_⟩ <;>
  exact ⟨by decide +kernel, by decide +kernel, by decide +kernel, by decide +kernel, by decide +kernel, by decide +kernel,
    by decide +kernel, by decide +kernel, by decide +kernel, by decide +kernel, ⟨_, List.mem_cons_self, by decide +kernel⟩⟩

/-- Entry 5 holds a READY waybill: a span of three workers over two crews, one of cluster 4, index range 10 in chunks of 4. -/
def issuing (c : Score → Score := id) : State :=
  let s := { State.reset with trust := { released := true } }
  s.setScore 5 (c { seq := 1, st := .ready, wb := { entry := 0x1000, shape := [(2, 0), (1, 5)], first := 7, count := 10, chunk := 4 } })

theorem test_hyp_issue : ∃ h : Score, issuing.selection = [(5, h)] ∧ issuing.score 5 = h ∧ issuing.sched.electing = false ∧
    issuing.distHeld issuing.sched.master = false ∧ issuing.trust.released = true ∧ issuing.records.setting ≠ 2 ∧
    issuing.launchClear h = true ∧ h.insts = [] ∧ h.again = [] ∧ h.next < h.wb.instances ∧
    issuing.placement h issuing.vacant = some [0, 4] ∧ (spanCores h.wb.shape [0, 4]).Nodup ∧ h.wb.record = false ∧
    State.reset.selection = [] := by
  refine ⟨issuing.score 5, ?_⟩
  decide +kernel

/-- The same waybill waits behind the instance of entry 6, whose one task runs on core 0, with these registers and inst. -/
def preempting (f : Sched → Sched) (g : Score → Score := id) (ts : List Nat := [0]) : State :=
  let s := issuing fun c => { c with wb := { c.wb with shape := [(2, 1)], prio := 2 } }
  let s := { s with sched := { s.sched with drainT := 99 } }
  let i : Inst := { id := 3, j := 0, issued := 0, order := 0, clusters := [0],
                    tasks := ts.map fun k => { core := k, pos := 0, stage := 0, cluster := 0 } }
  let s := s.setScore 6 (g { seq := 1, st := .running, next := 1, wb := { prio := 1, est := 100, count := 1, chunk := 1 }, insts := [i] })
  let s := (s.setCrew 0 { (s.crew 0) with resident := some 3 }).setCore 0 (core fun c => { c with job := { c.job with handle := 6, inst := 3 } })
  { s with sched := f s.sched }

/-- It drains, is checkpointed, is issued again, stays. -/
theorem test_hyp_preempt : ∀ s ∈ [preempting fun x => { x with drainT := 100 }, preempting fun x => { x with ckunits := 10000 },
      preempting id fun c => { c with wb := { c.wb with reissueOk := true } }, preempting id],
    s.selection = [(5, s.score 5)] ∧ s.placed = ((s.score 6).insts.map fun i => (6, i)) ∧
    ((s.score 6).wb.prio < (s.score 5).tokens s.stamp ∧ s.sched.electing = false ∧
      s.placement (s.score 5) s.vacant = none ∧
      ((s.score 6).insts.all fun i => !i.draining && i.clusters.any (s.lacks (s.score 5) s.vacant)) = true ∧ (s.score 6).killed = none) := by decide +kernel

theorem test_hyp_preempt_rows : ((preempting id).score 6).wb.est = 100 ∧
    100 - 0 > (preempting id).sched.drainT.toNat ∧ (preempting id).sched.ckunits.toNat < (preempting id).sched.ckUsed + 1154 ∧
    ((preempting id).core (runnerKey 0)).runner = none ∧ (preempting (fun x => { x with ckunits := 1154 })).sched.ckunits.toNat =
      129 * 1 + 1025 * 1 := by decide +kernel

/-- A serai whose ring of two slots at 0x2000 holds two messages, one of them taken, bound to a handler. -/
def ringing (prod cons : Word) : State :=
  let s := ((paged (mapped [])).writeWord 0x2000 prod).writeWord 0x2008 cons
  s.setSerai 7 { ctx := some 0, ring := 0x2000, slots := 1, bound := some { kind := 3 } }

/-- What the counts of serai 7 read as. -/
theorem counts_of {s : State} {p c : Nat} (h : decide ((s.seraiCounts 0 (s.serai 7)).1.toOption = some (p, c)) = true) :
    s.seraiCounts 0 (s.serai 7) = (.ok (p, c), (s.seraiCounts 0 (s.serai 7)).2) := Prod.ext (except_of (by simpa using h)) rfl

theorem test_hyp_handler_launch : ∃ s t : State, (s.serai 7).ctx = some 0 ∧ (s.serai 7).bound = some { kind := 3 } ∧
    (s.serai 7).running = none ∧ (s.serai 7).bad = false ∧ s.sched.electing = false ∧ s.distHeld s.sched.master = false ∧
    s.seraiCounts 0 (s.serai 7) = (.ok (2, 1), (s.seraiCounts 0 (s.serai 7)).2) ∧
    lowestFree s (if bit s.sched.fenced.toNat 0 then s.sched.master else 0) 0 ∧
    ({ kind := 3 } : Waybill).fencedOut s.sched.fenced = false ∧ t.seraiCounts 0 (t.serai 7) = (.ok (1, 1), (t.seraiCounts 0 (t.serai 7)).2) ∧
    (s.serai 8).bound = none :=
  ⟨ringing 2 1, ringing 1 1, by decide +kernel, by decide +kernel, by decide +kernel, by decide +kernel, by decide +kernel,
    by decide +kernel, counts_of (by decide +kernel),
    ⟨by decide +kernel, 0, by decide, by decide +kernel, by decide +kernel, fun j hj => absurd hj (by omega)⟩, by decide +kernel,
    counts_of (by decide +kernel), by decide +kernel⟩

/-- The same with posts held: one of three words for a serai, between two for another. -/
def posting (n : Nat) (prod cons : Word) (more : List Post := []) : State :=
  { ringing prod cons with sched := { (ringing prod cons).sched with
    posts := [{ serai := 3, source := 1, payload := [9] }] ++ { serai := n, source := 5, payload := [1, 2, 3] } :: more ++
      [{ serai := 3, source := 1, payload := [8] }] } }

theorem test_hyp_post : (posting 7 2 1).distHeld (posting 7 2 1).sched.master = false ∧ ((posting 8 2 1).serai 8).ctx = none ∧
    (posting 7 2 1).translate 0 0x2000 .both = .ok 0x2000 ∧ (posting 7 2 1).verify 0x2000 16 = none ∧
    ((posting 7 2 1).dword 0x2000).toNat - ((posting 7 2 1).dword 0x2008).toNat < 2 ∧
    (posting 7 2 1).translate 0 0x2100 .write = .ok 0x2100 ∧ 2 ≤ ((posting 7 3 1).dword 0x2000).toNat - ((posting 7 3 1).dword 0x2008).toNat ∧
    0x2000 + 8 ≤ 0x2100 ∧
    (posting 7 2 1).partBad 0x2100 128 = none ∧ (∀ x ∈ [({ serai := 3, source := 1, payload := [9] } : Post)], x.serai ≠ 7) ∧
    ((posting 7 2 1).setGrain 0x20 (1, false)).verify 0x2000 16 ≠ none ∧
    ((posting 7 2 1).setGrain 0x21 (1, false)).partBad 0x2100 128 ≠ none :=
  ⟨by decide +kernel, by decide +kernel, except_of (by decide +kernel), by decide +kernel, by decide +kernel,
    except_of (by decide +kernel), by decide +kernel, by decide, by decide +kernel, by decide +kernel, by decide +kernel,
    by decide +kernel⟩

/-- A post waits at its source because 16,384 are held. -/
theorem test_hyp_post_waits : ∃ (s : State) (x : Post) (xs : List Post), s.sched.sources = x :: xs ∧ s.sched.posts.length = 16384 ∧
    x.ends = none ∧ s.sched.electing = false ∧ ∃ l2, s.sched.posts = { serai := 3, source := 1, payload := [9] } :: l2 :=
  ⟨{ State.reset with sched := {
      posts := List.replicate 16384 { serai := 3, source := 1, payload := [9] }
      sources := [{ serai := 2, source := 1, payload := [7] }] } }, _, _, rfl, List.length_replicate, rfl, rfl, _, rfl⟩

/-- The ring and the slot do not translate. -/
theorem test_hyp_post_dropped : ∃ (s t : State) (f g : XFault), s.translate 0 (s.serai 7).ring.toNat .both = .error f ∧
    t.translate 0 ((t.serai 7).ring.toNat + 256 + 128 * (2 % 2)) .write = .error g ∧
    t.translate 0 (t.serai 7).ring.toNat .both = .ok 0x7FF00 := by
  have h : ∀ {s : State} {va : Nat} {n : Need}, (match s.translate 0 va n with | .error _ => true | .ok _ => false) = true →
      ∃ f, s.translate 0 va n = .error f := by
    intro s va n h
    split at h
    · exact ⟨_, ‹_›⟩
    · exact absurd h (by decide)
  obtain ⟨f, hf⟩ := h (s := (ringing 2 1).setSerai 7 { ctx := some 0, ring := 0x80000, slots := 1 }) (va := 0x80000) (n := .both) (by decide +kernel)
  obtain ⟨g, hg⟩ := h (s := (ringing 2 1).setSerai 7 { ctx := some 0, ring := 0x7FF00, slots := 1 }) (va := 0x80000) (n := .write) (by decide +kernel)
  exact ⟨_, _, f, g, hf, hg, except_of (by decide +kernel)⟩

theorem test_hyp_election : ∃ s : State, bit s.sched.fenced.toNat 2 = false ∧ (∀ j < 2, bit s.sched.fenced.toNat j = true) ∧
    s.sched.electing = true :=
  ⟨{ State.reset with sched := { fenced := 3, electing := true } }, by decide +kernel, by decide +kernel, rfl⟩

theorem test_hyp_die_failure : ∃ s : State, bit s.sched.fenced.toNat 2 = false ∧ s.trust.assaylim = 2 ∧
    ((s.counters 2).recent.filter fun t => decide (s.stamp ≤ t + 80000000)).length = 2 ∧
    ((s.counters 1).recent.filter fun t => decide (s.stamp ≤ t + 80000000)).length = 0 :=
  ⟨({ State.reset with stamp := 80000001, trust := { assaylim := 2 } } : State).setCounters 2 { recent := [1, 80000000, 0] }, by decide +kernel, by decide +kernel, by decide +kernel, by decide +kernel⟩

/-- The scalar engine waits at TAKE V, 1 for a seal that the stopped others never give. -/
def waitingOn : State := (mapped [] fun c =>
  let k : Counter := { walk := 0, addr := 0x100, stop := true }
  { c with vec := { c.vec with ctr := k }, mat := { c.mat with ctr := k }, cpy := { c.cpy with ctr := k } }).write 0x100
    (leBytes 4 0x24A20000)

theorem test_hyp_sealfault : waitingOn.deadlocked = true ∧ waitingOn.here.firstEngine = some .s ∧ waitingOn.parks .sealfault ∧
    ready.deadlocked = false :=
  ⟨by decide +kernel, by decide +kernel, parks_of (by decide +kernel), by decide +kernel⟩

theorem test_hyp_watchdog : ∃ s : State, s.here.awake = true ∧ s.sched.wdlimit.toNat ≤ s.stamp - s.here.lastIssue ∧
    ¬ (s.here.sc.ctr.stop = false ∧ ∃ w, s.scalarWord = some w ∧
      ((∃ a, instrOf w = .waitTick a) ∨ (∃ a, instrOf w = .waitSerai a) ∨ ∃ a, instrOf w = .tret a)) ∧
    s.here.firstEngine = some .s ∧ s.parks .watchdog ∧ ready.stamp - ready.here.lastIssue < ready.sched.wdlimit.toNat := by
  refine ⟨{ waitingOn with stamp := 2 ^ 64 }, by decide +kernel, by decide +kernel, ?_, by decide +kernel, parks_of (by decide +kernel),
    by decide +kernel⟩
  have hw : ({ waitingOn with stamp := 2 ^ 64 } : State).scalarWord = some 0x24A20000 := by decide +kernel
  have hi : instrOf 0x24A20000 = .take 1 1 := by decide +kernel
  rintro ⟨-, w, h, h'⟩
  obtain rfl := Option.some.inj (hw.symm.trans h)
  rcases h' with ⟨a, h'⟩ | ⟨a, h'⟩ | ⟨a, h'⟩ <;> exact Instr.noConfusion (hi.symm.trans h')

theorem test_hyp_preempt_call : (((preempting id).setCore (runnerKey 0) { runner := some ⟨0, 0, 0, 0⟩ }).core (runnerKey 0)).runner.isSome = true ∧
    ((preempting id).setCore (runnerKey 0) { runner := some ⟨0, 0, 0, 0⟩ }).placed = ((preempting id).score 6).insts.map fun i => (6, i) := by
  decide +kernel

/-! ## Witnesses: bank units -/

set_option exponentiation.threshold 600

/-- Unit 5 has the turn and runs a timetable's command that may touch its first 512 KiB. -/
def banked (b : BankUnit → BankUnit := id) (call : Option Nat := none) : State :=
  { ready.setUnit 5 (b { run := some ⟨0, [(5 * 2 ^ 30, 2 ^ 19)], call, 0, ⟨0, 0, 0⟩⟩, st := { g := true, k := 1 } }) with curUnit := 5 }

/-- The run of that unit. -/
def unitRun (call : Option Nat := none) : UnitRun := ⟨0, [(5 * 2 ^ 30, 2 ^ 19)], call, 0, ⟨0, 0, 0⟩⟩

theorem test_hyp_unit_words : ∃ s t : State, (turn s).run.isSome = true ∧ (turn s).rep ≠ some 0 ∧ (turn t).run.isSome = true ∧
    (turn t).rep = some 0 ∧ (1 : BitVec 512).toNat % 2 ^ 32 < 2 :=
  ⟨banked, banked fun b => { b with rep := some 0 }, by decide +kernel, by decide +kernel, by decide +kernel, by decide +kernel, by decide⟩

/-- A guard that holds and one that fails; every port read and every port with a word of its own. -/
theorem test_hyp_unit_moves : ∃ s : State, guarded 1 (turn s) ∧ ¬ guarded 2 (turn s) ∧ (turn s).rep = none ∧
    (∀ p ∈ [0x00, 0x07, 0x09, 0x0A, 0x0B, 0x0E, 0x11, 0x14, 0x17, 0x1A, 0x1D, 0x23, 0x24, 0x27], ∃ v, portGives (turn s).st p v) ∧
    (∀ d ∈ [0x08, 0x0C, 0x0D, 0x0E, 0x0F, 0x10, 0x13, 0x16, 0x19, 0x1C, 0x1F, 0x20, 0x22], (portInstr d 0).isSome = true) := by
  refine ⟨banked, Or.inr (Or.inl ⟨rfl, by decide +kernel⟩), ?_, by decide +kernel, ?_, by decide⟩
  · rintro (h | h | h)
    · exact absurd h (by decide)
    · exact absurd h.1 (by decide)
    · exact absurd h.2 (by decide +kernel)
  · have h : (turn banked).st.h[0]? = some 0 ∧ (turn banked).st.h[7]? = some 0 := by decide +kernel
    have h' : ∀ i < 16, (turn banked).st.acc[16 * (0x24 - 0x24) + i]? = some ((0 : BitVec 512).extractLsb' (32 * i) 32) ∧
        (turn banked).st.acc[16 * (0x27 - 0x24) + i]? = some ((0 : BitVec 512).extractLsb' (32 * i) 32) := by decide +kernel
    intro p hp
    simp only [List.mem_cons, List.not_mem_nil, or_false] at hp
    rcases hp with rfl | rfl | rfl | rfl | rfl | rfl | rfl | rfl | rfl | rfl | rfl | rfl | rfl | rfl
    · exact ⟨0, h.1⟩
    · exact ⟨0, h.2⟩
    iterate 10 exact ⟨_, rfl⟩
    · exact ⟨0, fun i hi => (h' i hi).1⟩
    · exact ⟨0, fun i hi => (h' i hi).2⟩

/-- A cursor on the last line of the window, one behind it; a good and a bad grain. -/
theorem test_hyp_column : ∃ s t u : State, (turn s).run = some (unitRun) ∧ (turn s).rep = none ∧ unitRun.who.mode = 0 ∧
    inWindow unitRun (lineAt s (turn s).st.wcur) ∧ s.verify (lineAt s (turn s).st.wcur) 64 = none ∧
    inWindow unitRun (lineAt s (turn s).st.rcur) ∧ (turn t).run = some (unitRun) ∧ ¬ inWindow unitRun (lineAt t (turn t).st.wcur) ∧
    ¬ inWindow unitRun (lineAt t (turn t).st.rcur) ∧ (turn u).run = some (unitRun) ∧ u.verify (lineAt u (turn u).st.wcur) 64 = some .uncorr := by
  refine ⟨banked fun b => { b with st := { b.st with wcur := 8191 } },
    banked fun b => { b with st := { b.st with wcur := 8192, rcur := 8192 } },
    banked.setGrain (5 * 2 ^ 22) (0, true), by decide +kernel, by decide +kernel, by decide, ⟨_, List.mem_cons_self, by decide +kernel⟩,
    by decide +kernel, ⟨_, List.mem_cons_self, by decide +kernel⟩, by decide +kernel, ?_, ?_, by decide +kernel, by decide +kernel⟩
  all_goals
    rintro ⟨w, hw, h⟩
    rcases List.mem_singleton.mp hw with rfl
    revert h; decide +kernel

/-- A call that the unit answers, and a timetable's command that has run for too long. -/
theorem test_hyp_unit_end : ∃ (s t : State) (q : Call), (turn s).run = some (unitRun (some 3)) ∧ s.callAt 3 = some q ∧ (turn s).rep = none ∧
    (turn t).rep.isSome = true ∧ (turn t).run = some (unitRun) ∧ unitRun.started + 65536 < t.stamp ∧ (t.chan 0).st = .running ∧
    unitRun.started + limitOf (unitRun (some 3)) ≥ s.stamp ∧ unitRun.started + limitOf unitRun < t.stamp ∧
    2 ≤ (2 : BitVec 512).toNat % 2 ^ 32 :=
  ⟨{ banked id (some 3) with remote := { calls := [(3, {
      caller := 0, slot := 1, inst := 3, ctx := 0, id := 7, label := 0, func := 0, stamp := 0, payload := [], cls := 0, kind := 0,
      target := 5, va := 0, pa := 0, page := (0, 0) })] } },
    { (banked fun b => { b with rep := some 2 }).setChan 0 { st := .running } with stamp := 65537 }, _, by decide +kernel, rfl,
    by decide +kernel, by decide +kernel, by decide +kernel, by decide +kernel, by decide +kernel, by decide +kernel, by decide +kernel,
    by decide⟩

/-- A command past its limit at its RET. -/
theorem test_hyp_unit_late : ∃ s : State, (turn s).run = some (unitRun (some 3)) ∧ (turn s).rep = none ∧
    unitRun.started + limitOf (unitRun (some 3)) < s.stamp :=
  ⟨{ banked id (some 3) with stamp := 32769 }, by decide +kernel, by decide +kernel, by decide +kernel⟩

/-- A unit between commands: an upload at its turn, one behind a command, none. -/
theorem test_hyp_image_load : ∀ us : List (Nat × List (BitVec 32)),
    (turn (banked fun b => { b with run := none, uploads := us })).run = none ∧
      (turn (banked fun b => { b with run := none, uploads := us })).uploads = us := fun _ => ⟨rfl, rfl⟩

/-- Stack 0 with one command of 100 tolls waiting for unit 5. -/
def waiting (level : Int) (permit : Nat := 4) : State :=
  (ready.setUnit 5 { entries := [none, some 3], store := [0] }).setStack 0
    { level := level, permit := permit, waiting := [{ unit := 5, toll := 100, entry := 1, keep := false, line := 7, call := none }] }

theorem test_hyp_command_issue : ∃ q : BankCmd, ((waiting 100).stack 0).waiting = [q] ∧ q.call = none ∧ ((waiting 100).unit q.unit).run = none ∧
    ((waiting 100).unit q.unit).uploads = [] ∧ ((waiting 100).chan 0).lastCmd = none ∧ (q.toll : Int) ≤ ((waiting 100).stack 0).level ∧
    ¬ ((q.toll : Int) ≤ ((waiting 99).stack 0).level) ∧ ((waiting 99).stack 0).level ≠ ((waiting 99).stack 0).cap ∧
    ((List.range 8).filter fun g => ((waiting 100).unit (q.unit / 8 * 8 + g)).run.isSome).length = 0 ∧
    ((waiting 100).unit 5).entries[q.entry]? = some (some 3) ∧ ((waiting 100).stack 0).permit = 4 ∧ ((waiting 100 3).stack 0).permit = 3 :=
  ⟨{ unit := 5, toll := 100, entry := 1, keep := false, line := 7, call := none }, by decide +kernel⟩

/-- Channel 9 at work on a timetable: a pause, a wave of groups 0 and 7, a refresh. -/
def timed (now : Nat) (f : Chan → Chan := id) : State :=
  { State.reset.setChan 9 (f { st := .running, table := [0x10, 0x1810000000000010, 0x2000000000000060], goal := 2
                               nominal := 100, slip := 5 }) with stamp := now }

theorem test_hyp_timetable : ∃ s t u : State, (s.chan 9).st = .running ∧ (s.chan 9).began = none ∧ (s.chan 9).table[(s.chan 9).entry]? = some 0x10 ∧
    (s.chan 9).nominal + (s.chan 9).slip ≤ s.stamp ∧ (s.chan 9).ended ≤ s.stamp ∧ (t.chan 9).began = some 105 ∧
    (t.chan 9).entry + 1 = (t.chan 9).table.length ∧ 105 + durOf 0x2000000000000060 ≤ t.stamp ∧ ¬ waving t 9 ∧
    (t.chan 9).goal ≤ (t.chan 9).passes + 1 ∧ (timed 104).stamp < ((timed 104).chan 9).nominal + ((timed 104).chan 9).slip ∧
    kindOf 0x1810000000000010 = 1 ∧ kindOf 0x2000000000000060 = 2 ∧ kindOf 0x10 = 0 ∧ (u.chan 9).st = .armed ∧ (u.chan 9).start ≤ u.stamp ∧
    (u.chan 8).st ≠ .armed := by
  refine ⟨timed 105, timed 201 fun c => { c with entry := 2, began := some 105, passes := 1 }, timed 100 fun c => { c with st := .armed, start := 100 },
    by decide +kernel, by decide +kernel, by decide +kernel, by decide +kernel, by decide +kernel, by decide +kernel, by decide +kernel,
    by decide +kernel, ?_, by decide +kernel, by decide +kernel, by decide, by decide, by decide, by decide +kernel, by decide +kernel,
    by decide +kernel⟩
  rintro (⟨q, h, _⟩ | ⟨g, r, _, h, _⟩)
  · exact absurd h (List.not_mem_nil)
  · exact absurd h (by simp [timed, State.unit, State.setChan, State.reset, Sparse.get])

/-- A command of the channel still runs: the entry waits. -/
theorem test_hyp_timetable_waving : waving ((timed 201).setUnit 72 { run := some unitRun }) 9 :=
  Or.inr ⟨0, unitRun, by decide, by decide +kernel, rfl⟩

theorem test_hyp_refresh : ((timed 24961).chan 9).lastRefresh + 24960 < (timed 24961).stamp ∧
    (timed 24960).stamp ≤ ((timed 24960).chan 9).lastRefresh + 24960 := by decide +kernel

/-- A descriptor and a loop set of zeros. -/
def noDesc : CDesc := ⟨0, 0, false, false, false, 0, 0, 0, 0, 0⟩

/-- An X.BANKGO of channels 9 and 127 in flight, which waits for them. -/
def goRun (stop : Word) : CopyRun :=
  { id := 1, word := .xBankgo 0 0, walk := 4, addr := 0x110, unit := 1, units := 2, src := noDesc, dst := noDesc,
    words := [0x200, 0x8000000000000000, stop, 0], loop := {} }
def going (c : Chan → Chan) (stop : Word := 0) : State :=
  let s := mapped [] fun k => { k with cpy := { k.cpy with runs := [goRun stop], issued := 1 } }
  s.setChan 9 (c { owner := some (s.here.job.inst * 512 + s.cur, 4) })

theorem notBusy_of {s : State} {n : Nat} (h : ((s.chan n).st != .armed && (s.chan n).st != .running &&
    ((s.stack (n / 8)).waiting.all fun q => q.call.isSome || q.unit / 8 != n) &&
    (List.range 8).all fun g => match (s.unit (8 * n + g)).run with | some r => r.call.isSome | none => true) = true) :
    ¬ ((s.chan n).st = .armed ∨ (s.chan n).st = .running ∨ waving s n) := by
  simp only [Bool.and_eq_true, bne_iff_ne, ne_eq, List.all_eq_true, List.mem_range, Bool.or_eq_true] at h
  obtain ⟨⟨⟨h1, h2⟩, h3⟩, h4⟩ := h
  rintro (e | e | ⟨q, hq, hc, hn⟩ | ⟨g, r, hg, hr, hc⟩)
  · exact h1 e
  · exact h2 e
  · rcases h3 q hq with h | h
    · simp [hc] at h
    · exact h hn
  · have := h4 g hg
    rw [hr] at this
    simp [hc] at this

theorem test_hyp_bankgo : ∃ s t u : State, s.here.awake = true ∧ s.gatedBelow = false ∧
    s.here.cpy.runs.find? (fun r : CopyRun => r.passed) = some (goRun 0) ∧ bit ((goRun 0).words.getD 2 0).toNat 0 = false ∧
    ((List.range 128).filter fun n => bit ((goRun 0).words.getD (n / 64) 0).toNat (n % 64)) = [9, 127] ∧
    (s.chan 9).owner = some (s.here.job.inst * 512 + s.cur, 4) ∧ (s.chan 9).st = .running ∧
    (t.chan 9).st = .loaded ∧ (t.chan 9).owner = some (t.here.job.inst * 512 + t.cur, 4) ∧ (t.chan 127).owner = none ∧
    ¬ ((t.chan 9).st = .armed ∨ (t.chan 9).st = .running ∨ waving t 9) ∧
    (u.chan 9).st = .fault ∧ (u.chan 9).owner = some (u.here.job.inst * 512 + u.cur, 4) ∧
    ¬ ((u.chan 9).st = .armed ∨ (u.chan 9).st = .running ∨ waving u 9) ∧
    (u.setHere { u.here with cpy := { u.here.cpy with runs := [] } }).parks .remote := by
  refine ⟨going fun c => { c with st := .running }, going fun c => { c with st := .loaded }, going fun c => { c with st := .fault },
    ?_, ?_, ?_, ?_, ?_, ?_, ?_, ?_, ?_, ?_, notBusy_of ?_, ?_, ?_, notBusy_of ?_, parks_of ?_⟩ <;> decide +kernel

theorem test_hyp_bankgo_stop : ∃ s t : State, (s.chan 9).st = .running ∧ (s.chan 9).stopping = true ∧
    s.here.cpy.runs.find? (fun r : CopyRun => r.passed) = some (goRun 1) ∧ bit ((goRun 1).words.getD 2 0).toNat 0 = true ∧
    (t.chan 9).st = .loaded ∧ (∀ n ∈ [9, 127], (t.chan n).st ≠ .running) ∧
    ready.here.cpy.runs.find? (fun r : CopyRun => r.passed) = none := by
  refine ⟨going (fun c => { c with st := .running, stopping := true }) 1, going (fun c => { c with st := .loaded }) 1, ?_⟩
  decide +kernel

/-- A timetable's COL access behind an access of its X.BANKGO's worker. -/
def colBehind : State :=
  let s := going (fun c => { c with st := .running }) 0
  let s := s.setHere { s.here with req := { s.here.req with path := [{ heldAt (9 * 2 ^ 33) 2 (.store [1, 2] none) 0 with
    acc := { walk := 0, eng := .x, kinds := { cw := true }, home := some (.channel 9), loc := 9 * 2 ^ 33, len := 2 } }] } }
  { s.setUnit 72 { run := some ⟨0, [(72 * 2 ^ 30, 2 ^ 19)], none, 0, ⟨0, 0, 0⟩⟩ } with curUnit := 72 }

theorem test_hyp_column_held : ∃ r : UnitRun, (turn colBehind).run = some r ∧ (turn colBehind).rep = none ∧ r.call = none ∧
    inWindow r (lineAt colBehind (turn colBehind).st.wcur) ∧
    colBehind.chanHeld (colBehind.curUnit / 8) (lineAt colBehind (turn colBehind).st.wcur) 64 { cw := true } = true :=
  ⟨⟨0, [(72 * 2 ^ 30, 2 ^ 19)], none, 0, ⟨0, 0, 0⟩⟩, by decide +kernel, by decide +kernel, rfl,
    ⟨_, List.mem_cons_self, by decide +kernel⟩, by decide +kernel⟩

theorem test_hyp_column_free : ∃ s : State, (turn s).run = some unitRun ∧ (turn s).rep = none ∧
    colFree s unitRun (lineAt s (turn s).st.wcur) { cw := true } ∧ colFree s unitRun (lineAt s (turn s).st.rcur) { cr := true } ∧
    s.records.waiting = [] :=
  ⟨banked, by decide +kernel, by decide +kernel, ⟨rfl, Or.inr (by decide +kernel)⟩, ⟨rfl, Or.inr (by decide +kernel)⟩, rfl⟩

/-- The first command waiting is not ready, by its unit or its upload. -/
theorem test_hyp_command_waits : ∃ (s t : State) (q : BankCmd), (s.stack 0).waiting = [q] ∧ q.call = none ∧ (s.unit q.unit).run.isSome = true ∧
    (t.stack 0).waiting = [q] ∧ (t.unit q.unit).uploads = [(0, [])] :=
  ⟨(waiting 100).setUnit 5 { run := some unitRun }, (waiting 100).setUnit 5 { uploads := [(0, [])] },
    { unit := 5, toll := 100, entry := 1, keep := false, line := 7, call := none }, by decide +kernel⟩

/-! ## Witnesses: the vector engine -/

/-- An operand code as the conditions of a row word take it. -/
def fitsB (s : State) (x : BitVec 6) : Bool :=
  (decide (x.toNat < 48) || x.toNat == 52) &&
    !(decide (32 ≤ x.toNat) && decide (x.toNat < 48) && (s.here.tiles.infoAt s.here.vec.bind.t).split != splitOf s)

theorem nameable_of {s : State} {x : BitVec 6} (h : fitsB s x = true) : nameable s x := by
  simp only [fitsB, Bool.and_eq_true, Bool.or_eq_true, decide_eq_true_eq, beq_iff_eq, Bool.not_eq_true', Bool.and_eq_false_iff,
    decide_eq_false_iff_not, bne_eq_false_iff_eq] at h
  exact ⟨h.1, fun a b => by rcases h.2 with (c | c) | c <;> first | exact c | exact absurd a c | exact absurd b c⟩

theorem rowReady_of {s : State} {i : Instr} {t : Nat} {xs : List (BitVec 6)} {d : BitVec 6}
    (h : (s.engineMayIssue .v i && !(t == 6 && splitOf s) && s.here.tiles.bad.isEmpty && xs.all (fitsB s) && fitsB s d) = true) :
    rowReady s i t xs d := by
  simp only [Bool.and_eq_true, Bool.not_eq_true', Bool.and_eq_false_iff, beq_eq_false_iff_ne, List.isEmpty_iff, List.all_eq_true] at h
  obtain ⟨⟨⟨⟨h1, h2⟩, h3⟩, h4⟩, h5⟩ := h
  refine ⟨h1, fun ⟨a, b⟩ => ?_, fun x hx => ⟨nameable_of (h4 x hx), fun p _ hp => by rw [h3] at hp; cases hp⟩, nameable_of h5⟩
  rcases h2 with h2 | h2
  · exact h2 a
  · rw [h2] at b; cases b

/-- The scalar counter stands ahead; the vector tile 0 and the accumulator tile 0 are bound in a mode. -/
def laned (split : Bool) (f : Vec → Vec := id) : State :=
  mapped [] fun c => { c with
    sc := { c.sc with ctr := { walk := 9, addr := 0x124 } }
    vec := f { bind := { split := split } }
    tiles := (c.tiles.setInfo 32 { split := split }).setInfo 0 { split := split } }

/-- Words of both modes, on v, vr, c and zero rows, of every kind of type. -/
theorem test_hyp_vector_rows : ∃ s t : State, splitOf s = false ∧ splitOf t = true ∧
    rowReady s (.vAdd 0 16 47 1 6) 6 [16, 47] 0 ∧ rowReady t (.vXor 15 31 52 7 5) 5 [31, 52] 15 ∧ rowReady s (.vAdd 52 0 1 0 2) 2 [0, 1] 52 ∧
    rowReady s (.vShl 0 1 2 0 4) 4 [1, 2] 0 ∧ s.here.vec.vtype.toNat / 16 % 4 = 0 ∧
    rowReady s (.vFma 1 2 3 4) (s.here.vec.vtype.toNat % 8) [2, 3, 4] 1 ∧ rowReady t (.vNeg 32 33 0 0) 0 [33] 32 ∧
    rowReady s (.vCmp 4 7 0 1 0 2) 2 [0, 1] 52 ∧ rowReady s (.vSel 0 1 2 3 6) 6 [1, 2] 0 ∧ rowReady t (.vMov 0 1 2 3) 3 [1] 0 ∧
    rowReady s (.vPerm 0 1 2 3 0) 0 [1, 2] 0 ∧ rowReady s (.vLrot 0 1 2 3 0) 0 [1, 2] 0 ∧ rowReady s (.vBcast 0 1 2 3 0) 0 [1, 2] 0 ∧
    rowReady s (.vLit 31 4 0xFFFF) 4 [] 31 ∧ rowReady s (.vTopk 0 1 63 3 2) 2 [1] 0 ∧ rowReady s (.vCvt 0 1 6 5 0 3) 3 [1] 0 ∧
    rowReady t (.vPack 0 1 2 4 2) 2 [1, 2] 0 ∧ rowReady t (.vUnpk 0 1 0 5 2) 2 [1] 0 ∧ rowReady s (.vSfn 0 1 8 0 2) 2 [1] 0 ∧
    rowReady s (.vRed 0 1 0 0 2) 2 [1] 0 ∧ rowReady s (.vScan 0 1 5 0 3) 3 [1] 0 ∧ rowReady s (.vTos 1 127 6) 6 [1] 52 := by
  refine ⟨laned false, laned true, by decide +kernel, by decide +kernel, ?_, ?_, ?_, ?_, by decide +kernel, ?_, ?_, ?_, ?_, ?_, ?_,
    ⟨?_, ?_, ?_, ?_, ?_, ?_, ⟨?_, ?_, ?_, ?_, ?_⟩⟩⟩
  all_goals exact rowReady_of (by decide +kernel)

/-- A shift of packed floats, and each way in which V.MOV is out of step. -/
theorem test_hyp_vector_operand : ∃ s t u : State, s.engineMayIssue .v (.vShl 0 1 2 0 4) = true ∧ s.here.vec.vtype.toNat / 16 % 4 ≠ 0 ∧ s.parks .operand ∧
    t.engineMayIssue .v (.vMov 0 1 0 6) = true ∧ splitOf t = true ∧ t.parks .operand ∧ u.engineMayIssue .v (.vMov 0 32 0 2) = true ∧
    (u.here.tiles.infoAt u.here.vec.bind.t).split ≠ splitOf u ∧ s.engineMayIssue .v (.vMov 48 51 0 2) = true ∧ s.here.vec.ports.getD (51 - 48) none = none :=
  ⟨laned false fun v => { v with vtype := 0x10 }, laned true, (laned false).setHere { (laned true).here with vec := (laned false).here.vec },
    by decide +kernel, by decide +kernel, parks_of (by decide +kernel), by decide +kernel, by decide +kernel, parks_of (by decide +kernel),
    by decide +kernel, by decide +kernel, by decide +kernel, by decide +kernel⟩

/-- Words without rows at the ends of their operands; a full and an empty hand-off. -/
theorem test_hyp_vector_state : ∃ s t : State, s.engineMayIssue .v (.vBind 24 6 24 7 true) = true ∧ s.engineMayIssue .v (.vRrbSet 15) = true ∧ s.engineMayIssue .v (.vRrbAdd 15) = true ∧
    s.engineMayIssue .v (.vGuard 7) = true ∧ s.engineMayIssue .v (.vPredAnd 7 0 1) = true ∧ s.engineMayIssue .v (.vPredOr 7 0 1) = true ∧ s.engineMayIssue .v (.vPredXor 7 0 1) = true ∧
    s.engineMayIssue .v (.vPredAndn 7 0 1) = true ∧ s.engineMayIssue .v (.vPredNot 1 0) = true ∧ s.engineMayIssue .v (.vPredFirst 1 256) = true ∧ s.engineMayIssue .v (.vPredLane 1 255) = true ∧
    s.here.hand.ret = none ∧ s.engineMayIssue .v (.vStatStat 24) = true ∧ s.engineMayIssue .v (.vStatClear 0 63) = true ∧ s.engineMayIssue .v .vStatEng = true ∧ s.engineMayIssue .v (.vStatPred 7 3) = true ∧
    s.engineMayIssue .v .vStatBind = true ∧ s.here.vec.vlen ≤ 127 ∧ lanesOf s ≤ 128 ∧ (126 : BitVec 8).toNat < s.here.vec.vlen ∧ s.parks .operand ∧
    t.engineMayIssue .v .vStatEng = true ∧ t.engineMayIssue .v .vStatBind = true ∧ t.here.hand.ret.isSome = true := by
  refine ⟨laned false fun v => { v with vlen := 127 }, (laned false).setHere { (laned false).here with hand := { ret := some 0 } }, ?_⟩
  simp only [← and_assoc]
  exact ⟨⟨⟨⟨by decide +kernel, parks_of (by decide +kernel)⟩, by decide +kernel⟩, by decide +kernel⟩, by decide +kernel⟩

/-- A queue with slots of 2,048 bytes at 0x4000; port 1 names it for slots of three rows of 4-byte elements, with row 1 next. -/
def wideQueue : Handle := { gen := 0, ctl := 0x100, geom := 0x0000001300004000 }
def ported (write : Bool) (row : Nat) (w : Word := 0x20003) : State :=
  laned false fun v => { v with
    handles := v.handles.set 3 (some wideQueue), words := [0, w, 0, 0]
    ports := [none, some { h := 3, q := wideQueue, write := write, row := row }, none, none] }

theorem bindable_of {w geom : Word} (h : (decide (w.toNat < 2 ^ 21) && ([1, 2, 4, 5, 8, 10].getD (w.toNat / 2 ^ 16 % 16) 0 != 0) &&
    (w.toNat % 2 ^ 16 != 0) && !(bit w.toNat 20 && [1, 2, 4, 5, 8, 10].getD (w.toNat / 2 ^ 16 % 16) 0 == 10) &&
    decide (w.toNat % 2 ^ 16 * ((if bit w.toNat 20 then 256 else 128) * [1, 2, 4, 5, 8, 10].getD (w.toNat / 2 ^ 16 % 16) 0) ≤
      geomBytes geom)) = true) :
    w.toNat < 2 ^ 21 ∧ [1, 2, 4, 5, 8, 10].getD (w.toNat / 2 ^ 16 % 16) 0 ≠ 0 ∧ w.toNat % 2 ^ 16 ≠ 0 ∧
      ¬ (bit w.toNat 20 = true ∧ [1, 2, 4, 5, 8, 10].getD (w.toNat / 2 ^ 16 % 16) 0 = 10) ∧
      w.toNat % 2 ^ 16 * ((if bit w.toNat 20 then 256 else 128) * [1, 2, 4, 5, 8, 10].getD (w.toNat / 2 ^ 16 % 16) 0) ≤ geomBytes geom := by
  simp only [Bool.and_eq_true, decide_eq_true_eq, bne_iff_ne, ne_eq, Bool.not_eq_true', Bool.and_eq_false_iff, beq_eq_false_iff_ne] at h
  obtain ⟨⟨⟨⟨h1, h2⟩, h3⟩, h4⟩, h5⟩ := h
  refine ⟨h1, h2, h3, fun ⟨a, b⟩ => ?_, h5⟩
  rcases h4 with h4 | h4
  · rw [a] at h4; cases h4
  · exact h4 b

theorem inTurn_of {s : State} {n : Nat} (h : isOk ((portTurn .v (s.here.at_ .v).1 n).run s) = true)
    (h' : after ((portTurn .v (s.here.at_ .v).1 n).run s) = s) : (portTurn .v (s.here.at_ .v).1 n).run s = .ok ⟨⟩ s := by
  rw [run_ofD ⟨⟩ h, h']

theorem test_hyp_port_bind : ∃ s : State, s.engineMayIssue .v (.vPortRead 1 3) = true ∧ s.engineMayIssue .v (.vPortWrite 1 3) = true ∧ s.engineMayIssue .v (.vPortUnbind 1) = true ∧
    (portTurn .v (s.here.at_ .v).1 1).run s = .ok ⟨⟩ s ∧ s.here.vec.handles.getD 3 none = some wideQueue ∧
    s.here.vec.ports.length = 4 ∧ (∀ o, s.here.vec.ports.getD 1 none = some o → o.row = 0) ∧ s.parks .operand ∧
    s.here.vec.words.getD 1 0 = 0x20004 ∧
    ((0x20004 : Word).toNat % 2 ^ 16 * ((if bit (0x20004 : Word).toNat 20 then 256 else 128) *
      [1, 2, 4, 5, 8, 10].getD ((0x20004 : Word).toNat / 2 ^ 16 % 16) 0) ≤ geomBytes wideQueue.geom) ∧
    ¬ (128 * 4 * 5 ≤ geomBytes wideQueue.geom) := by
  refine ⟨ported false 0 0x20004, by decide +kernel, by decide +kernel, by decide +kernel, inTurn_of (by decide +kernel) (by decide +kernel),
    by decide +kernel, by decide +kernel, ?_, parks_of (by decide +kernel), by decide +kernel,
    (bindable_of (by decide +kernel)).2.2.2.2, by decide +kernel⟩
  intro o h
  obtain rfl := Option.some.inj h
  rfl

theorem test_hyp_port_words : ∃ s t : State, rowReady s (.vMov 0 49 0 3) 3 [] 52 ∧ s.here.job.recmode = 0 ∧
    (portTurn .v (s.here.at_ .v).1 1).run s = .ok ⟨⟩ s ∧
    (∃ o, s.here.vec.ports.getD 1 none = some o ∧ 0 < o.row ∧ o.write = false ∧ o.row + 1 < 3) ∧
    bit (s.here.vec.words.getD 1 0).toNat 20 = splitOf s ∧ s.here.runner = none ∧ nameable s 0 ∧ s.records.waiting = [] ∧
    goesOn s { walk := (s.here.at_ .v).1, eng := .v, kinds := { mr := true }, home := some (s.home (padLoc 0 (0x4000 + 512))),
               loc := padLoc 0 (0x4000 + 512), len := 512 } ∧ (rowCode s.here.vec 0).isSome = true ∧
    rowReady t (.vMov 49 0 0 3) 3 [] 52 ∧ (portTurn .v (t.here.at_ .v).1 1).run t = .ok ⟨⟩ t ∧
    (∃ o, t.here.vec.ports.getD 1 none = some o ∧ o.write = true ∧ o.row = 1) ∧ readable t 0 :=
  ⟨ported false 1, ported true 1, rowReady_of (by decide +kernel), by decide +kernel,
    inTurn_of (by decide +kernel) (by decide +kernel), ⟨_, rfl, by decide, by decide, by decide⟩, by decide +kernel,
    by decide +kernel, nameable_of (by decide +kernel), by decide +kernel, Or.inr (by decide +kernel), by decide +kernel,
    rowReady_of (by decide +kernel), inTurn_of (by decide +kernel) (by decide +kernel), ⟨_, rfl, by decide, by decide⟩,
    nameable_of (by decide +kernel), fun p _ hp => by cases hp⟩

/-- The queue of `ported` at its first row, or at its last with a claim made: its counts are p and c. -/
def portedAt (write : Bool) (row p c : Nat) : State :=
  ((ported write row).setHere { (ported write row).here with
    handles := (ported write row).here.handles.set 3 (some wideQueue)
    sides := [(3, { gen := 0, prod := write, owner := .v, claims := (if row = 0 then 0 else 1) })] }).write (padLoc 0 0x100)
      (leBytes 8 p ++ leBytes 8 c ++ leBytes 8 wideQueue.geom.toNat)

theorem owns_of {s : State} {h : Nat} {q : Handle} {p : Bool} {w : Nat} (k : isOk ((ownSide .v h q.gen p w).run s) = true)
    (k' : after ((ownSide .v h q.gen p w).run s) = s) : owns s .v h q p w s := by
  unfold owns
  rw [run_ofD ⟨⟩ k, k']

/-- What the vector engine asks of a port's side at every row. -/
theorem test_hyp_port_sides : ∀ x ∈ [(false, 0, 1), (false, 0, 0), (false, 2, 1), (true, 0, 1), (true, 0, 2), (true, 2, 1)],
    let s := portedAt x.1 x.2.1 x.2.2 0
    (portTurn .v (s.here.at_ .v).1 1).run s = .ok ⟨⟩ s ∧ s.here.job.recmode = 0 ∧ s.here.runner = none ∧
      owns s .v 3 wideQueue x.1 (s.here.at_ .v).1 s ∧ unstreamed s wideQueue x.1 ∧ counts s wideQueue x.2.2 0 ∧
      (∃ o, s.here.vec.ports.getD 1 none = some o ∧ o.row = x.2.1 ∧ ({ s.here.vec with ports := s.here.vec.ports.set 1 (some { o with row := 0 }) } : Vec).orders o = []) ∧
      s.here.claims 3 wideQueue.gen x.1 = (if x.2.1 = 0 then 0 else 1) ∧
      s.held s.cur { walk := (s.here.at_ .v).1, eng := .v, kinds := { mr := !x.1, mw := x.1 }, home := some (s.home (padLoc 0 0x100)),
                     loc := padLoc 0 0x100, len := 64 } = false := by
  simp only [List.mem_cons, List.not_mem_nil, or_false, forall_eq_or_imp, forall_eq]
  refine ⟨?_, ?_, ?_, ?_, ?_, ?_⟩ <;>
  exact ⟨inTurn_of (by decide +kernel) (by decide +kernel), by decide +kernel, by decide +kernel,
    owns_of (by decide +kernel) (by decide +kernel), unstreamed_of _ _ (by decide +kernel),
    ⟨by decide +kernel, by decide +kernel, by decide +kernel, by decide +kernel, by decide +kernel⟩,
    ⟨_, rfl, rfl, by decide +kernel⟩, by decide +kernel, by decide +kernel⟩

/-- A first row of a port that reads, and of one that writes, whose slot is there; where none is. -/
theorem test_hyp_port_slots : (∀ w : Bool, ∃ k u,
      (claimSlot .v 0 { mr := !w, mw := w } 0 3 wideQueue w ((portedAt w 0 1 0).here.at_ .v).1).run (portedAt w 0 1 0) = .ok k u) ∧
    (∃ k u, (claimSlot .v 0 { mr := true } 0 3 wideQueue false ((portedAt false 0 1 0).here.at_ .v).1).run (portedAt false 0 1 0) = .ok k u ∧
      u.verify (padLoc 0 0x4000) (geomBytes wideQueue.geom) = none ∧
      goesOn u { walk := 0, eng := .v, kinds := { mr := true }, home := some (u.home (padLoc 0 0x4000)), loc := padLoc 0 0x4000, len := 512 }) ∧
    0 + geomSlots wideQueue.geom ≤ 2 ∧ (0 : Nat) ≤ 0 := by
  refine ⟨fun w => ?_, ⟨_, _, run_ofD 0 (by decide +kernel), by decide +kernel, Or.inr (by decide +kernel)⟩, by decide +kernel, Nat.le_refl _⟩
  cases w <;> exact ⟨_, _, run_ofD 0 (by decide +kernel)⟩

/-! ## Witnesses: the matrix engine -/

/-- The scalar counter stands ahead of the matrix engine, which f changes. -/
def matted (f : Mat → Mat := id) (g : Core → Core := id) : State :=
  mapped [] fun c => g { c with
    sc := { c.sc with ctr := { walk := 9, addr := 0x124 } }
    mat := f { c.mat with ctr := { walk := 1, addr := 0x104 } } }

theorem sound_of {x : Tiles} {n : Nat} (h : x.bad = []) : sound x n := fun p hp => by rw [h] at hp; cases hp

/-- With no grain in error every access verifies. -/
theorem verified_of {s : State} (h : s.grains = []) (loc len : Nat) : s.verify loc len = none := by
  have : ∀ g, s.grain g = (0, false) := fun g => by simp [State.grain, h, Sparse.get]
  simp [State.verify, this]

/-- A format word (MXINT8 by MXINT8 into I80, one block) in its queue. -/
def formatted (fmt : Word := word (2 ^ 40)) (f : Mat → Mat := id) (caps : List (Option Word) := []) : State :=
  matted f fun c => { c with hand := { c.hand with
    fmtq := [{ walk := 0, val := fmt }], descq := if caps.isEmpty then [] else [{ walk := 1, items := caps }]
    stampq := [{ walk := 0, val := 5 }] } }

/-- A product word of vector tiles 0 and 2 into tile 3. -/
def tileProd (kind : ProdKind) (fmt : Word) (caps : List Word := []) (z : Bool := true) : Prod :=
  ⟨kind, 0, 0, 0, 2, 3, .of fmt, caps, z, 0⟩

theorem productReads_of {s : State} {i : Instr} {st : Bool} {p : Prod} {stamp : Word}
    (h : (s.engineMayIssue .m i && s.here.mat.owed == 0) = true)
    (h1 : isOk ((productPops i st).run s) = true)
    (h2 : (valD (0, 0, []) ((productPops i st).run s)).2.1 = stamp ∧ p.f = Fmt.of (valD (0, 0, []) ((productPops i st).run s)).1 ∧
      p.caps = (valD (0, 0, []) ((productPops i st).run s)).2.2 ∧ p.delta = s.here.matDelta)
    (h6 : isOk ((fetchOperand (s.here.at_ .m).1 p.k p.a p.capA p.delta 128 p.kbA p.f.kext p.f.planeA).run
      (after ((productPops i st).run s))) = true)
    (h7 : isOk ((fetchOperand (s.here.at_ .m).1 p.j p.b p.capB p.delta p.cols p.kbB p.f.kext p.f.planeB).run
      (after ((fetchOperand (s.here.at_ .m).1 p.k p.a p.capA p.delta 128 p.kbA p.f.kext p.f.planeA).run
        (after ((productPops i st).run s))))) = true) :
    ∃ u x y, productReads s u i st stamp p x y := by
  simp only [Bool.and_eq_true, beq_iff_eq] at h
  refine ⟨_, _, _, h.1, h.2, _, _, _, _, ?_, h2.2.1, h2.2.2.1, h2.2.2.2, run_ofD {} h6, run_ofD {} h7⟩
  rw [← h2.1]; exact run_ofD (0, 0, []) h1

/-- Each product word, unstamped; stamped; a metadata offset for M.MMAS. -/
theorem test_hyp_products : (∃ u x y, productReads (formatted (word (2 ^ 40)) fun m => { m with paid := some 0 }) u
      (productOf .mma 0 0 0 2 3 true false false) false 0 (tileProd .mma (word (2 ^ 40))) x y) ∧
    (∃ u x y, productReads (formatted (word (2 ^ 40)) id [some 0]) u (productOf .mmas 0 0 0 2 3 true false false) false 0
      (tileProd .mmas (word (2 ^ 40)) [0]) x y) ∧
    (∃ u x y, productReads (formatted (word (2 ^ 40)) fun m => { m with pin := true }) u (productOf .mmv 0 0 0 2 3 true true false) true 5
      (tileProd .mmv (word (2 ^ 40))) x y) := by
  refine ⟨?_, ?_, ?_⟩
  all_goals
    exact productReads_of (by decide +kernel) (by decide +kernel) (by decide +kernel) (by decide +kernel) (by decide +kernel)

theorem test_hyp_products_state : ∃ s : State, (tileProd .mma (word (2 ^ 40))).refused s.here = false ∧ s.here.mat.paid.isSome = true ∧
    s.here.mat.busy ≤ s.stamp ∧ s.here.badCells = [] ∧ noMeta s ∧ s.here.tiles.sideBad = [] ∧ s.here.matFirst = true ∧
    sound s.here.tiles 3 ∧ (s.here.tiles.operand 0 128 32 1 false).bad = [] ∧ (s.here.tiles.operand 2 128 32 1 false).bad = [] :=
  ⟨formatted (word (2 ^ 40)) fun m => { m with paid := some 0 }, by decide +kernel, by decide +kernel, by decide +kernel, by decide +kernel,
    fun r h => (by cases h), by decide +kernel, by decide +kernel, sound_of (by decide +kernel), by decide +kernel, by decide +kernel⟩

/-- A stamp before, at and after the tick; a toll that the reservation holds and one that it does not. -/
theorem test_hyp_product_toll : ∃ s t : State, s.here.mat.pin = true ∧ s.here.mat.release = false ∧ s.parks .schedmiss ∧
    (4 : Word).toNat < s.stamp ∧ (5 : Word).toNat = s.stamp ∧ t.here.mat.paid = none ∧ t.here.mat.asked = none ∧ t.here.mat.nest = none ∧
    (tileProd .mma (word (2 ^ 40))).toll (assayDue t) {} {} ≤ 2 ^ 20 ∧ t.here.mat.resv = 0 ∧
    0 < (tileProd .mma (word (2 ^ 40))).toll (assayDue t) {} {} :=
  ⟨{ formatted (word (2 ^ 40)) fun m => { m with pin := true } with stamp := 5 }, formatted, by decide +kernel, by decide +kernel,
    parks_of (by decide +kernel), by decide +kernel, by decide +kernel, by decide +kernel, by decide +kernel, by decide +kernel,
    by decide +kernel, by decide +kernel, by decide +kernel⟩

/-- An operand's descriptor at the ends of its fields, and nothing that holds its reads. -/
theorem test_hyp_operands : ∃ (s : State) (a b : Word), s.here.job.recmode = 0 ∧ s.here.runner = none ∧ s.records.waiting = [] ∧
    a.toNat = 2 ^ 63 + 0xFFF8 * 2 ^ 32 + 0x3FFFFF8 ∧ 0x3FFFFF8 < 2 ^ 26 ∧ 0xFFF8 < 2 ^ 16 ∧ b.toNat = 8 ∧
    (∀ w loc len, s.held s.cur
      { walk := w, eng := .m, kinds := { mr := true }, home := some (s.home loc), loc := loc, len := len } = false) :=
  ⟨matted, 0x8000FFF803FFFFF8, 8, by decide +kernel, by decide +kernel, by decide +kernel, by decide, by decide, by decide, by decide,
    fun w loc len => rfl⟩

/-- A format word at the queue's head: a good one, one with a low bit set, one with element code 6, and one of a later word. -/
theorem test_hyp_formats : ∃ s t u v x : State, (∃ h l, s.here.mat.nest = none ∧ s.here.hand.fmtq = h :: l ∧
      h.walk < (s.here.at_ .m).1 ∧ hasCaptures (.mMma 0 0 0 2 3 true false false) = false ∧ h.val.toNat % 2 ^ 26 = 0 ∧
      (Fmt.of h.val).bad = false) ∧
    (∀ s ∈ [t, u, v, x], s.engineMayIssue .m (.mMma 0 0 0 2 3 true false false) = true ∧ s.here.mat.owed = 0 ∧
      s.here.mat.nest = none) ∧
    t.here.hand.fmtq = [] ∧ t.parks .fmtempty ∧
    (∃ h, u.here.hand.fmtq.head? = some h ∧ (u.here.at_ .m).1 ≤ h.walk) ∧ u.parks .fmtempty ∧
    (∃ h, v.here.hand.fmtq.head? = some h ∧ h.walk < (v.here.at_ .m).1 ∧ h.val.toNat % 2 ^ 26 ≠ 0) ∧ v.parks .resbits ∧
    (∃ h, x.here.hand.fmtq.head? = some h ∧ h.walk < (x.here.at_ .m).1 ∧ h.val.toNat % 2 ^ 26 = 0 ∧ 5 < (Fmt.of h.val).a) ∧
    x.parks .operand :=
  ⟨formatted, matted, formatted (word (2 ^ 40)) fun m => { m with ctr := { walk := 0, addr := 0x100 } },
    formatted (word (2 ^ 40 + 2 ^ 25)), formatted (word (2 ^ 40 + 6 * 2 ^ 61)),
    ⟨{ walk := 0, val := word (2 ^ 40) }, [], by decide +kernel, by decide +kernel, by decide +kernel, by decide +kernel,
      by decide +kernel, by decide +kernel⟩,
    by simp only [List.mem_cons, List.not_mem_nil, or_false, forall_eq_or_imp, forall_eq]; decide +kernel,
    by decide +kernel, parks_of (by decide +kernel), ⟨_, rfl, by decide +kernel⟩, parks_of (by decide +kernel),
    ⟨_, rfl, by decide +kernel, by decide +kernel⟩, parks_of (by decide +kernel),
    ⟨_, rfl, by decide +kernel, by decide +kernel, by decide +kernel⟩, parks_of (by decide +kernel)⟩

/-- M.TOLL before, while and after it asks; M.ASSAY and M.START. -/
theorem test_hyp_toll : ∃ s t u : State, matrixTurn s (.mToll 0xFFFFF) ∧ s.here.mat.paid ≠ some 0 ∧ s.here.mat.asked = none ∧
    matrixTurn s .mAssay ∧ matrixTurn s .mStart ∧ s.here.mat.nest = none ∧ matrixTurn t (.mToll 1) ∧ t.here.mat.paid = some 0 ∧
    matrixTurn u (.mToll 1) ∧ u.here.mat.paid = none ∧ u.here.mat.asked.isSome = true :=
  ⟨matted, matted fun m => { m with paid := some 0 }, matted fun m => { m with asked := some (1, 0) },
    ⟨by decide +kernel, rfl, by decide +kernel⟩, by decide +kernel, by decide +kernel, ⟨by decide +kernel, rfl, by decide +kernel⟩,
    ⟨by decide +kernel, rfl, by decide +kernel⟩, by decide +kernel, ⟨by decide +kernel, rfl, by decide +kernel⟩, by decide +kernel,
    ⟨by decide +kernel, rfl, by decide +kernel⟩, by decide +kernel, by decide +kernel⟩

/-- Two requests of one crew, the smaller first; with a level that admits it and one that does not. -/
def asking (level : Int) : State :=
  matted.setBucket 0 { level := level, cap := 500, waiting := [{ core := 1, toll := 9, resv := false, since := 0 },
                                                               { core := 2, toll := 8, resv := true, since := 0 }] }

theorem test_hyp_grant : ∃ r : TollReq, r ∈ ((asking 8).bucket 0).waiting ∧
    (∀ x ∈ ((asking 8).bucket 0).waiting, x = r ∨ servedBefore (asking 8).stamp r x) ∧ (r.toll : Int) ≤ ((asking 8).bucket 0).level ∧
    ¬ ((r.toll : Int) ≤ ((asking 7).bucket 0).level) ∧ ((asking 7).bucket 0).level ≠ ((asking 7).bucket 0).cap := by
  refine ⟨{ core := 2, toll := 8, resv := true, since := 0 }, by decide +kernel, ?_, by decide +kernel, by decide +kernel, by decide +kernel⟩
  intro x hx
  rcases List.mem_cons.mp hx with rfl | hx
  · exact Or.inr (Or.inr (Or.inr ⟨by decide +kernel, by decide +kernel, Or.inl (by decide)⟩))
  · rcases List.mem_singleton.mp hx with rfl; exact Or.inl rfl

theorem test_hyp_refill : ({ State.reset with stamp := 16 } : State).banks.refilled < ({ State.reset with stamp := 16 } : State).stamp / 16 ∧
    ({ State.reset with stamp := 15 } : State).stamp / 16 ≤ ({ State.reset with stamp := 15 } : State).banks.refilled := by decide +kernel

theorem test_hyp_transfers : ∃ s : State, matrixTurn s (.mZero 24 true) ∧ matrixTurn s (.mLoadTile 0 24) ∧ matrixTurn s (.mDrainTile 24 0 true) ∧
    matrixTurn s (.mSwap 3 3) ∧ (∀ n, sound s.here.tiles n) ∧ s.here.hand.ret = none ∧ matrixTurn s (.mStatStat 24) ∧
    matrixTurn s (.mStatClear 0 63) ∧ matrixTurn s .mStatQueues ∧ matrixTurn s .mStatAssay ∧ matrixTurn s .mStatWindow ∧
    matrixTurn s .mStatToll :=
  ⟨matted, ⟨by decide +kernel, rfl, by decide +kernel⟩, ⟨by decide +kernel, rfl, by decide +kernel⟩, ⟨by decide +kernel, rfl, by decide +kernel⟩,
    ⟨by decide +kernel, rfl, by decide +kernel⟩, fun n => sound_of (by decide +kernel), by decide +kernel,
    ⟨by decide +kernel, rfl, by decide +kernel⟩, ⟨by decide +kernel, rfl, by decide +kernel⟩, ⟨by decide +kernel, rfl, by decide +kernel⟩,
    ⟨by decide +kernel, rfl, by decide +kernel⟩, ⟨by decide +kernel, rfl, by decide +kernel⟩, ⟨by decide +kernel, rfl, by decide +kernel⟩⟩

/-- Rows of 1,280 bytes back to back at crew offset 8, and the last place where they fit. -/
theorem test_hyp_transfer_desc : ∃ (s : State) (a b c : Word), matrixTurn s (.mLoadDesc 3 0 false 7) ∧ matrixTurn s (.mDrainDesc 3 0 7 true) ∧
    captured s a b ∧ padDesc a b 8 1280 ∧ padDesc c b (2 ^ 26 - 128 * 1280) 1280 ∧ unlogged s ∧
    rowsClear s 7 8 1280 { mr := true } ∧ (∀ r, r < 128 → s.verify (padRow s 8 1280 r) 1280 = none) ∧ sound s.here.tiles 3 :=
  ⟨formatted (word (2 ^ 40)) id [some (word (2 ^ 63 + 1280 * 2 ^ 32 + 8)), some 0], word (2 ^ 63 + 1280 * 2 ^ 32 + 8), 0,
    word (2 ^ 63 + 1280 * 2 ^ 32 + (2 ^ 26 - 128 * 1280)), ⟨by decide +kernel, rfl, by decide +kernel⟩, ⟨by decide +kernel, rfl, by decide +kernel⟩,
    ⟨by decide +kernel, { walk := 1, items := [some (word (2 ^ 63 + 1280 * 2 ^ 32 + 8)), some 0] }, by decide +kernel, rfl⟩,
    ⟨by decide +kernel, by decide, by decide, by decide, by decide, by decide, by decide, by decide⟩,
    ⟨by decide +kernel, by decide, by decide, by decide, by decide, by decide, by decide, by decide⟩,
    ⟨by decide +kernel, by decide +kernel, by decide +kernel⟩, fun r _ => Or.inr rfl, fun r _ => verified_of rfl _ _, sound_of (by decide +kernel)⟩

/-- A nest of two words over a loop set with n trips; its body's text is in the text cache. -/
def nesting (n : Nat) (w : Nat) : State :=
  matted (fun m => { m with loops := m.loops.set 2 { words := [0, word n, 1, 1, 1, 1, 1] } }) fun c => { c with
    vec := { c.vec with loops := c.vec.loops.set 2 { words := [0, word n, 1, 1, 1, 1, 1] } }
    cpy := { c.cpy with loops := c.cpy.loops.set 2 { words := [0, word n, 1, 1, 1, 1, 1] } }
    text := [(1, (List.replicate 8 [leBytes 4 w]).flatten.flatten)] }

theorem test_hyp_nests : ∃ s t u v : State, s.engineMayIssue .m (.mNest 1 2) = true ∧ v.engineMayIssue .v (.vNest 1 2 4) = true ∧
    s.engineMayIssue .x (.xNest 1 2) = true ∧
    (∀ n w, ([0x8A000000, 0x8A000000] : List (BitVec 32))[n]? = some w →
      (fetchText ((s.here.at_ .m).2 + word (4 * (n + 1)))).run s = .ok w s) ∧
    ((List.range 6).map fun d => ((s.here.mat.loops.getD 2 {}).words.getD (d + 1) 0).toNat % 2 ^ 32).prod = 3 ∧
    ((List.range 6).map fun d => ((t.here.mat.loops.getD 2 {}).words.getD (d + 1) 0).toNat % 2 ^ 32).prod = 0 ∧
    (∀ n w, ([0x8B000000, 0x8B000000] : List (BitVec 32))[n]? = some w →
      (fetchText ((u.here.at_ .m).2 + word (4 * (n + 1)))).run u = .ok w u) ∧ u.earlierFirst .m = false ∧ u.parks .illword := by
  refine ⟨nesting 3 0x8A000000, nesting 0 0x8A000000, nesting 3 0x8B000000, nesting 3 0, by decide +kernel, by decide +kernel,
    by decide +kernel, ?_, by decide +kernel, by decide +kernel, ?_, by decide +kernel, parks_of (by decide +kernel)⟩ <;>
  · intro n w h
    match n with
    | 0 => obtain rfl := Option.some.inj h; exact (run_ofD 0 (by decide +kernel)).trans (by congr 1)
    | 1 => obtain rfl := Option.some.inj h; exact (run_ofD 0 (by decide +kernel)).trans (by congr 1)
    | n + 2 => cases h

/-- A nest without a step whose body is two times an M.MMAS (0x82000000), ready to pop for the first. -/
def popping : Nest :=
  { set := 2, stages := 0, body := [0x82000000, 0x82000000], trips := 0, steps := 1, iter := 0, pos := 0, rrb := 0, caps := [] }
def poppingWith (fmt : Word) : State :=
  let s := formatted fmt fun m => { m with nest := some popping }
  s.setHere { s.here with hand := { s.here.hand with descq := [{ walk := 2, items := [some 1, some 0] }] } }

theorem test_hyp_pop_word : ∃ s t u : State, isProduct 0x82000000 = true ∧ captureOf 0x82000000 ≠ [] ∧
    isProduct 0x8A000000 = false ∧ captureOf 0x8A000000 = [] ∧ isProduct 0x85000000 = false ∧
    (∀ q ∈ [s, t, u], q.here.awake = true ∧ q.gatedBelow = false ∧ q.here.mat.nest = some popping ∧ popping.iter = 0 ∧
      q.here.mat.ctr.stop = false ∧ q.here.mat.ctr.next = none ∧ q.here.stands (q.here.at_ .m).1 = true) ∧
    (∃ h l, s.here.hand.fmtq = h :: l ∧ h.walk < (s.here.at_ .m).1 ∧ h.val.toNat % 2 ^ 26 = 0 ∧ (Fmt.of h.val).bad = false) ∧
    (∃ x, s.here.hand.descq.find? (fun x => x.walk == (s.here.at_ .m).1) = some x ∧ ∀ i ∈ x.items, i.isSome = true) ∧
    (∃ h l, t.here.hand.fmtq = h :: l ∧ h.walk < (t.here.at_ .m).1 ∧ h.val.toNat % 2 ^ 26 ≠ 0) ∧ t.parks .resbits ∧
    (∃ h l, u.here.hand.fmtq = h :: l ∧ h.walk < (u.here.at_ .m).1 ∧ h.val.toNat % 2 ^ 26 = 0 ∧ (Fmt.of h.val).bad = true) ∧
    u.parks .operand := by
  refine ⟨poppingWith (word (2 ^ 40)), poppingWith 1, poppingWith (word (2 ^ 40 + 6 * 2 ^ 61)), by decide +kernel, by decide +kernel,
    by decide +kernel, by decide +kernel, by decide +kernel, ?_,
    ⟨_, _, rfl, by decide +kernel⟩, ⟨_, rfl, List.all_eq_true.mp rfl⟩,
    ⟨_, _, rfl, by decide +kernel⟩, parks_of (by decide +kernel),
    ⟨_, _, rfl, by decide +kernel⟩, parks_of (by decide +kernel)⟩
  simp only [List.mem_cons, List.not_mem_nil, or_false, forall_eq_or_imp, forall_eq]
  decide +kernel

/-! ## Witnesses: copy words -/

/-- A copy descriptor by its fields. -/
def cdesc (addr etype rowlen : Nat) (pitch nrows aux kind loop : Nat := 0) : List Word :=
  [word addr, word (kind * 2 ^ 62 + loop * 2 ^ 61 + etype * 2 ^ 52 + rowlen), word (pitch * 2 ^ 32 + nrows), word aux]

/-- The scalar counter stands ahead of the copy engine, which holds descriptors 1 and 2, loop set 1 of n trips, and handle 3. -/
def copier (d1 d2 : List Word) (n : Nat) (f : Core → Core := id) : State :=
  mapped [] fun c => f { c with
    sc := { c.sc with ctr := { walk := 9, addr := 0x124 } }
    handles := c.handles.set 3 (some queue)
    cpy := { c.cpy with
      ctr := { walk := 1, addr := 0x104 }
      handles := c.cpy.handles.set 3 (some queue)
      descs := (c.cpy.descs.set 1 d1).set 2 d2
      loops := c.cpy.loops.set 1 { words := [0, word n, 1, 1, 1, 1, 1] } } }

/-- Unit `unit` of n of word i in flight over descriptors d1 and d2 and a loop set of n trips, changed by f; a machine in whose copy
engine it stands alone. -/
def runOf (i : Instr) (unit n : Nat) (d1 d2 : List Word) (f : CopyRun → CopyRun := id) : CopyRun :=
  f { id := 1, word := i, walk := 1, addr := 0x104, unit := unit, units := n, src := CDesc.ofWords d1, dst := CDesc.ofWords d2
      words := d1, loop := { words := [0, word n, 1, 1, 1, 1, 1] }, h := 3, q := some queue }
def inFlight (rs : List CopyRun) (f : Core → Core := id) : State :=
  copier [] [] 1 fun c => f { c with cpy := { c.cpy with ctr := { walk := 2, addr := 0x108 }, runs := rs, issued := rs.length } }

theorem copying_of {s : State} {r : CopyRun}
    (h : (s.here.awake && !s.gatedBelow && s.here.job.recmode == 0 && s.here.runner.isNone && s.here.cpy.runs[s.pick]? == some r &&
      !r.passed && r.claimed && decide (r.unit < r.units) && (s.here.cpy.runs.take s.pick).all (·.claimed) && s.here.firstRun r &&
      (decide (r.unit + 1 < r.units) || r.srcSlot.isNone && r.dstSlot.isNone)) = true) : copying s r := by
  simp only [Bool.and_eq_true, Bool.or_eq_true, Bool.not_eq_true', decide_eq_true_eq, beq_iff_eq, List.all_eq_true,
    Option.isNone_iff_eq_none] at h
  obtain ⟨⟨⟨⟨⟨⟨⟨⟨⟨⟨h1, h2⟩, h3⟩, h4⟩, h5⟩, h6⟩, h7⟩, h8⟩, h9⟩, h10⟩, h11⟩ := h
  exact ⟨⟨h1, h2, h3, h4, h5, h6, h7, h8, h9, Or.inl h10⟩, h11⟩

theorem atUnit_of {s : State} {r : CopyRun}
    (h : (s.here.awake && !s.gatedBelow && s.here.job.recmode == 0 && s.here.runner.isNone && s.here.cpy.runs[s.pick]? == some r &&
      !r.passed && r.claimed && decide (r.unit < r.units) && (s.here.cpy.runs.take s.pick).all (·.claimed) && s.here.firstRun r) = true) :
    atUnit s r := by
  simp only [Bool.and_eq_true, Bool.not_eq_true', decide_eq_true_eq, beq_iff_eq, List.all_eq_true, Option.isNone_iff_eq_none] at h
  obtain ⟨⟨⟨⟨⟨⟨⟨⟨⟨h1, h2⟩, h3⟩, h4⟩, h5⟩, h6⟩, h7⟩, h8⟩, h9⟩, h10⟩ := h
  exact ⟨h1, h2, h3, h4, h5, h6, h7, h8, h9, Or.inl h10⟩

theorem mayStart_of {s : State} {i : Instr} (h : (s.engineMayIssue .x i && s.here.cpy.runs.all (·.claimed)) = true) :
    copyMayStart s i := by
  simpa [copyMayStart] using h

/-- A word that passes its checks, with trips and without; and one that does not, which the task parks. -/
def startable (i : Instr) (ok : CDesc → CDesc → Nat → Prop) (dq : Bool := true) : Prop :=
  (∃ s, copyMayStart s i ∧ addrOk (met s i).src ∧ addrOk (met s i).dst ∧ tripsOf (met s i).loop ≤ 2 ^ 32 ∧
    ok (met s i).src (met s i).dst (tripsOf (met s i).loop) ∧ (met s i).src.kind = 0 ∧ (dq = true → (met s i).dst.kind = 0) ∧
    tripsOf (met s i).loop ≠ 0) ∧
  ∃ s, copyMayStart s i ∧ (∀ r ∈ s.here.cpy.runs, r.passed = true) ∧ s.parks .operand ∧ ¬ addrOk (met s i).src

theorem startable_of {i : Instr} {ok : CDesc → CDesc → Nat → Prop} {dq : Bool} (s t : State)
    (h : (s.engineMayIssue .x i && s.here.cpy.runs.all (·.claimed) && (met s i).src.res == false && (met s i).dst.res == false &&
      (met s i).src.kind == 0 && (met s i).dst.kind == 0 && decide (tripsOf (met s i).loop ≤ 2 ^ 32) && tripsOf (met s i).loop != 0) = true)
    (ho : ok (met s i).src (met s i).dst (tripsOf (met s i).loop))
    (h' : (t.engineMayIssue .x i && t.here.cpy.runs.isEmpty && (met t i).src.res && parksB t .operand) = true) :
    startable i ok dq := by
  simp only [Bool.and_eq_true, bne_iff_ne, decide_eq_true_eq, beq_iff_eq, List.all_eq_true, List.isEmpty_iff] at h h'
  obtain ⟨⟨⟨⟨⟨⟨⟨h1, h2⟩, h3⟩, h4⟩, h5⟩, h6⟩, h7⟩, h8⟩ := h
  refine ⟨⟨s, ⟨h1, h2⟩, ⟨h3, by omega⟩, ⟨h4, by omega⟩, h7, ho, h5, fun _ => h6, h8⟩, t, ⟨h'.1.1.1, ?_⟩, ?_, parks_of h'.2, ?_⟩
  · intro r hr; rw [h'.1.1.2] at hr; cases hr
  · intro r hr; rw [h'.1.1.2] at hr; cases hr
  · intro hn; have := hn.1; simp_all

/-- A descriptor with a reserved bit set. -/
def odd : State := copier [0, word (2 ^ 56), 0, 0] [0, word (2 ^ 56), 0, 0] 1

/-- Rows of the largest length, one row of the smallest, the ends of a word's own limits. -/
theorem test_hyp_copy_starts (v w : Bool) :
    startable (.xCopy 1 2 1 3 0 v) (fun x _ _ => lenOk x) ∧ startable (.xGath 1 2 1 3 0) (fun x _ _ => lenOk x ∧ flat x) ∧
    startable (.xScat 1 2 1 3 0) (fun x y _ => lenOk x ∧ flat y) ∧
    startable (.xSadd 1 2 1 3 0 w) (fun x y _ => lenOk x ∧ flat y ∧ x.etype = y.etype ∧ x.etype ≤ 6 ∧ x.rowlen = y.rowlen ∧
      x.rowlen % sizeOf' x.etype = 0) ∧
    startable (.xTrans 1 2 1 3 0) (fun x y n => lenOk x ∧ lenOk y ∧ flat y ∧ x.etype ≤ 8 ∧ x.etype = y.etype ∧
      y.rowlen = n * sizeOf' x.etype ∧ x.rowlen % sizeOf' x.etype = 0) ∧
    startable (.xPad 1 2 1 3 0) (fun x y _ => lenOk x ∧ lenOk y ∧ y.etype ≤ 8 ∧ x.rowlen ≤ y.rowlen ∧
      x.rowlen % sizeOf' y.etype = 0 ∧ y.rowlen % sizeOf' y.etype = 0) ∧
    startable (.xMeta 1 2 1 3 0) (fun x y n => lenOk x ∧ flat y ∧ y.addr.toNat % 8 = 0 ∧ y.addr.toNat + n * x.rowlen ≤ 98304) := by
  cases v <;> cases w <;>
  exact ⟨startable_of (copier (cdesc 0 0 1048576) (cdesc 0 0 0) 3) odd (by decide +kernel) ⟨by decide +kernel, by decide +kernel⟩ (by decide +kernel),
    startable_of (copier (cdesc 0 0 1) (cdesc 0 0 0) 1) odd (by decide +kernel) ⟨⟨by decide +kernel, by decide +kernel⟩, by decide +kernel, by decide +kernel⟩ (by decide +kernel),
    startable_of (copier (cdesc 0 0 1) (cdesc 0 0 0) (2 ^ 32 - 1)) odd (by decide +kernel) ⟨⟨by decide +kernel, by decide +kernel⟩, by decide +kernel, by decide +kernel⟩ (by decide +kernel),
    startable_of (copier (cdesc 0 6 8) (cdesc 0 6 8) 3) odd (by decide +kernel)
      ⟨⟨by decide +kernel, by decide +kernel⟩, ⟨by decide +kernel, by decide +kernel⟩, by decide +kernel, by decide +kernel, by decide +kernel, by decide +kernel⟩ (by decide +kernel),
    startable_of (copier (cdesc 0 8 20) (cdesc 0 8 30) 3) odd (by decide +kernel)
      ⟨⟨by decide +kernel, by decide +kernel⟩, ⟨by decide +kernel, by decide +kernel⟩, ⟨by decide +kernel, by decide +kernel⟩, by decide +kernel, by decide +kernel, by decide +kernel, by decide +kernel⟩ (by decide +kernel),
    startable_of (copier (cdesc 0 0 20) (cdesc 0 8 20) 3) odd (by decide +kernel)
      ⟨⟨by decide +kernel, by decide +kernel⟩, ⟨by decide +kernel, by decide +kernel⟩, by decide +kernel, by decide +kernel, by decide +kernel, by decide +kernel⟩ (by decide +kernel),
    startable_of (copier (cdesc 0 0 32) (cdesc (98304 - 96) 0 0) 3) odd (by decide +kernel)
      ⟨⟨by decide +kernel, by decide +kernel⟩, ⟨by decide +kernel, by decide +kernel⟩, by decide +kernel, by decide +kernel⟩ (by decide +kernel)⟩

theorem test_hyp_far_copy_starts (v w : Bool) :
    startable (.xFread 1 2 1 3 0 v) (fun x y _ => x.kind = 0 ∧ lenOk x ∧ (y.kind = 1 → y.rowlen = x.rowlen)) ∧
    startable (.xFapp 1 2 1 0 v) (fun x y _ => y.kind = 0 ∧ lenOk x ∧ y.addr.toNat % 2 ^ 42 = 0) ∧
    startable (.xKv 1 2 1 0 v) (fun x _ _ => x.kind = 0 ∧ lenOk x) false ∧
    startable (.xHin 1 2 1 3 0 v) (fun x y _ => flat x ∧ lenOk x ∧ (y.kind = 1 → y.rowlen = x.rowlen)) ∧
    startable (.xHout 1 2 1 3 0 v) (fun x y _ => lenOk x ∧ flat y) ∧
    startable (.xHdec 1 2 1 3 0 v) (fun x y n => flat x ∧ lenOk x ∧ y.kind = 0 ∧ y.aux.toNat + n ≤ 2 ^ 64) ∧
    startable (.xIred 1 2 1 0 v w) (fun x y _ => flat x ∧ flat y ∧ x.etype ≤ 1 ∧ y.etype = 2 ∧ sizeOf' x.etype ≤ x.rowlen ∧
      x.rowlen ≤ 4096 ∧ x.rowlen % sizeOf' x.etype = 0 ∧ y.rowlen = 4 * (x.rowlen / sizeOf' x.etype)) ∧
    startable (.xBankp 1 2 1 0 v) (fun x y _ => flat x ∧ y.kind = 0 ∧ x.rowlen % 4 = 0 ∧ 68 ≤ x.rowlen ∧ x.rowlen ≤ 1088) ∧
    startable (.xBankt 1 2 1 0 v) (fun x y _ => flat x ∧ y.kind = 0 ∧ x.rowlen % 8 = 0 ∧ 8 ≤ x.rowlen ∧ x.rowlen ≤ 8192 ∧
      y.aux ≠ 0 ∧ y.aux.toNat % 2 ^ 19 = 0) := by
  cases v <;> cases w <;>
  exact ⟨startable_of (copier (cdesc 0 0 1048576) (cdesc 0 0 0) 3) odd (by decide +kernel) ⟨by decide +kernel, ⟨by decide +kernel, by decide +kernel⟩, by decide +kernel⟩ (by decide +kernel),
    startable_of (copier (cdesc 0 0 16384) (cdesc (2 ^ 42) 0 0) 1) odd (by decide +kernel) ⟨by decide +kernel, ⟨by decide +kernel, by decide +kernel⟩, by decide +kernel⟩ (by decide +kernel),
    startable_of (copier (cdesc 0 0 1) (cdesc 0 0 0) 1) odd (by decide +kernel) ⟨by decide +kernel, by decide +kernel, by decide +kernel⟩ (by decide +kernel),
    startable_of (copier (cdesc 0 0 1048576) (cdesc 0 0 0) 3) odd (by decide +kernel) ⟨⟨by decide +kernel, by decide +kernel⟩, ⟨by decide +kernel, by decide +kernel⟩, by decide +kernel⟩ (by decide +kernel),
    startable_of (copier (cdesc 0 0 1) (cdesc 0 0 0) 1) odd (by decide +kernel) ⟨⟨by decide +kernel, by decide +kernel⟩, by decide +kernel, by decide +kernel⟩ (by decide +kernel),
    startable_of (copier (cdesc 0 0 1) (cdesc 0 0 0 0 0 (2 ^ 64 - 3)) 3) odd (by decide +kernel) ⟨⟨by decide +kernel, by decide +kernel⟩, ⟨by decide +kernel, by decide +kernel⟩, by decide +kernel, by decide +kernel⟩ (by decide +kernel),
    startable_of (copier (cdesc 0 1 4096) (cdesc 0 2 8192) 3) odd (by decide +kernel)
      ⟨⟨by decide +kernel, by decide +kernel⟩, ⟨by decide +kernel, by decide +kernel⟩, by decide +kernel, by decide +kernel, by decide +kernel, by decide +kernel, by decide +kernel, by decide +kernel⟩ (by decide +kernel),
    startable_of (copier (cdesc 0 0 1088) (cdesc 0 0 0) 3) odd (by decide +kernel) ⟨⟨by decide +kernel, by decide +kernel⟩, by decide +kernel, by decide +kernel, by decide +kernel, by decide +kernel⟩ (by decide +kernel),
    startable_of (copier (cdesc 0 0 8192) (cdesc 0 0 0 0 0 (2 ^ 19)) 3) odd (by decide +kernel) ⟨⟨by decide +kernel, by decide +kernel⟩, by decide +kernel, by decide +kernel, by decide +kernel, by decide +kernel, by decide +kernel, by decide +kernel⟩ (by decide +kernel)⟩

/-- The same words behind one in flight that may still trap. -/
theorem test_hyp_copy_waits_to_trap : ∃ s : State, copyMayStart s (.xCopy 1 2 1 3 0 true) ∧ (∃ r ∈ s.here.cpy.runs, r.passed = false) ∧
    ¬ addrOk (met s (.xCopy 1 2 1 3 0 true)).src := by
  refine ⟨odd.setHere { odd.here with cpy := { odd.here.cpy with runs := [runOf (.xCheck 1 1 3 0) 0 1 [] []] } },
    mayStart_of (by decide +kernel), ⟨runOf (.xCheck 1 1 3 0) 0 1 [] [], by decide +kernel, by decide +kernel⟩, fun h => ?_⟩
  exact absurd h.1 (by decide +kernel)

/-- A machine where slot 5 of the crew's tag table holds tag 0x1234. -/
def slotTagged : State :=
  (copier (cdesc (2 ^ 63 + 5 * 2 ^ 16) 0 1) (cdesc 0x12340000 0 0) (2 ^ 32 - 1)).setCrew 0 { (State.reset.crew 0) with tags := [(5, 0x1234)] }

/-- X.CHECK; the tag of slot 5 for X.FILL and X.EVICT. -/
theorem test_hyp_other_starts : ∃ s t : State, copyMayStart s (.xCheck 1 1 3 0) ∧ addrOk (met s (.xCheck 1 1 3 0)).src ∧
    (met s (.xCheck 1 1 3 0)).src.kind = 0 ∧ lenOk (met s (.xCheck 1 1 3 0)).src ∧
    tripsOf (met s (.xCheck 1 1 3 0)).loop = 2 ^ 32 - 1 ∧ copyMayStart s (.xFill 2 1 0 true) ∧ copyMayStart s (.xEvict 1 2 0 false) ∧
    (descNo s 2).addr.toNat = 0x12340000 ∧ (descNo s 1).addr.toNat = 2 ^ 63 + 5 * 2 ^ 16 ∧
    (∃ e, (s.crew (clusterOf s.cur)).tags.find? (fun e => e.1 == 5) = some e ∧ e.2.toNat = 0x1234) ∧
    copyMayStart t (.xFill 2 1 0 true) ∧ (t.crew (clusterOf t.cur)).tags = [] ∧ (∀ r ∈ t.here.cpy.runs, r.passed = true) ∧ t.parks .operand :=
  ⟨slotTagged, copier (cdesc (2 ^ 63 + 5 * 2 ^ 16) 0 1) (cdesc 0x12340000 0 0) 1, mayStart_of (by decide +kernel),
    ⟨by decide +kernel, by decide +kernel⟩, by decide +kernel, ⟨by decide +kernel, by decide +kernel⟩, by decide +kernel,
    mayStart_of (by decide +kernel), mayStart_of (by decide +kernel), by decide +kernel, by decide +kernel,
    ⟨(5, 0x1234), by decide +kernel, by decide +kernel⟩, mayStart_of (by decide +kernel), by decide +kernel, by decide +kernel,
    parks_of (by decide +kernel)⟩

/-- X.WAIT over classes 3 and 0 beside a word of class 1, and beside words of class 0 in flight and in the request path. -/
theorem test_hyp_copy_wait : ∃ s t u : State, (∀ q ∈ [s, t, u], q.engineMayIssue .x (.xWait 9) = true) ∧
    (∃ r ∈ s.here.cpy.runs, r.cls = 1) ∧ (∀ r ∈ s.here.cpy.runs, (9 : BitVec 16).getLsbD r.cls = false) ∧
    (∀ p ∈ s.here.req.path, p.acc.run ≠ 0 → (9 : BitVec 16).getLsbD p.acc.cls = false) ∧
    (∃ r ∈ t.here.cpy.runs, (9 : BitVec 16).getLsbD r.cls = true) ∧
    (∃ p ∈ u.here.req.path, p.acc.run ≠ 0 ∧ (9 : BitVec 16).getLsbD p.acc.cls = true) := by
  refine ⟨inFlight [runOf (.xCheck 1 1 3 1) 0 1 [] [] fun r => { r with cls := 1 }], inFlight [runOf (.xCheck 1 1 3 0) 0 1 [] []],
    inFlight [] fun c => { c with req := { c.req with path := [copyHeld] } }, ?_, by decide +kernel, by decide +kernel, by decide +kernel,
    by decide +kernel, ⟨copyHeld, by decide +kernel, by decide +kernel⟩⟩
  simp only [List.mem_cons, List.not_mem_nil, or_false, forall_eq_or_imp, forall_eq]
  decide +kernel

/-- X.BANKGO's channels 3 and 70. -/
theorem test_hyp_bankgo_starts : ∃ s t : State, copyMayStart s (.xBankgo 1 0) ∧ s.here.cpy.descs.getD 1 [] = [8, 64, word (7 * 2 ^ 32), 100] ∧
    copyMayStart t (.xBankgo 1 0) ∧ t.here.cpy.descs.getD 1 [] = [8, 64, 0, 100] ∧ (∀ r ∈ t.here.cpy.runs, r.passed = true) ∧
    t.parks .operand :=
  ⟨copier [8, 64, word (7 * 2 ^ 32), 100] [] 1, copier [8, 64, 0, 100] [] 1, mayStart_of (by decide +kernel), by decide +kernel,
    mayStart_of (by decide +kernel), by decide +kernel, by decide +kernel, parks_of (by decide +kernel)⟩

/-- A queue of two slots of 256 bytes whose counts are p and c and whose side has k claims. -/
def slotted (s : State) (p c k : Nat) (prod : Bool) : State :=
  (s.setHere { s.here with sides := [(3, { gen := 0, prod := prod, owner := .x, claims := k })] }).write (padLoc 0 0x100)
    (leBytes 8 p ++ leBytes 8 c ++ leBytes 8 queue.geom.toNat)

/-- A slot filled whole by two rows from it, and two rows into one; rows that do not fit; a handle that is not set. -/
theorem test_hyp_slots :
    let i := Instr.xCopy 1 2 1 3 0 true
    ∃ s t u v : State, ∃ m n : Nat, ∃ s' t' : State,
    (∀ q ∈ [s, t, u, v], copyMayStart q i ∧ (met q i).src.res = false ∧ (met q i).dst.res = false ∧ lenOk (met q i).src ∧
      tripsOf (met q i).loop ≤ 2 ^ 32 ∧ tripsOf (met q i).loop ≠ 0) ∧
    (∀ q ∈ [s, u, v], (met q i).src.kind = 1 ∧ (met q i).dst.kind = 0) ∧ (met t i).src.kind = 0 ∧ (met t i).dst.kind = 1 ∧
    (∀ q ∈ [s, t, u], q.here.cpy.handles.getD 3 none = some queue) ∧ v.here.cpy.handles.getD 3 none = none ∧
    (∀ q ∈ [s, t], tripsOf (met q i).loop * (met q i).src.rowlen = geomBytes queue.geom) ∧
    (claimSlot .x 0 { cr := true, cw := false } (met s i).id 3 queue false (met s i).walk).run s = .ok m s' ∧
    (claimSlot .x 0 { cr := false, cw := true } (met t i).id 3 queue true (met t i).walk).run t = .ok n t' ∧
    geomBytes queue.geom < tripsOf (met u i).loop * (met u i).src.rowlen ∧ u.parks .operand ∧ v.parks .qfault := by
  refine ⟨slotted (copier (cdesc 0 0 128 0 0 0 1) (cdesc 0x10000 0 0) 2) 2 0 1 false,
    slotted (copier (cdesc 0x10000 0 128) (cdesc 0 0 0 0 0 0 1) 2) 1 0 0 true, copier (cdesc 0 0 257 0 0 0 1) (cdesc 0x10000 0 0) 1,
    copier (cdesc 0 0 128 0 0 0 1) (cdesc 0x10000 0 0) 2 fun c => { c with cpy := { c.cpy with handles := List.replicate 16 none } },
    _, _, _, _, ?_, ?_, by decide +kernel, by decide +kernel, ?_, by decide +kernel, ?_, run_ofD 0 (by decide +kernel),
    run_ofD 0 (by decide +kernel), by decide +kernel, parks_of (by decide +kernel), parks_of (by decide +kernel)⟩ <;>
  simp only [List.mem_cons, List.not_mem_nil, or_false, forall_eq_or_imp, forall_eq]
  · refine ⟨?_, ?_, ?_, ?_⟩ <;>
      exact ⟨mayStart_of (by decide +kernel), by decide +kernel, by decide +kernel, ⟨by decide +kernel, by decide +kernel⟩,
        by decide +kernel, by decide +kernel⟩
  all_goals decide +kernel

/-- A word over descriptors 1 and 2 and n trips with a queue of counts p and 0 as its source or its destination: it passes its
checks, its rows fit the slot, and the slot is there. -/
def claimsSlot (i : Instr) (d1 d2 : List Word) (n p : Nat) (prod : Bool) : Bool :=
  let s := slotted (copier d1 d2 n) p 0 0 prod
  let r := met s i
  s.engineMayIssue .x i && s.here.cpy.runs.isEmpty && r.src.kind == (if prod then 0 else 1) && r.dst.kind == (if prod then 1 else 0) &&
    !r.src.res && !r.dst.res && r.src.rowlen != 0 && r.q == some queue && tripsOf r.loop == n &&
    isOk ((claimSlot .x r.cls { cr := !prod, cw := prod } r.id r.h queue prod r.walk).run s)

theorem test_hyp_queue_starts (v : Bool) : ∀ x ∈ [(Instr.xGath 1 2 1 3 0, cdesc 0x10000 0 128, cdesc 0 0 0 0 0 0 1, true),
      (.xScat 1 2 1 3 0, cdesc 0 0 128 0 0 0 1, cdesc 0x10000 0 0, false),
      (.xSadd 1 2 1 3 0 v, cdesc 0 6 8 0 0 0 1, cdesc 0 6 8, false), (.xTrans 1 2 1 3 0, cdesc 0 8 20 0 0 0 1, cdesc 0 8 20, false),
      (.xPad 1 2 1 3 0, cdesc 0 0 20, cdesc 0 8 20 0 0 0 1, true), (.xMeta 1 2 1 3 0, cdesc 0 0 32 0 0 0 1, cdesc 0 0 0, false),
      (.xFread 1 2 1 3 0 v, cdesc 0 0 128, cdesc 0 0 128 0 0 0 1, true), (.xHin 1 2 1 3 0 v, cdesc 0 0 128, cdesc 0 0 128 0 0 0 1, true),
      (.xHout 1 2 1 3 0 v, cdesc 0 0 128 0 0 0 1, cdesc 0 0 0, false)],
    claimsSlot x.1 x.2.1 x.2.2.1 2 1 x.2.2.2 = true := by
  cases v <;> simp only [List.mem_cons, List.not_mem_nil, or_false, forall_eq_or_imp, forall_eq] <;>
  exact ⟨by decide +kernel, by decide +kernel, by decide +kernel, by decide +kernel, by decide +kernel, by decide +kernel,
    by decide +kernel, by decide +kernel, by decide +kernel⟩

/-- X.CHECK of a slot; X.FAPP from one, whose queue is handle 0. -/
theorem test_hyp_check_claims : ∃ s u : State, ∃ k, copyMayStart s (.xCheck 1 1 3 0) ∧ (met s (.xCheck 1 1 3 0)).src.kind = 1 ∧
    (met s (.xCheck 1 1 3 0)).src.res = false ∧ lenOk (met s (.xCheck 1 1 3 0)).src ∧ tripsOf (met s (.xCheck 1 1 3 0)).loop = 2 ∧
    (met s (.xCheck 1 1 3 0)).q = some queue ∧
    (claimSlot .x 0 { cr := true } (met s (.xCheck 1 1 3 0)).id 3 queue false (met s (.xCheck 1 1 3 0)).walk).run s = .ok k u :=
  ⟨slotted (copier (cdesc 0 0 128 0 0 0 1) [] 2) 1 0 0 false, _, _, mayStart_of (by decide +kernel), by decide +kernel, by decide +kernel,
    ⟨by decide +kernel, by decide +kernel⟩, by decide +kernel, by decide +kernel, run_ofD 0 (by decide +kernel)⟩

/-- A slot of handle 0. -/
def firstQueue : State :=
  let s := slotted (copier (cdesc 0 0 128 0 0 0 1) (cdesc (2 ^ 42) 0 0) 2) 1 0 0 false
  let c := { s.here.cpy with handles := s.here.cpy.handles.set 0 (some queue) }
  s.setHere { s.here with
    handles := s.here.handles.set 0 (some queue), cpy := c, sides := [(0, { gen := 0, prod := false, owner := .x, claims := 0 })] }

theorem test_hyp_fapp_claims (v : Bool) : let i := Instr.xFapp 1 2 1 0 v
    ∃ u k, copyMayStart firstQueue i ∧ (met firstQueue i).src.kind = 1 ∧ (met firstQueue i).dst.kind = 0 ∧
      (met firstQueue i).q = some queue ∧
      (claimSlot .x 0 { cr := true } (met firstQueue i).id 0 queue false (met firstQueue i).walk).run firstQueue = .ok k u := by
  cases v <;>
  exact ⟨_, _, mayStart_of (by decide +kernel), by decide +kernel, by decide +kernel, by decide +kernel, run_ofD 0 (by decide +kernel)⟩

/-- Claims of the side of a queue with counts p and c, k of them made. -/
def claimable (s : State) (prod : Bool) (p c k : Nat) : Prop :=
  s.here.job.recmode = 0 ∧ s.here.runner = none ∧ owns s .x 3 queue prod (s.here.at_ .x).1 s ∧ unstreamed s queue prod ∧
    counts s queue p c ∧ (∃ sd, s.here.side 3 queue.gen prod = some sd ∧ sd.claims = k) ∧ s.here.claims 3 queue.gen prod = k ∧
    (let ctl := padLoc (clusterOf s.cur) queue.ctl
     s.held s.cur { walk := (s.here.at_ .x).1, eng := .x, cls := 0, kinds := { cr := !prod, cw := prod }, home := some (s.home ctl),
                    loc := ctl, len := 64, run := 1 } = false) ∧
    (if prod then p + k < c + geomSlots queue.geom else c + k < p)

theorem test_hyp_claims : ∃ s t : State, claimable s false 2 0 1 ∧ claimable t true 1 0 0 :=
  ⟨slotted (copier (cdesc 0 0 128 0 0 0 1) (cdesc 0x10000 0 0) 2) 2 0 1 false,
    slotted (copier (cdesc 0x10000 0 128) (cdesc 0 0 0 0 0 0 1) 2) 1 0 0 true,
    ⟨by decide +kernel, by decide +kernel, (run_of (by decide +kernel)).trans (by congr 1), unstreamed_of _ _ (by decide +kernel),
      ⟨by decide +kernel, by decide +kernel, by decide +kernel, by decide +kernel, by decide +kernel⟩,
      ⟨{ gen := 0, prod := false, owner := .x, claims := 1 }, by decide +kernel, rfl⟩, by decide +kernel, by decide +kernel, by decide +kernel⟩,
    by decide +kernel, by decide +kernel, (run_of (by decide +kernel)).trans (by congr 1), unstreamed_of _ _ (by decide +kernel),
    ⟨by decide +kernel, by decide +kernel, by decide +kernel, by decide +kernel, by decide +kernel⟩,
    ⟨{ gen := 0, prod := true, owner := .x, claims := 0 }, by decide +kernel, rfl⟩, by decide +kernel, by decide +kernel, by decide +kernel⟩

/-- The advance of a claim first in the request path, and behind it another side's. -/
theorem test_hyp_count_performs : ∃ (s : State) (i : PathItem), first s 0 i ∧ i.act = .count 3 queue true 1 true none ∧ i.who.mode = 0 ∧
    (∀ x ∈ s.here.req.path.take 0, ∀ g r d k b o, x.act = .count g r d k b o → ¬ (g = 3 ∧ r.gen = queue.gen ∧ d = true)) ∧
    ∃ sd, s.here.side 3 queue.gen true = some sd :=
  ⟨slotted (inFlight [] fun c => { c with req := { c.req with
      path := [heldAt (padLoc 0 0x100) 64 (.count 3 queue true 1 true none) 0] } }) 1 0 1 true, _,
    ⟨rfl, by decide +kernel, by decide +kernel⟩, rfl, rfl, fun x hx => (by cases hx), _, rfl⟩

/-- X.SADD behind a word that may still trap. -/
theorem test_hyp_unit_waits : ∃ (s : State) (r : CopyRun), s.here.awake = true ∧ s.gatedBelow = false ∧ s.here.cpy.runs[s.pick]? = some r ∧
    s.here.firstRun r = false ∧ mayRunAhead r.word = false :=
  ⟨{ inFlight [runOf (.xCheck 1 1 3 0) 0 1 [] [], { runOf (.xSadd 1 2 1 3 0 false) 0 1 [] [] with id := 2 }] with pick := 1 }, _,
    by decide +kernel, by decide +kernel, rfl, by decide +kernel, by decide +kernel⟩

/-- Whether a run answers a and leaves the state as it was. -/
def runsB {α : Type} [DecidableEq α] (m : M α) (s : State) (a : α) : Bool :=
  match m.run s with
  | .ok x t => decide (x = a) && decide (t = s)
  | .error _ _ => false

theorem runs_same {α : Type} [DecidableEq α] {m : M α} {s : State} {a : α} (h : runsB m s a = true) : m.run s = .ok a s := by
  unfold runsB at h
  split at h
  · rename_i x t e; simp only [Bool.and_eq_true, decide_eq_true_eq] at h; rw [e, h.1, h.2]
  · exact absurd h (by simp)

def hereB (loc : Nat) : Bool := place loc == .dram || place loc == .kv || place loc == .pad
def freeB (s : State) (r : CopyRun) (k : Kinds) (ps : List (Nat × Nat)) : Bool :=
  ps.all fun p => hereB p.1 && s.held s.cur (runAccess s r k p.1 p.2) == false

theorem here_of {loc : Nat} (h : hereB loc = true) : inPackage loc := by
  simpa [hereB, inPackage, or_assoc] using h

theorem free_of {s : State} {r : CopyRun} {k : Kinds} {ps : List (Nat × Nat)} (h : freeB s r k ps = true) : partsFree s r k ps := by
  intro p hp
  have := List.all_eq_true.mp h p hp
  simp only [Bool.and_eq_true, beq_iff_eq] at this
  exact ⟨here_of this.1, this.2⟩

/-- A range that is read at these parts, as a test. -/
def inB (s : State) (r : CopyRun) (va : Word) (n : Nat) (ps : List (Nat × Nat)) : Bool :=
  runsB (rangeParts va n .read) s ps && freeB s r { cr := true } ps && ps.all fun p => s.verify p.1 p.2 == none

theorem in_of {s : State} {r : CopyRun} {va : Word} {n : Nat} {ps : List (Nat × Nat)} (h : inB s r va n ps = true) :
    rangeIn s r va n ps := by
  simp only [inB, Bool.and_eq_true, List.all_eq_true, beq_iff_eq] at h
  exact ⟨runs_same h.1.1, free_of h.1.2, h.2⟩

/-- A row that is written at these parts, as a test; the same of one that is changed at once. -/
def outB (s : State) (r : CopyRun) (va : Word) (n : Nat) (ds : List Dest) : Bool :=
  runsB (destParts r va n .write) s ds && ds.all fun d => hereB d.loc && (d.whole || s.verify d.loc d.len == none)

theorem out_of {s : State} {r : CopyRun} {va : Word} {n : Nat} {ds : List Dest} (h : outB s r va n ds = true) :
    rangeOut s r va n ds := by
  simp only [outB, Bool.and_eq_true, List.all_eq_true, Bool.or_eq_true, beq_iff_eq] at h
  exact ⟨runs_same h.1, fun d hd => here_of (h.2 d hd).1, fun d hd hw => (h.2 d hd).2.resolve_left (by simp [hw])⟩

def nowB (s : State) (r : CopyRun) (need : Need) (k : Kinds) (va : Word) (n : Nat) (ds : List Dest) : Bool :=
  runsB (destParts r va n need) s ds && freeB s r k (ds.map fun d => (d.loc, d.len)) &&
    decide ((ds.map fun d => (d.loc, d.len)).Pairwise fun p q => p.1 + p.2 ≤ q.1 ∨ q.1 + q.2 ≤ p.1) &&
    ds.all fun d => s.verify d.loc d.len == none

theorem now_of {s : State} {r : CopyRun} {need : Need} {k : Kinds} {all : Bool} {va : Word} {n : Nat} {ds : List Dest}
    (h : nowB s r need k va n ds = true) : rangeNow s r need k all va n ds := by
  simp only [nowB, Bool.and_eq_true, List.all_eq_true, decide_eq_true_eq, beq_iff_eq] at h
  exact ⟨runs_same h.1.1.1, free_of h.1.1.2, h.1.2, fun d hd _ => h.2 d hd⟩

/-- Unit 2 of 3 rows of 300 bytes, moved, gathered and scattered by index 8 of 9, or padded to 301. -/
def rowSrc : List Word := cdesc 0x10000 0 300 400 9 0x30000
def rowDst : List Word := cdesc 0x20000 0 301 512 9 0x30000
def rowRun (i : Instr) : CopyRun := runOf i 2 3 rowSrc rowDst
def rowWord (i : Instr) : State := (inFlight [rowRun i]).write 0x30008 (leBytes 4 8)

/-- Parts of row 2 and of row 8 in the destination; a part with the last of its bytes. -/
def part (va len : Nat) (whole last : Bool := false) : Dest := ⟨va, va, len, whole, last⟩

theorem test_hyp_rows (v : Bool) : ∀ i ∈ [Instr.xCopy 1 2 1 3 0 v, .xPad 1 2 1 3 0, .xMeta 1 2 1 3 0, .xCheck 1 1 3 0],
    let s := rowWord i
    let r := rowRun i
    copying s r ∧ s.here.firstRun r = true ∧
      (∃ ps, rangeIn s r (rowAddr r r.src none 300 2) 300 ps ∧ ps = [(0x10320, 224), (0x10400, 76)]) ∧
      (∃ ds, rangeOut s r (rowAddr r r.dst none 300 2) 300 ds ∧ places ds = [(0x20400, 256), (0x20500, 44)]) ∧
      (∃ ds, rangeOut s r (rowAddr r r.dst none 301 2) 301 ds ∧ places ds = [(0x20400, 256), (0x20500, 45)]) := by
  intro i hi
  simp only [List.mem_cons, List.not_mem_nil, or_false] at hi
  rcases hi with rfl | rfl | rfl | rfl
  · cases v <;>
    exact ⟨copying_of (by decide +kernel), by decide +kernel, ⟨_, in_of (by decide +kernel), rfl⟩,
      ⟨[part 0x20400 256 true true, part 0x20500 44 false true], out_of (by decide +kernel), rfl⟩,
      ⟨[part 0x20400 256 true true, part 0x20500 45 false true], out_of (by decide +kernel), rfl⟩⟩
  all_goals
    exact ⟨copying_of (by decide +kernel), by decide +kernel, ⟨_, in_of (by decide +kernel), rfl⟩,
      ⟨[part 0x20400 256 true true, part 0x20500 44 false true], out_of (by decide +kernel), rfl⟩,
      ⟨[part 0x20400 256 true true, part 0x20500 45 false true], out_of (by decide +kernel), rfl⟩⟩

/-- Two rows of 128 bytes make a grain: the second of them from a grain that carries this hallmark state. -/
def halfRun : CopyRun := runOf (.xCopy 1 2 1 3 0 false) 1 2 (cdesc 0x10000 0 128 128) (cdesc 0x20000 0 0 128)
def halved (m : BitVec 32 × Bool) : State := (inFlight [halfRun]).setGrain 0x100 m

theorem test_hyp_carried : ∀ m ∈ [((77, false) : BitVec 32 × Bool), (0, true)],
    let s := halved m
    let r := halfRun
    let ps := [(0x10080, 128)]
    let ds := [part 0x20080 128 true true]
    copying s r ∧ s.here.firstRun r = true ∧ (rangeParts (rowAddr r r.src none 128 1) 128 .read).run s = .ok ps s ∧
      partsFree s r { cr := true } ps ∧ rangeOut s r (rowAddr r r.dst none 128 1) 128 ds ∧
      (ps.map fun p => p.2) = ds.map (fun d => d.len) ∧ (∀ x ∈ ps.zip (carried r ps ds), x.2 = true) ∧
      (s.grain (0x10080 / 256)).2 = m.2 ∧ s.parks .uncorr := by
  simp only [List.mem_cons, List.not_mem_nil, or_false, forall_eq_or_imp, forall_eq]
  refine ⟨?_, ?_⟩ <;>
  exact ⟨copying_of (by decide +kernel), by decide +kernel, runs_same (by decide +kernel), free_of (by decide +kernel),
    out_of (by decide +kernel), rfl, by decide +kernel, by decide +kernel, parks_of (by decide +kernel)⟩

theorem test_hyp_indexed_rows :
    let s := rowWord (.xGath 1 2 1 3 0)
    let t := rowWord (.xScat 1 2 1 3 0)
    let g := rowRun (.xGath 1 2 1 3 0)
    let c := rowRun (.xScat 1 2 1 3 0)
    copying s g ∧ copying t c ∧ indexIs s g g.src 8 ∧ indexIs t c c.dst 8 ∧
      rangeIn s g (indexedRow g.src 8) 300 [(0x10C80, 128), (0x10D00, 172)] ∧
      (∃ ds, rangeOut s g (rowAddr g g.dst none 300 2) 300 ds ∧ places ds = [(0x20400, 256), (0x20500, 44)]) ∧
      rangeIn t c (rowAddr c c.src none 300 2) 300 [(0x10320, 224), (0x10400, 76)] ∧
      ∃ ds, rangeOut t c (indexedRow c.dst 8) 300 ds ∧ places ds = [(0x21000, 256), (0x21100, 44)] :=
  ⟨copying_of (by decide +kernel), copying_of (by decide +kernel),
    ⟨[(0x30008, 4)], in_of (by decide +kernel), by decide +kernel, Or.inr (by decide +kernel)⟩,
    ⟨[(0x30008, 4)], in_of (by decide +kernel), by decide +kernel, Or.inr (by decide +kernel)⟩, in_of (by decide +kernel),
    ⟨[part 0x20400 256 true true, part 0x20500 44 false true], out_of (by decide +kernel), rfl⟩, in_of (by decide +kernel),
    ⟨[part 0x21000 256 true true, part 0x21100 44 false true], out_of (by decide +kernel), rfl⟩⟩

/-- The last grain of a tag slot each way; a bad row under X.CHECK. -/
def slotRun (i : Instr) : CopyRun := runOf i 255 256 (cdesc 0x10000 0 0) (cdesc (2 ^ 63 + 0x50000) 0 0)
def badChecked : State := (rowWord (.xCheck 1 1 3 0)).setGrain (0x10400 / 256) (1, false)

theorem test_hyp_slot_grains : ∀ i ∈ [Instr.xFill 1 2 0 true, .xEvict 1 2 0 false],
    let s := inFlight [slotRun i]
    let r := slotRun i
    copying s r ∧ rangeIn s r (r.src.addr + word (256 * 255)) 256 [(0x1FF00, 256)] ∧
      rangeOut s r (r.dst.addr + word (256 * 255)) 256 [⟨2 ^ 63 + 0x5FF00, padLoc 0 0x5FF00, 256, true, true⟩] := by
  simp only [List.mem_cons, List.not_mem_nil, or_false, forall_eq_or_imp, forall_eq]
  exact ⟨⟨copying_of (by decide +kernel), in_of (by decide +kernel), out_of (by decide +kernel)⟩,
    copying_of (by decide +kernel), in_of (by decide +kernel), out_of (by decide +kernel)⟩

theorem test_hyp_bad_row :
    let r := rowRun (.xCheck 1 1 3 0)
    copying badChecked r ∧ badChecked.parks .hallmark ∧ badChecked.here.firstRun r = true ∧
      (rangeParts (rowAddr r r.src none 300 2) 300 .read).run badChecked = .ok [(0x10320, 224), (0x10400, 76)] badChecked ∧
      partsFree badChecked r { cr := true } [(0x10320, 224), (0x10400, 76)] ∧ badChecked.verify 0x10400 76 = some .hallmark :=
  ⟨copying_of (by decide +kernel), parks_of (by decide +kernel), by decide +kernel, runs_same (by decide +kernel),
    free_of (by decide +kernel), by decide +kernel⟩

/-- A gather over a row with a bad grain, a grain of a tag slot, a transposed element, a padded row. -/
theorem test_hyp_bad_rows (v : Bool) : ∀ x ∈ [(Instr.xCopy 1 2 1 3 0 true, 300, 300, part 0x20500 44 false true),
      (.xPad 1 2 1 3 0, 300, 301, part 0x20500 45 false true)],
    let s := (rowWord x.1).setGrain (0x10400 / 256) (1, v)
    let r := rowRun x.1
    copying s r ∧ (rangeParts (rowAddr r r.src none 300 2) x.2.1 .read).run s = .ok [(0x10320, 224), (0x10400, 76)] s ∧
      (destParts r (rowAddr r r.dst none x.2.2.1 2) x.2.2.1 .write).run s = .ok [part 0x20400 256 true true, x.2.2.2] s ∧
      partsFree s r { cr := true } [(0x10320, 224), (0x10400, 76)] ∧
      s.verify 0x10400 76 = some (if v then .uncorr else .hallmark) ∧ s.parks .hallmark ∧ s.here.firstRun r = true := by
  simp only [List.mem_cons, List.not_mem_nil, or_false, forall_eq_or_imp, forall_eq]
  cases v <;> refine ⟨?_, ?_⟩ <;>
  exact ⟨copying_of (by decide +kernel), runs_same (by decide +kernel), runs_same (by decide +kernel), free_of (by decide +kernel),
    by decide +kernel, parks_of (by decide +kernel), by decide +kernel⟩

theorem test_hyp_bad_slot_grain : ∀ i ∈ [Instr.xFill 1 2 0 true, .xEvict 1 2 0 true],
    let s := (inFlight [slotRun i]).setGrain 0x1FF (1, false)
    let r := slotRun i
    copying s r ∧ (rangeParts (r.src.addr + word (256 * 255)) 256 .read).run s = .ok [(0x1FF00, 256)] s ∧
      (destParts r (r.dst.addr + word (256 * 255)) 256 .write).run s = .ok [⟨2 ^ 63 + 0x5FF00, padLoc 0 0x5FF00, 256, true, true⟩] s ∧
      partsFree s r { cr := true } [(0x1FF00, 256)] ∧ s.verify 0x1FF00 256 = some .hallmark := by
  simp only [List.mem_cons, List.not_mem_nil, or_false, forall_eq_or_imp, forall_eq]
  refine ⟨?_, ?_⟩ <;>
  exact ⟨copying_of (by decide +kernel), runs_same (by decide +kernel), runs_same (by decide +kernel), free_of (by decide +kernel),
    by decide +kernel⟩

def transRun : CopyRun := runOf (.xTrans 1 2 1 3 0) 2 3 (cdesc 0x10000 7 15 100) (cdesc 0x20000 7 15 64)

theorem test_hyp_transposed : ∃ s : State, copying s transRun ∧ tripsOf transRun.loop = 3 ∧
    (∀ i, i < 3 → ∃ ps, rangeIn s transRun (rowAddr transRun transRun.src none 15 i + word (2 * 5)) 5 ps) ∧
    rangeOut s transRun (indexedRow transRun.dst 2) (3 * 5) [part 0x20080 15 false true] := by
  refine ⟨inFlight [transRun], copying_of (by decide +kernel), by decide +kernel, ?_, out_of (by decide +kernel)⟩
  intro i hi
  match i with
  | 0 => exact ⟨[(0x1000A, 5)], in_of (by decide +kernel)⟩
  | 1 => exact ⟨[(0x1006E, 5)], in_of (by decide +kernel)⟩
  | 2 => exact ⟨[(0x100D2, 5)], in_of (by decide +kernel)⟩

/-- An element of the column has a bad grain. -/
theorem test_hyp_bad_column : ∃ s : State, copying s transRun ∧
    (∀ i, i < 3 → ∃ ps, (rangeParts (rowAddr transRun transRun.src none 15 i + word (2 * 5)) 5 .read).run s = .ok ps s ∧
      partsFree s transRun { cr := true } ps ∧ ∃ p ∈ ps, s.verify p.1 p.2 = some .hallmark) ∧
    (destParts transRun (indexedRow transRun.dst 2) (3 * 5) .write).run s = .ok [part 0x20080 15 false true] s := by
  refine ⟨(inFlight [transRun]).setGrain 0x100 (1, false), copying_of (by decide +kernel), ?_, runs_same (by decide +kernel)⟩
  intro i hi
  match i with
  | 0 => exact ⟨[(0x1000A, 5)], runs_same (by decide +kernel), free_of (by decide +kernel), _, List.mem_singleton_self _, by decide +kernel⟩
  | 1 => exact ⟨[(0x1006E, 5)], runs_same (by decide +kernel), free_of (by decide +kernel), _, List.mem_singleton_self _, by decide +kernel⟩
  | 2 => exact ⟨[(0x100D2, 5)], runs_same (by decide +kernel), free_of (by decide +kernel), _, List.mem_singleton_self _, by decide +kernel⟩

/-- The last unit of X.CHECK from slot 1, and of X.COPY into it, whose rest is 46 bytes. -/
def popRun : CopyRun := runOf (.xCheck 1 1 3 0) 2 3 (cdesc 0 0 30 0 0 0 1) [] fun r => { r with srcSide := true, srcSlot := some 1 }
def pushRun : CopyRun :=
  runOf (.xCopy 1 2 1 3 0 true) 2 3 (cdesc 0x10000 0 70 100) (cdesc 0 0 0 0 0 0 1) fun r => { r with dstSide := true, dstSlot := some 1 }
def popped : State := slotted (inFlight [popRun]) 2 1 1 false
def pushed : State := slotted (inFlight [pushRun]) 1 0 1 true

theorem test_hyp_slot_popped : atUnit popped popRun ∧ popped.here.firstRun popRun = true ∧ counts popped queue 2 1 ∧
    popped.here.side 3 0 false = some { gen := 0, prod := false, owner := .x, claims := 1 } ∧
    rangeIn popped popRun (rowAddr popRun popRun.src (some 1) 30 2) 30 [(padLoc 0 0x413C, 30)] :=
  ⟨atUnit_of (by decide +kernel), by decide +kernel,
    ⟨by decide +kernel, by decide +kernel, by decide +kernel, by decide +kernel, by decide +kernel⟩, by decide +kernel, in_of (by decide +kernel)⟩

theorem test_hyp_slot_pushed : atUnit pushed pushRun ∧ pushed.here.firstRun pushRun = true ∧ counts pushed queue 1 0 ∧
    pushed.here.side 3 0 true = some { gen := 0, prod := true, owner := .x, claims := 1 } ∧ unstreamed pushed queue true ∧
    pushRun.dst.kind = 1 ∧ rangeIn pushed pushRun (rowAddr pushRun pushRun.src none 70 2) 70 [(0x100C8, 56), (0x10100, 14)] ∧
    rangeOut pushed pushRun (rowAddr pushRun pushRun.dst (some 1) 70 2) 70 [⟨2 ^ 63 + 0x418C, padLoc 0 0x418C, 70, true, false⟩] ∧
    rangeOut pushed { pushRun with unit := 3 } (rowAddr pushRun pushRun.dst (some 1) 70 3) (geomBytes queue.geom - 3 * 70)
      [⟨2 ^ 63 + 0x41D2, padLoc 0 0x41D2, 46, true, true⟩] :=
  ⟨atUnit_of (by decide +kernel), by decide +kernel,
    ⟨by decide +kernel, by decide +kernel, by decide +kernel, by decide +kernel, by decide +kernel⟩, by decide +kernel,
    unstreamed_of _ _ (by decide +kernel), by decide +kernel, in_of (by decide +kernel), out_of (by decide +kernel), out_of (by decide +kernel)⟩

/-- X.SADD of doublewords at an aligned row and off it. -/
def addRun (off : Nat) : CopyRun := runOf (.xSadd 1 2 1 3 0 false) 1 3 (cdesc 0x10000 3 56 100) (cdesc (0x20000 + off) 3 56 64 0 0x30000)
def adding (off : Nat) : State := (inFlight [addRun off]).write 0x30004 (leBytes 4 2)

theorem test_hyp_adds : ∀ off ∈ [0, 4],
    let s := adding off
    let r := addRun off
    copying s r ∧ s.here.firstRun r = true ∧ indexIs s r r.dst 2 ∧ r.src.rowlen % sizeOf' r.dst.etype = 0 ∧
      ((indexedRow r.dst 2).toNat % 8 = 0 ↔ off = 0) ∧ s.parks .align ∧
      rangeIn s r (rowAddr r r.src none 56 1) 56 [(0x10064, 56)] ∧
      rangeBoth s r (indexedRow r.dst 2) 56 [part (0x20080 + off) 56 false true] := by
  simp only [List.mem_cons, List.not_mem_nil, or_false, forall_eq_or_imp, forall_eq]
  refine ⟨?_, ?_⟩ <;>
  exact ⟨copying_of (by decide +kernel), by decide +kernel,
    ⟨[(0x30004, 4)], in_of (by decide +kernel), by decide +kernel, Or.inl (by decide +kernel)⟩, by decide +kernel, by decide +kernel,
    parks_of (by decide +kernel), in_of (by decide +kernel), now_of (by decide +kernel)⟩

/-- The last bag of X.IRED: from index 2 of an array of four, rows 8 and 3. -/
def bagRun : CopyRun :=
  { runOf (.xIred 1 2 1 0 false false) 1 4 (cdesc 0x10000 1 30 100 0 0x30000) (cdesc 0x20000 2 60 64) with aux := 2, units := 2 }
def bag : State := (inFlight [bagRun]).write 0x30008 (leBytes 4 8 ++ leBytes 4 (2 ^ 31 + 3))
def bagIndexes : M (List Nat × Nat) := readBag bagRun bagRun.src.aux (tripsOf bagRun.loop - bagRun.aux) bagRun.aux

theorem test_hyp_bag : ∃ (rows : List (Nat × List (Nat × Nat))) (m : State), copying bag bagRun ∧ bag.here.firstRun bagRun = true ∧
    bagRun.src.etype = 1 ∧ bagRun.src.rowlen = 30 ∧ bagRun.dst.rowlen = 60 ∧ bagIndexes.run bag = .ok ([8, 3], 4) m ∧
    (([8, 3] : List Nat).mapM (bagRow bagRun.src)).run m = .ok rows m ∧ rows.length = 2 ∧
    (∀ p ∈ rows, partsFree m bagRun { cr := true } p.2 ∧ partsGood m p.2) ∧
    (rowAddr bagRun bagRun.dst none 60 1).toNat % 4 = 0 ∧
    rangeBoth m bagRun (rowAddr bagRun bagRun.dst none 60 1) 60 [part 0x20040 60 false true] := by
  have h := run_ofD (([] : List Nat), 0) (r := bagIndexes.run bag) (by decide +kernel)
  refine ⟨[(0, [(0x10320, 30)]), (0, [(0x1012C, 30)])], _, copying_of (by decide +kernel), by decide +kernel, by decide +kernel, by decide +kernel,
    by decide +kernel, h.trans (by congr 1), runs_same (by decide +kernel), rfl, ?_, by decide +kernel,
    now_of (by decide +kernel)⟩
  intro p hp
  simp only [List.mem_cons, List.not_mem_nil, or_false] at hp
  rcases hp with rfl | rfl <;> exact ⟨free_of (by decide +kernel), by unfold partsGood; decide +kernel⟩

/-- Unit 1 of 3 rows of n bytes between the host at 0x5064 and local memory at 0x180C8; context 0 may reach the host, under key 5. -/
def hostRun (i : Instr) (n : Nat) : CopyRun := runOf i 1 3 (cdesc 0x5000 0 n 100) (cdesc 0x18000 0 0 200 0 7)
def hosted (r : CopyRun) (far : List Host.Cell := []) : State :=
  let s := inFlight [r]
  let s := s.setCtx 0 { (s.ctx 0) with hostio := true, keyok := true, key := 5, salt := 99, rxhigh := 7 }
  { s with
    host := far
    pages := { s.pages with ftbase := 0x40000 } }

/-- A message of one byte and its tag at 0x5064 on the host, and what it opens to. -/
def openRun : CopyRun := hostRun (.xHdec 1 2 1 3 0 true) 1
def messaged : State :=
  hosted openRun (putBytes [] 0x5064 ([0x41] ++ gcmTag (aesSchedule (leBytes 32 5)) (beBytes 4 99 ++ beBytes 8 8) [0x41]))
def sealedText : List Byte :=
  (gcmOpen (messaged.ctx 0).key (beBytes 4 (messaged.ctx 0).salt.toNat ++ beBytes 8 8)
    (getBytes messaged.host 0x5064 1) (getBytes messaged.host 0x5065 16)).getD []

theorem some_of {x : Option (List Byte)} (h : x.isSome = true) : x = some (x.getD []) := by
  cases x with
  | some a => rfl
  | none => cases h

theorem test_hyp_opens : gcmOpen (messaged.ctx 0).key
    (beBytes 4 (messaged.ctx 0).salt.toNat ++ beBytes 8 8)
    (getBytes messaged.host 0x5064 1) (getBytes messaged.host 0x5065 16) =
      some sealedText := some_of (by decide +kernel)

def inRun : CopyRun := hostRun (.xHin 1 2 1 3 0 true) 70
def outRun : CopyRun := runOf (.xHout 2 1 1 3 0 true) 1 3 (cdesc 0x18000 0 70 200) (cdesc 0x5000 0 0 100)

theorem test_hyp_host_rows : ∃ s t : State, copying s inRun ∧ copying t outRun ∧ s.here.firstRun inRun = true ∧
    t.here.firstRun outRun = true ∧ s.trust.tdisp ≠ .error ∧ (s.ctx 0).hostio = true ∧ (s.ctx 0).lockreq = false ∧
    s.held s.cur (runAccess s inRun { cr := true } Config.hostBase 0) = false ∧
    t.held t.cur (runAccess t outRun { cw := true } Config.hostBase 0) = false ∧
    rangeOut s inRun (rowAddr inRun inRun.dst none 70 1) 70 [part 0x180C8 56 false true, part 0x18100 14] ∧
    rangeIn t outRun (rowAddr outRun outRun.src none 70 1) 70 [(0x180C8, 56), (0x18100, 14)] ∧ s.parks .uncorr := by
  refine ⟨hosted inRun, hosted outRun, copying_of (by decide +kernel), copying_of (by decide +kernel), by decide +kernel,
    by decide +kernel, by decide +kernel, by decide +kernel, by decide +kernel, by decide +kernel, by decide +kernel,
    out_of (by decide +kernel), in_of (by decide +kernel), parks_of (by decide +kernel)⟩

/-- A context that may not reach the host. -/
theorem test_hyp_host_closed : ∃ s : State, copying s inRun ∧ s.here.firstRun inRun = true ∧ (s.ctx 0).hostio = false ∧ s.parks .protect :=
  ⟨inFlight [inRun], copying_of (by decide +kernel), by decide +kernel, by decide +kernel, parks_of (by decide +kernel)⟩

/-- One byte, whose frame's entry lies at 0x40000 and is not plain. -/
theorem test_hyp_opened : copying messaged openRun ∧ messaged.here.firstRun openRun = true ∧
    rangeNow messaged openRun .write { cw := true } false 0x180C8 1 [part 0x180C8 1 false true] ∧
    rowAddr openRun openRun.dst none 1 1 = 0x180C8 ∧ openRun.dst.aux.toNat + 1 = 8 ∧
    (messaged.ctx 0).keyok = true ∧ (messaged.ctx 0).rxhigh = 7 ∧ place 0x180C8 = .dram ∧ frameAt messaged 0 = 0x40000 ∧
    ftPlain (messaged.dword 0x40000).toNat = false ∧ sealedText.length = 1 ∧
    messaged.parks .idetag ∧ messaged.parks .uncorr :=
  ⟨copying_of (by decide +kernel), by decide +kernel, now_of (by decide +kernel), by decide +kernel, by decide +kernel, by decide +kernel,
    by decide +kernel, by decide +kernel, by decide +kernel, by decide +kernel, by decide +kernel, parks_of (by decide +kernel),
    parks_of (by decide +kernel)⟩

/-- Region 1 with one page of 32 (its key 0), and an INDEX region with vectors of four bytes whose log has room for one. -/
def flashed (r : CopyRun) (index : Bool) : State :=
  let s := inFlight [r]
  { s with flash := { s.flash with
      regions := [(1, { valid := true, r := true, w := true, pages := 32, fill := 1, index := index, logcap := 1 })]
      pages := [(0, { bytes := cells 0 (([2 ^ 32 + 6 * 2 ^ 16 + 4, 2 * 2 ^ 32, 1] : List Nat).flatMap (leBytes 8)) })] } }

def fetchRun : CopyRun := runOf (.xFread 1 2 1 3 0 true) 1 3 (cdesc (2 ^ 42 + 16384 - 140) 0 70 70) (cdesc 0x18000 0 0 512)
def keepRun : CopyRun := runOf (.xKv 1 2 1 0 true) 1 3 (cdesc (2 ^ 42 + 16384 - 140) 0 70 70 0 (7 * 2 ^ 16 + 10)) (cdesc 0x18000 0 0 512 0 0x30000)
def appendRun : CopyRun := runOf (.xFapp 1 2 1 0 true) 1 3 (cdesc 0x10000 0 16384 16384) (cdesc (2 ^ 42) 0 0)
def entryRun : CopyRun := runOf (.xFapp 1 2 1 0 true) 1 3 (cdesc 0x10000 0 12 200) (cdesc (2 ^ 42) 0 0)

theorem test_hyp_flash_read :
    let s := flashed fetchRun false
    copying s fetchRun ∧ s.here.firstRun fetchRun = true ∧
    (∀ reg die kd, s.held s.cur
      { walk := 1, eng := .x, cls := 0, kinds := kd, home := some (.region reg die), run := 1 } = false) ∧
    rowAddr fetchRun fetchRun.src none 70 1 = word (2 ^ 42 + 16384 - 70) ∧ (s.region 1).valid = true ∧ (s.region 1).ctx = s.here.job.ctx ∧
    (s.region 1).r = true ∧ (s.region 1).fill = 1 ∧ (s.page ((s.region 1).pageKey 0)).fault = none ∧
    rangeOut s fetchRun (rowAddr fetchRun fetchRun.dst none 70 1) 70 [part 0x18200 70 false true] :=
  ⟨copying_of (by decide +kernel), by decide +kernel, fun _ _ _ => rfl, by decide +kernel, by decide +kernel, by decide +kernel,
    by decide +kernel, by decide +kernel, by decide +kernel, out_of (by decide +kernel)⟩

theorem test_hyp_flash_kept :
    let s := flashed keepRun false
    let t := flashed { keepRun with dst := CDesc.ofWords (cdesc (2 ^ 20) 0 0 512 0 0x30000) } false
    copying s keepRun ∧ s.here.firstRun keepRun = true ∧
    keepRun.src.aux.toNat < 2 ^ 32 ∧ keepRun.src.aux.toNat % 2 ^ 16 * (keepRun.src.aux.toNat / 2 ^ 16) = 70 ∧
    (rowAddr keepRun keepRun.dst none 70 1).toNat = 0x18200 ∧ (pageOf 0x18200 .write).run s = .ok (0, 2 ^ 19, 0x18200) s ∧
    rangeNow s keepRun .write { cw := true } false 0x18200 70 [part 0x18200 70 false true] ∧
    rangeBoth s keepRun 0x30010 16 [part 0x30010 16 false true] ∧ leNat (bytesAt s [(0x30010, 16)]) / 2 ^ 88 % 2 ^ 8 = 0 ∧
    isOk ((pageOf (word (2 ^ 20 + 512)) .write).run t) = false ∧ t.parks .operand :=
  ⟨copying_of (by decide +kernel), by decide +kernel, by decide +kernel, by decide +kernel, by decide +kernel, runs_same (by decide +kernel),
    now_of (by decide +kernel), now_of (by decide +kernel), by decide +kernel, by decide +kernel, parks_of (by decide +kernel)⟩

theorem test_hyp_flash_append :
    let u := flashed appendRun false
    let v := flashed entryRun true
    copying u appendRun ∧ u.here.firstRun appendRun = true ∧ copying v entryRun ∧ v.here.firstRun entryRun = true ∧
    rangeIn u appendRun (rowAddr appendRun appendRun.src none pageBytes 1) pageBytes ((List.range 64).map fun i => (0x14000 + 256 * i, 256)) ∧
    (u.region 1).index = false ∧ (u.region 1).fill < (u.region 1).pages ∧ (v.region 1).index = true ∧ (v.region 1).w = true ∧
    rangeIn v entryRun (rowAddr entryRun entryRun.src none 12 1) 12 [(0x100C8, 12)] ∧
    12 = 8 + (v.indexHead (v.region 1)).dim * (v.indexHead (v.region 1)).e ∧
    leNat (((bytesAt v [(0x100C8, 12)]).drop 4).take 4) ≤ 1 ∧ (v.region 1).logpos - (v.region 1).merged < (v.region 1).logcap :=
  ⟨copying_of (by decide +kernel), by decide +kernel, copying_of (by decide +kernel), by decide +kernel, in_of (by decide +kernel),
    by decide +kernel, by decide +kernel, by decide +kernel, by decide +kernel, in_of (by decide +kernel), by decide +kernel,
    by decide +kernel, by decide +kernel⟩

/-- An image whose entry 0 names its one clasp move, and one whose entry 0 lies behind the store. -/
def imageRun : CopyRun := runOf (.xBankp 1 2 1 0 true) 1 3 (cdesc 0x10000 0 68 256) (cdesc 0x18000 0 0 1024)
def imaged (e : Nat) : State :=
  (inFlight [imageRun]).write 0x10100 (leBytes 4 e ++ ((List.replicate 15 (leBytes 4 0x80000000)).flatten ++ leBytes 4 0xC0000B01))
/-- A timetable of one REFRESH of d ticks. -/
def tableRun : CopyRun := runOf (.xBankt 1 2 1 0 true) 1 3 (cdesc 0x10000 0 8 256) (cdesc 0 0 0 0 0 (2 ^ 19))
def tabled (d : Nat) : State := (inFlight [tableRun]).write 0x10100 (leBytes 8 (2 * 2 ^ 60 + d))

theorem test_hyp_bank_image : ∃ s t : State, copying s imageRun ∧ copying t imageRun ∧ s.here.firstRun imageRun = true ∧
    t.here.firstRun imageRun = true ∧ t.parks .operand ∧
    (locate (rowAddr imageRun imageRun.dst none 0 1) .both .x).run s = .ok 0x18400 s ∧ place 0x18400 = .dram ∧
    rangeIn s imageRun (rowAddr imageRun imageRun.src none 68 1) 68 [(0x10100, 68)] ∧
    ((List.range 17).map fun j => BitVec.ofNat 32 (leNat (((bytesAt s [(0x10100, 68)]).drop (4 * j)).take 4))) =
      (0#32 :: List.replicate 15 0x80000000#32) ++ [0xC0000B01#32] ∧
    moveOk 0xC0000B01 = true ∧ entryOk [0xC0000B01] 0 = true ∧ entryOk [0xC0000B01] 0x80000000 = true ∧ entryOk [0xC0000B01] 1 = false ∧
    leNat ((bytesAt t [(0x10100, 68)]).take 4) = 1 := by
  refine ⟨imaged 0, imaged 1, copying_of (by decide +kernel), copying_of (by decide +kernel), by decide +kernel, by decide +kernel,
    parks_of (by decide +kernel), runs_same (by decide +kernel), by decide +kernel, in_of (by decide +kernel), ?_⟩
  decide +kernel

theorem test_hyp_bank_table : ∃ u v : State, copying u tableRun ∧ copying v tableRun ∧ u.here.firstRun tableRun = true ∧
    v.here.firstRun tableRun = true ∧ v.parks .operand ∧
    (windowFrames 1 0).run u = .ok [(0, 0)] u ∧ rangeIn u tableRun (rowAddr tableRun tableRun.src none 8 1) 8 [(0x10100, 8)] ∧
    leNat (bytesAt u [(0x10100, 8)]) = 2 * 2 ^ 60 + 3120 ∧ leNat (bytesAt v [(0x10100, 8)]) = 2 * 2 ^ 60 + 3121 ∧ place 0 = .dram ∧
    (u.chan 0).st = .empty := by
  refine ⟨tabled 3120, tabled 3121, copying_of (by decide +kernel), copying_of (by decide +kernel), by decide +kernel, by decide +kernel,
    parks_of (by decide +kernel), runs_same (by decide +kernel), in_of (by decide +kernel), ?_⟩
  decide +kernel

/-- X.BANKGO before its start tick 1 and at it; with a channel that is not LOADED; one that stops. -/
def goRunOf (w2 n start : Nat) : CopyRun := runOf (.xBankgo 1 0) 0 n [8, 64, word w2, word start] []
def setOff (r : CopyRun) (st : ChanState) : State := ((inFlight [r]).setChan 3 { st := st }).setChan 70 { st := st }

theorem test_hyp_set_off : ∃ s t u v : State, copying s (goRunOf (2 ^ 32) 2 1) ∧ copying t (goRunOf (2 ^ 32) 2 0) ∧
    copying u (goRunOf (2 ^ 32) 2 1) ∧ copying v (goRunOf 1 1 0) ∧ s.here.firstRun (goRunOf (2 ^ 32) 2 1) = true ∧
    (∀ m ∈ [3, 70], (s.chan m).st = .loaded ∧ (t.chan m).st = .loaded ∧ (u.chan m).st = .empty ∧ (v.chan m).st = .running) ∧
    s.stamp < 1 ∧ t.parks .schedmiss ∧ u.parks .operand :=
  ⟨setOff (goRunOf (2 ^ 32) 2 1) .loaded, setOff (goRunOf (2 ^ 32) 2 0) .loaded, setOff (goRunOf (2 ^ 32) 2 1) .empty,
    setOff (goRunOf 1 1 0) .running, copying_of (by decide +kernel), copying_of (by decide +kernel),
    copying_of (by decide +kernel), copying_of (by decide +kernel), by decide +kernel, by decide +kernel, by decide +kernel,
    parks_of (by decide +kernel), parks_of (by decide +kernel)⟩

/-- FIPS 197, appendix C.3: one block under AES-256. -/
theorem test_aes_block : aesBlock (aesSchedule ((List.range 32).map fun i => BitVec.ofNat 8 i)) ((List.range 16).map fun i => BitVec.ofNat 8 (17 * i)) =
    [0x8E, 0xA2, 0xB7, 0xCA, 0x51, 0x67, 0x45, 0xBF, 0xEA, 0xFC, 0x49, 0x90, 0x4B, 0x49, 0x60, 0x89] := by decide +kernel

/-! ## Words of the encoding tables: every program word and move word, its fixed bits and one value a field -/

/-- Opcode table, ILL to LITS. -/
def words1 : List (BitVec 32 × Instr) := [
  (0x00000001, .ill 1), (0x0F000000, .nop), (0x01088080, .add 1 2 true),
  (0x01088180, .sub 1 2 true), (0x01088280, .mul 1 2 true), (0x01088380, .mulh 1 2 true),
  (0x01088480, .mulhn 1 2 true), (0x01088580, .div 1 2 true), (0x01088680, .divn 1 2 true),
  (0x01088780, .rem 1 2 true), (0x01088880, .remn 1 2 true), (0x01088980, .and 1 2 true),
  (0x01088A80, .or 1 2 true), (0x01088B80, .xor 1 2 true), (0x01088C80, .andn 1 2 true),
  (0x01088D80, .shl 1 2 true), (0x01088E80, .shr 1 2 true), (0x01088F80, .sar 1 2 true),
  (0x01089080, .rol 1 2 true), (0x01089180, .ror 1 2 true), (0x01089280, .min 1 2 true),
  (0x01089380, .max 1 2 true), (0x01089480, .minn 1 2 true), (0x01089580, .maxn 1 2 true),
  (0x02088080, .ceq 1 2 true), (0x02088180, .cne 1 2 true), (0x02088280, .clt 1 2 true),
  (0x02088380, .cltn 1 2 true), (0x02088480, .cle 1 2 true), (0x02088580, .clen 1 2 true),
  (0x03080080, .clz 1 true), (0x03080180, .ctz 1 true), (0x03080280, .popc 1 true),
  (0x03080380, .brev 1 true), (0x03080400, .sext8 1), (0x03080500, .sext16 1),
  (0x03080600, .sext32 1), (0x04088600, .sel 1 2 3), (0x050D0004, .addi 1 true 1 4),
  (0x060D0004, .andi 1 true 1 4), (0x070D0004, .ori 1 true 1 4), (0x080D0004, .xori 1 true 1 4),
  (0x090C0003, .shli 1 true 3), (0x090D0003, .shri 1 true 3), (0x090E0003, .sari 1 true 3),
  (0x090F0003, .roli 1 true 3), (0x0A0A0003, .lit 1 2 3), (0x0A040001, .lits 1)]

theorem test_words1 : (words1.all fun p => decode p.1 == .instr p.2) = true := by decide +kernel

/-- Opcode table, DUP to TEXIT. -/
def words2 : List (BitVec 32 × Instr) := [
  (0x0B080000, .dup 1), (0x0C093806, .ld 1 2 1 true true 6), (0x0D093005, .ldk 1 2 1 true 5),
  (0x0E088C86, .st 1 2 3 0 true 6), (0x1008807A, .axch 1 2 3 3 2), (0x1108869A, .acas 1 2 3 4 3 2),
  (0x1208807A, .aadd 1 2 3 3 2), (0x1308807A, .aand 1 2 3 3 2), (0x1408807A, .aor 1 2 3 3 2),
  (0x1508807A, .axor 1 2 3 3 2), (0x1608807A, .amin 1 2 3 3 2), (0x1708807A, .amax 1 2 3 3 2),
  (0x1808807A, .aminn 1 2 3 3 2), (0x1908807A, .amaxn 1 2 3 3 2), (0x1A042640, .fence 1 2 3 4),
  (0x1B042600, .fencea 1 2 3), (0x1C088001, .rinv 1 2 true), (0x1D080020, .tlookFind 1 2),
  (0x1D080021, .tlookClaim 1 2), (0x1D000012, .tlookFree 1), (0x1D088130, .tsetk 1 2 3),
  (0x1D080220, .tdrop 1 2), (0x1E400002, .pbr 1 2), (0x1F44C000, .br 1 2 3),
  (0x20400000, .call 1), (0x21000000, .rets), (0x22440180, .jtb 1 2 3),
  (0x23000001, .clasp 1), (0x24240000, .give 1 2), (0x24A40000, .take 1 2),
  (0x25088003, .qset 1 2 3), (0x25080113, .qadv 1 true 3), (0x25080213, .qwait 1 true 3),
  (0x25000312, .qinfo true 2), (0x26080203, .prmw 1 2 3), (0x27080000, .fmtq 1),
  (0x28080000, .stmpq 1), (0x29000020, .getk 32), (0x2A080200, .setk 1 512),
  (0x2B000000, .stamp), (0x2C000000, .barCrew), (0x2C400000, .barSpan),
  (0x2C800000, .barStage), (0x2D080000, .waitTick 1), (0x2D080100, .waitSerai 1),
  (0x2E080000, .tlaunch 1), (0x2E080100, .trig 1), (0x2E000200, .texit)]

theorem test_words2 : (words2.all fun p => decode p.1 == .instr p.2) = true := by decide +kernel

/-- Opcode table, TYIELD to PGDROP. -/
def words3 : List (BitVec 32 × Instr) := [
  (0x2E000300, .tyield), (0x2F080000, .sreg 1), (0x2F088100, .sbind 1 2),
  (0x2F088203, .spost 1 2 3), (0x3008868B, .rcall 1 2 3 4 5 true), (0x31080001, .rpoll 1 true),
  (0x32080002, .rret 1 2), (0x33080002, .search 1 2), (0x34088000, .crsv 1 2),
  (0x34080100, .crel 1), (0x34080200, .cqry 1), (0x35080000, .lmark 1),
  (0x35000100, .lhash), (0x36000001, .trap 1), (0x37080000, .tret 1),
  (0x38088003, .pgshare 1 2 3), (0x38080100, .pgdrop 1)]

theorem test_words3 : (words3.all fun p => decode p.1 == .instr p.2) = true := by decide +kernel

/-- Opcode table, V_ADD to V_TAKE. -/
def words4 : List (BitVec 32 × Instr) := [
  (0x410420E5, .vAdd 1 2 3 4 5), (0x420420E5, .vSub 1 2 3 4 5), (0x430420E5, .vMul 1 2 3 4 5),
  (0x440420C4, .vFma 1 2 3 4), (0x450420C4, .vFms 1 2 3 4), (0x460420E5, .vMin 1 2 3 4 5),
  (0x470420E5, .vMax 1 2 3 4 5), (0x4804201C, .vAbs 1 2 3 4), (0x4804205C, .vNeg 1 2 3 4),
  (0x490420E5, .vAnd 1 2 3 4 5), (0x4A0420E5, .vOr 1 2 3 4 5), (0x4B0420E5, .vXor 1 2 3 4 5),
  (0x4C0420E5, .vShl 1 2 3 4 5), (0x4D0420E5, .vShr 1 2 3 4 5), (0x4E0420E5, .vSar 1 2 3 4 5),
  (0x4F0420E5, .vRol 1 2 3 4 5), (0x5028312E, .vCmp 1 2 3 4 5 6), (0x510420E5, .vSel 1 2 3 4 5),
  (0x5204272E, .vCvt 1 2 3 4 5 6), (0x530420E2, .vSfn 1 2 3 4 2), (0x540420E5, .vRed 1 2 3 4 5),
  (0x550420E5, .vScan 1 2 3 4 5), (0x560420E5, .vPerm 1 2 3 4 5), (0x570420E5, .vLrot 1 2 3 4 5),
  (0x580420E5, .vBcast 1 2 3 4 5), (0x590420E2, .vPack 1 2 3 4 2), (0x5A0420E2, .vUnpk 1 2 3 4 2),
  (0x5B04201C, .vMov 1 2 3 4), (0x5C0A0003, .vLit 1 2 3), (0x5D0420E3, .vTopk 1 2 3 4 3),
  (0x600A1C80, .vBind 1 2 3 4 true), (0x61100000, .vRrbSet 1), (0x61180000, .vRrbAdd 1),
  (0x62200000, .vGuard 1), (0x63298000, .vPredAnd 1 2 3), (0x63299000, .vPredOr 1 2 3),
  (0x6329A000, .vPredXor 1 2 3), (0x6329B000, .vPredAndn 1 2 3), (0x63284000, .vPredNot 1 2),
  (0x63205002, .vPredFirst 1 2), (0x63206002, .vPredLane 1 2), (0x64053000, .vNest 1 2 3),
  (0x65480000, .vPortRead 1 2), (0x654A0000, .vPortWrite 1 2), (0x65410000, .vPortUnbind 1),
  (0x66040803, .vTos 1 2 3), (0x67440000, .vGive 2 2), (0x67C40000, .vTake 2 2)]

theorem test_words4 : (words4.all fun p => decode p.1 == .instr p.2) = true := by decide +kernel

/-- Opcode table, V_STAT_STAT to V_STAT_BIND. -/
def words5 : List (BitVec 32 × Instr) := [
  (0x68080000, .vStatStat 1), (0x68090002, .vStatClear 1 2), (0x68020000, .vStatEng),
  (0x68033000, .vStatPred 1 2), (0x68040000, .vStatBind)]

theorem test_words5 : (words5.all fun p => decode p.1 == .instr p.2) = true := by decide +kernel

/-- Opcode table, M_MMA to M_TOLL. -/
def words6 : List (BitVec 32 × Instr) := [
  (0x810410BC, .mMma 0 2 0 4 5 true true true), (0x820410BC, .mMmas 0 2 0 4 5 true true true), (0x830410BC, .mMmv 0 2 0 4 5 true true true),
  (0x840C0000, .mZero 1 true), (0x85082000, .mLoadTile 1 2), (0x850A2A00, .mLoadDesc 1 2 true 4),
  (0x86082040, .mDrainTile 1 2 true), (0x860A21C0, .mDrainDesc 1 2 3 true), (0x87088000, .mSwap 1 2),
  (0x88000000, .mStart), (0x89080000, .mStatStat 1), (0x89090002, .mStatClear 1 2),
  (0x89020000, .mStatQueues), (0x89030000, .mStatAssay), (0x89040000, .mStatWindow),
  (0x89050000, .mStatToll), (0x8A000000, .mAssay), (0x8B050000, .mNest 1 2),
  (0x8C240000, .mGive 1 2), (0x8CA40000, .mTake 1 2), (0x8D000010, .mToll 1)]

theorem test_words6 : (words6.all fun p => decode p.1 == .instr p.2) = true := by decide +kernel

/-- Opcode table, X_COPY to X_HDEC. -/
def words7 : List (BitVec 32 × Instr) := [
  (0xC11268B0, .xCopy 1 2 3 4 5 true), (0xC21268A0, .xGath 1 2 3 4 5), (0xC31268A0, .xScat 1 2 3 4 5),
  (0xC41268A8, .xSadd 1 2 3 4 5 true), (0xC51268A0, .xTrans 1 2 3 4 5), (0xC61268A0, .xPad 1 2 3 4 5),
  (0xC71268A0, .xMeta 1 2 3 4 5), (0xC8120070, .xFill 1 2 3 true), (0xC9120070, .xEvict 1 2 3 true),
  (0xCA104680, .xCheck 1 2 3 4), (0xCB000100, .xWait 1), (0xCC1800C0, .xQadv 1 true 3),
  (0xCD050000, .xNest 1 2), (0xCE240000, .xGive 1 2), (0xCEA40000, .xTake 1 2),
  (0xD01268B0, .xFread 1 2 3 4 5 true), (0xD0126092, .xFapp 1 2 3 4 true), (0xD1126090, .xKv 1 2 3 4 true),
  (0xD2126090, .xBankt 1 2 3 4 true), (0xD3126090, .xBankp 1 2 3 4 true), (0xD4100040, .xBankgo 1 2),
  (0xD5126098, .xIred 1 2 3 4 true true), (0xD61268B0, .xHin 1 2 3 4 5 true), (0xD61268B2, .xHout 1 2 3 4 5 true),
  (0xD61268B4, .xHdec 1 2 3 4 5 true)]

theorem test_words7 : (words7.all fun p => decode p.1 == .instr p.2) = true := by decide +kernel

/-- Move words of a bank unit (10 R295). -/
def wordsBank : List (BitVec 32 × Instr) := [
  (0x41060000, .move 1 2 3), (0x61000003, .moveImm 1 2 3), (0xC0000001, .claspMove 1)]

theorem test_words_bank : (wordsBank.all fun p => decodeBank p.1 == .instr p.2) = true := by decide +kernel

/-! ## Well-formedness: an ill-formed term for each check -/

theorem test_illword_operands : ∀ i ∈ [Instr.addi 0 true 2 0, .axch 0 0 0 1 5, .acas 0 0 0 0 1 5, .fence 0 1 0 0, .fence 1 0 0 0, .fence 1 1 5 0,
    .fencea 1 0 0, .br 0 0 5, .jtb 0 0 0, .give 0 1, .give 1 0, .take 0 1, .vGive 1 1, .mTake 2 1, .xGive 3 1, .prmw 0 23 7, .prmw 0 40 4, .prmw 0 41 0,
    .getk 6, .setk 0 0, .rcall 0 0 0 9 0 false, .rcall 0 0 25 8 0 false, .rret 0 9, .rret 31 2, .spost 0 0 0, .spost 0 0 15, .pgshare 0 0 0,
    .vAdd 53 0 0 0 0, .vAdd 0 53 0 0 0, .vAdd 0 0 53 0 0, .vAdd 0 0 0 0 7, .vShl 0 0 0 0 0, .vShl 0 0 0 0 2, .vFma 0 0 0 53, .vAbs 0 53 0 0,
    .vCmp 5 1 0 0 0 0, .vCmp 0 0 0 0 0 0, .vCmp 0 1 0 0 0 4, .vCvt 0 0 7 0 0 0, .vCvt 0 0 1 6 0 0, .vCvt 0 0 0 0 0 0, .vCvt 0 0 5 0 0 4,
    .vSfn 0 0 9 0 0, .vSfn 0 0 0 0 1, .vRed 0 0 6 0 0, .vScan 0 0 0 0 7, .vPack 0 0 0 6 0, .vUnpk 0 0 0 0 1, .vLit 0 7 0, .vTopk 0 0 0 0 0,
    .vBind 25 0 0 0 false, .vBind 0 7 0 0 false, .vBind 0 0 25 0 false, .vPredAnd 0 1 1, .vPredNot 0 1, .vPredFirst 1 257, .vPredLane 1 256, .vTos 53 0 0,
    .vStatStat 25, .mMma 0 25 0 0 0 false false false, .mMma 1 31 0 0 0 false false false, .mMma 2 4 0 0 0 false false false,
    .mMma 3 0 0 0 0 false false false, .mMma 0 0 0 0 25 false false false, .mZero 25 false, .mLoadTile 0 25, .mLoadDesc 0 31 false 0,
    .mDrainDesc 25 0 0 false, .mToll 0, .xWait 0, .xQadv 0 false 0, .xQadv 0 false 4097, .move 3 0 0, .moveImm 3 0 0],
    i.illOperand = true ∧ i.wellFormed = false := by decide +kernel

theorem test_resbits_operands : ∀ i ∈ [Instr.lit 1 0 0, .ld 0 0 3 true false 0, .ldk 0 0 3 true 0, .br 0 1 0, .axch 0 0 0 0 1, .acas 0 0 0 0 0 1,
    .rcall 0 0 1 0 0 false, .vPack 0 0 1 5 0, .vLit 0 5 256], i.illOperand = false ∧ i.resOperand = true ∧ i.wellFormed = false := by decide +kernel

/-- The last values that the same checks let pass. -/
theorem test_well_formed : ∀ i ∈ [Instr.addi 0 true 1 0, .axch 0 0 0 1 4, .br 0 1 1, .prmw 0 23 6, .prmw 0 40 3, .rcall 0 0 24 8 0 false, .rret 24 8, .spost 0 0 14,
    .vAdd 52 52 52 0 6, .vCmp 4 1 0 0 0 3, .vCvt 0 0 4 5 0 4, .vSfn 0 0 8 0 2, .vPack 0 0 0 5 2, .vLit 0 5 255, .vTopk 0 0 0 0 3, .vPredFirst 1 256,
    .mMma 1 30 0 24 24 false false false, .mMma 2 3 0 0 0 false false false, .mToll 1, .xQadv 0 false 4096, .ld 0 0 3 false false 0],
    i.wellFormed = true := by decide +kernel

/-! ## Words that the manual prints (05 Table 19, 06 Table 20, 07, 10 Table 105) -/

theorem test_words_of_the_manual : (([(0x60190880, .vBind 3 1 1 0 true), (0x50440042, .vCmp 2 1 0 1 0 2), (0x5C0A3F00, .vLit 1 2 0x3F00),
    (0x62600000, .vGuard 3), (0x63405064, .vPredFirst 2 100), (0x824C1C90, .mMmas 1 6 0 7 4 true false false), (0x841C0000, .mZero 3 true),
    (0x86185000, .mDrainTile 3 5 false), (0x87090000, .mSwap 1 4), (0x8D003E80, .mToll 1000), (0xC1252670, .xCopy 2 5 1 3 3 true),
    (0xD3010040, .xBankp 0 1 0 2 false), (0xD4400020, .xBankgo 4 1), (0xCB000800, .xWait 8), (0xCE820000, .xTake 0 1),
    (0x27180000, .fmtq 3), (0x04100200, .sel 2 0 1), (0x0BF00000, .dup 30)] : List (BitVec 32 × Instr)).all
      fun p => decode p.1 == .instr p.2) = true := by decide +kernel

theorem test_moves_of_the_manual : (([(0xC0000B01, .claspMove 0x0B01), (0x27000001, .moveImm 0 0x0E 1), (0x09000000, .move 0 0x12 0),
    (0x09900000, .move 0 0x13 8), (0x04280000, .move 0 8 0x14), (0x07A80000, .move 0 0x0F 0x14)] : List (BitVec 32 × Instr)).all
      fun p => decodeBank p.1 == .instr p.2) = true := by decide +kernel

theorem test_more_words_of_the_manual : (([(0x29000002, .getk 2), (0x2A180010, .setk 3 0x10), (0x0500FFFF, .addi 0 false 0 0xFFFF),
    (0x06110000, .andi 2 false 1 0), (0x0A04FFFE, .lits 0xFFFE), (0x0A020040, .lit 0 2 0x40), (0x0C11D804, .ld 2 3 2 true true 4),
    (0x0E0803FF, .st 1 0 0 3 true 0x7F), (0x1F400000, .br 1 0 0), (0x1F008000, .br 0 0 2), (0x654C0000, .vPortRead 1 3), (0x64112000, .vNest 4 2 2),
    (0x67440000, .vGive 2 2), (0x8B088000, .mNest 2 1), (0x861A6100, .mDrainDesc 3 6 2 false), (0x8C220000, .mGive 1 1), (0x89100000, .mStatStat 2),
    (0x1D080021, .tlookClaim 1 2), (0x1D004100, .tsetk 0 1 0), (0x1D000200, .tdrop 0 0), (0x25080003, .qset 1 0 3), (0x24C60000, .take 2 3),
    (0x26001D01, .prmw 0 0x1D 1), (0x26101100, .prmw 2 0x11 0), (0xCC380040, .xQadv 3 true 1), (0xCD090000, .xNest 2 2), (0xCE420000, .xGive 2 1),
    (0x1118405A, .acas 3 1 0 2 3 2), (0xD2230000, .xBankt 2 3 0 0 false), (0xD5564068, .xIred 5 6 2 3 false true), (0x30298069, .rcall 5 6 0 3 4 true),
    (0x32180002, .rret 3 2), (0x31100001, .rpoll 2 true), (0x1A522440, .fence 0x14 0x22 2 4), (0x1B420600, .fencea 0x10 0x20 3),
    (0xC4010020, .xSadd 0 1 0 0 1 false), (0x25000113, .qadv 0 true 3), (0x25000203, .qwait 0 false 3)] : List (BitVec 32 × Instr)).all
      fun p => decode p.1 == .instr p.2) = true ∧ decode 0x86185100 = .resbits := by decide +kernel

/-! ## Worked examples of the manual -/

/-- 03: -24 in F80; 03 R84: a draw of 0 and one of 0x40000000 under SR. -/
theorem test_rounding_examples : (fmtF80.round .rne 0 (.fin true 24 0)).1 = 0xC0038000000000000000 ∧
    (fmtBF16.round .sr 0 (fmtFP32.decode 0x3F80C000)).1 = 0x3F80 ∧ (fmtBF16.round .sr 0x40000000 (fmtFP32.decode 0x3F80C000)).1 = 0x3F81 := by
  decide +kernel

/-- 07 R238: 2^24 + 1.0 keeps 2^24. 10: the bank unit of an address. 04 R107: position 37 of 64 in 4 stages. -/
theorem test_sum_example : added 6 0x4B800000 0x3F800000 = 0x4B800000 ∧ added 6 0 0x40A00000 = 0x40A00000 := by decide +kernel
theorem test_unit_example : unitOf 0x04A12040000 = 296 := by decide +kernel
theorem test_span_example : ({ State.reset.here.job with count := 64, stages := 4, pos := 37 } : Job).spanWord = 0x04040025 ∧
    ({ State.reset.here.job with count := 64, stages := 4, pos := 37 } : Job).stageWord = 0x52 := by decide +kernel

/-- An opcode that is not assigned, a nonzero zero field, a register that is not there. -/
theorem test_refused_words : decode 0xFFFFFFFF = .illword ∧ decode 0x04100201 = .resbits ∧ decode 0x29000006 = .illword := by decide +kernel

/-! ## Witnesses: the step -/

/-- A word at 0x100, where core 0 stands, and its agenda. -/
def texted (w : Nat) (x : Turn) (f : Core → Core := id) : State :=
  { (mapped [5, 7] f).write 0x100 (leBytes 4 w) with agenda := [{ core := 0, dt := 1, turn := x }] }

/-- The place of the agenda that gives core 0 a turn, and the state in which it takes it. -/
def place0 (x : Turn) : Slot := { core := 0, dt := 1, turn := x }
def turned (s : State) (x : Turn) : State := turnOf s (place0 x) []

theorem test_hyp_scalar_turn : ∃ (s : State) (w : BitVec 32) (u : State), s.agenda = [place0 (.engine .s)] ∧ noStampWithin s 1 ∧
    (turned s (.engine .s)).scalarTurn = true ∧ (fetchText 0x100).run (turned s (.engine .s)) = .ok w u ∧
    textInstr w (.add 0 1 false) ∧ engineOfWord w = .s ∧ s.here.sc.loads = [] ∧ textInstr 0x04100201 (.refusedWord 0x04100201) :=
  ⟨texted 0x01004000 (.engine .s), 0x01004000, _, rfl, by unfold noStampWithin; decide +kernel, by decide +kernel,
    (run_ofD 0 (by decide +kernel)).trans (by congr 1), Or.inl (by decide +kernel), by decide +kernel,
    by decide +kernel,
    Or.inr ⟨fun j h => by have e : decode 0x04100201 = .resbits := by decide +kernel
                          rw [e] at h; exact Decoded.noConfusion h, rfl⟩⟩

/-- A word of the vector engine, passed; and one where a landing is due. -/
theorem test_hyp_scalar_passes : ∀ landing ∈ [false, true], ∃ (s : State) (w : BitVec 32) (u : State), s.agenda = [place0 (.engine .s)] ∧
    noStampWithin s 1 ∧ (turned s (.engine .s)).scalarTurn = true ∧ (fetchText 0x100).run (turned s (.engine .s)) = .ok w u ∧
    engineOfWord w = .v ∧ (turned s (.engine .s)).here.runner = none ∧ (turned s (.engine .s)).here.sc.landing = landing ∧
    s.here.sc.loads = [] ∧ isReturn w = false ∧ captureOf w = [] ∧ s.here.hand.trail = [] ∧ (landing = true → u.parks .claspmiss) := by
  simp only [List.mem_cons, List.not_mem_nil, or_false, forall_eq_or_imp, forall_eq]
  refine ⟨⟨texted 0x62600000 (.engine .s), ?_⟩,
    ⟨texted 0x62600000 (.engine .s) fun c => { c with sc := { c.sc with landing := true } }, ?_⟩⟩
  · exact ⟨0x62600000, _, rfl, by unfold noStampWithin; decide +kernel, by decide +kernel,
      (run_ofD 0 (by decide +kernel)).trans (by congr 1), by decide +kernel, by decide +kernel, by decide +kernel,
      by decide +kernel, by decide +kernel, by decide +kernel, by decide +kernel, fun h => Bool.noConfusion h⟩
  · exact ⟨0x62600000, _, rfl, by unfold noStampWithin; decide +kernel, by decide +kernel,
      (run_ofD 0 (by decide +kernel)).trans (by congr 1), by decide +kernel, by decide +kernel, by decide +kernel,
      by decide +kernel, by decide +kernel, by decide +kernel, by decide +kernel, fun _ => parks_of (by decide +kernel)⟩

/-- A word that waits for the load before it, one that does not, and a load whose item is due. -/
def texting (w : Nat) (beat : Nat) : State :=
  texted w (.engine .s) fun c => { c with sc := { c.sc with
    loads := [awaited 0 (.mem ⟨0, 2, 0⟩ true false false)]
    flight := [{ due := 4, items := [], src := some 0 }]
    beat := beat } }

theorem test_hyp_loads_wait : ∃ (s t u : State) (v x : State), (∀ q ∈ [s, t, u], q.agenda = [place0 (.engine .s)] ∧ noStampWithin q 1 ∧
      q.here.sc.loads ≠ []) ∧ (turned s (.engine .s)).scalarTurn = true ∧ (turned t (.engine .s)).scalarTurn = true ∧
    (fetchText 0x100).run (turned s (.engine .s)) = .ok 0x01004000 v ∧ undoable (.add 0 1 false) = true ∧
    (fetchText 0x100).run (turned t (.engine .s)) = .ok 0x2E000200 x ∧ textInstr 0x2E000200 .texit ∧ undoable .texit = false ∧
    (let c := (turned u (.engine .s)).here
     c.run = .running ∧ c.sc.pend = none ∧ c.gated = false ∧ c.deferred = false ∧ c.sc.ctr.stop = false ∧ c.slipOk = true ∧
       ((turned u (.engine .s)).core (runnerKey 0)).runner = none ∧ c.sc.arrivedBy c.sc.beat = false) := by
  refine ⟨texting 0x01004000 0, texting 0x2E000200 0, texting 0 4, _, _, ?_, by decide +kernel, by decide +kernel,
    (run_ofD 0 (by decide +kernel)).trans (by congr 1), rfl,
    (run_ofD 0 (by decide +kernel)).trans (by congr 1), Or.inl (by decide +kernel), rfl, ?_⟩
  · simp only [List.mem_cons, List.not_mem_nil, or_false, forall_eq_or_imp, forall_eq, noStampWithin]
    decide +kernel
  · decide +kernel

/-- A nest with one word in its body. -/
def oneWord (w : BitVec 32) (trips : Nat) : Nest :=
  { set := 0, stages := 1, body := [w], trips := trips, steps := 1, iter := 0, pos := 0, rrb := 0, caps := [] }
def nested (trips : Nat) : State :=
  texted 0 (.engine .m) fun c => { c with
    sc := { c.sc with ctr := { walk := 9, addr := 0x124 } }
    mat := { c.mat with nest := some (oneWord 0x841C0000 trips) } }

/-- A nest that runs, one without a step, a copy word in flight, a bank unit's word. -/
theorem test_hyp_other_turns : ∃ (s t u v : State) (r : CopyRun) (x : State), s.agenda = [place0 (.engine .m)] ∧ noStampWithin s 1 ∧
    s.here.run = .running ∧ (s.here.ctr .m).next = none ∧ s.here.nest .m = some (oneWord 0x841C0000 1) ∧
    textInstr 0x841C0000 (.mZero 3 true) ∧ t.agenda = [place0 (.engine .m)] ∧ noStampWithin t 1 ∧ t.here.run = .running ∧
    (t.here.ctr .m).next = none ∧ t.here.nest .m = some (oneWord 0x841C0000 0) ∧
    popWord 0x841C0000 (turned t (.engine .m)) = .next x ∧ u.agenda = [place0 (.copy 0)] ∧ noStampWithin u 1 ∧
    (turned u (.copy 0)).here.cpy.runs[0]? = some r ∧ r.passed = false ∧ v.agenda = [place0 (.unit 5)] ∧ noStampWithin v 1 ∧
    (v.unit 5).run = some unitRun ∧ (turned v (.unit 5)).stamp ≤ unitRun.started + unitRun.limit ∧
    (v.unit 5).store[(v.unit 5).pc]? = some 0xC0000B01 ∧ decodeBank 0xC0000B01 = .instr (.claspMove 0x0B01) := by
  refine ⟨nested 1, nested 0, { inFlight [runOf (.xCheck 1 1 3 0) 0 1 [] []] with agenda := [place0 (.copy 0)] },
    { (banked fun b => { b with store := [0xC0000B01] }) with agenda := [place0 (.unit 5)] }, runOf (.xCheck 1 1 3 0) 0 1 [] [], _, rfl,
    by unfold noStampWithin; decide +kernel, by decide +kernel, by decide +kernel, by decide +kernel, Or.inl (by decide +kernel), rfl,
    by unfold noStampWithin; decide +kernel, by decide +kernel, by decide +kernel, by decide +kernel, rfl, rfl,
    by unfold noStampWithin; decide +kernel, by decide +kernel, by decide +kernel, rfl,
    by unfold noStampWithin; decide +kernel, by decide +kernel, by decide +kernel, by decide +kernel, by decide +kernel⟩

/-- An engine that stands at the walk's next word runs it; one before it moves up to it, with a route outcome taken at it. -/
def trailed (w : Nat) : State :=
  texted 0 (.engine .v) fun c => { c with hand := { c.hand with
    trail := [(w, .word 0x62600000 0x100)], route := [{ walk := w, target := 0x200, v := true }] } }

theorem test_hyp_engine_at_its_word : ∀ w ∈ [0, 1], ∃ s : State, s.agenda = [place0 (.engine .v)] ∧ noStampWithin s 1 ∧
    s.here.awake = true ∧ (s.here.nest .v).isNone = true ∧ (s.here.ctr .v).stop = false ∧ (s.here.ctr .v).next = none ∧
    (s.here.ctr .v).walk = 0 ∧ textInstr 0x62600000 (.vGuard 3) ∧ nextWord s.here .v w 0x62600000 := by
  simp only [List.mem_cons, List.not_mem_nil, or_false, forall_eq_or_imp, forall_eq]
  refine ⟨⟨trailed 0, ?_⟩, ⟨trailed 1, ?_⟩⟩ <;>
  · refine ⟨rfl, by unfold noStampWithin; decide +kernel, by decide +kernel, by decide +kernel, by decide +kernel, by decide +kernel,
      by decide +kernel, Or.inl (by decide +kernel), ⟨0x100, by decide +kernel⟩, ?_⟩
    intro r hr _ _
    rcases List.mem_singleton.mp hr with rfl
    rfl

/-- An engine that stands where the scalar counter stands. -/
theorem test_hyp_engine_beside : ∃ s t : State, s.agenda = [place0 (.engine .v)] ∧ noStampWithin s 1 ∧ s.here.awake = true ∧
    (s.here.nest .v).isNone = true ∧ (s.here.ctr .v).stop = false ∧ (s.here.ctr .v).next = none ∧ s.here.hand.trail = [] ∧
    s.here.hand.route = [] ∧ (s.here.ctr .v).walk = s.here.sc.ctr.walk ∧ s.here.sc.landing = false ∧
    (fetchText (s.here.ctr .v).addr).run (turned s (.engine .v)) = .ok 0x62600000 t ∧ engineOfWord 0x62600000 = .v :=
  ⟨texted 0x62600000 (.engine .v) fun c => { c with vec := { c.vec with ctr := { walk := 0, addr := 0x100 } } }, _, rfl,
    by unfold noStampWithin; decide +kernel, by decide +kernel, by decide +kernel, by decide +kernel, by decide +kernel,
    by decide +kernel, by decide +kernel, by decide +kernel, by decide +kernel,
    (run_ofD 0 (by decide +kernel)).trans (by congr 1), by decide +kernel⟩

/-- What a place of the agenda leaves, and whether there is a next state at all. -/
def takenOf (s : State) (x : Slot) : State := match s.take x with | .next t => t | _ => s
def takes (s : State) (x : Slot) : Bool := match s.take x with | .next _ => true | _ => false
theorem takes_of {s : State} {x : Slot} (h : takes s x = true) : s.take x = .next (takenOf s x) := by
  unfold takes takenOf at *
  split at h <;> simp_all

/-- A stamped word due at tick 5: the agenda's next turn would carry the stamp to tick 9. -/
def stamped (l : List Slot) : State :=
  { formatted (word (2 ^ 40)) fun m => { m with pin := true } with agenda := l }
def stampedHand : State :=
  let s := stamped [{ core := 0, dt := 9, turn := .engine .s }]
  s.setHere { s.here with hand := { s.here.hand with trail := [(1, .word 0x81000878 0x104)] } }

theorem test_hyp_stamped : ∃ v : State, stampedHand.stampTicks = [(5, 0)] ∧ stampedHand.take (stampTurn stampedHand 5 0) = .next v ∧
    v.stalled = false ∧ (∃ x rest, stampedHand.agenda = x :: rest ∧ 5 ≤ stampedHand.stamp + x.dt) ∧
    (∀ l : List Slot, ({ stampedHand with agenda := l } : State).stampTicks = [(5, 0)]) := by
  refine ⟨_, by decide +kernel, takes_of (by decide +kernel), by decide +kernel, ⟨_, _, rfl, by decide +kernel⟩, fun l => ?_⟩
  show stampedHand.stampTicks = _
  decide +kernel

/-- Two places of an empty agenda's default schedule: one held up, then one that moves; and all held up. -/
theorem test_hyp_canonical : canonical State.reset ∧ canonical (texted 0x01004000 (.engine .s)) ∧
    ∃ t, step (texted 0x01004000 (.engine .s)) = .next t ∧ t.stalled = false :=
  ⟨by unfold canonical; decide +kernel, by unfold canonical; decide +kernel, _, rfl, by decide +kernel⟩

/-- Whether a place of the agenda is held up, as a test. -/
def heldUp (s : State) (x : Slot) : Bool :=
  match s.take x with
  | .next u => u.stalled
  | _ => false

theorem heldUp_of {s : State} {x : Slot} (h : heldUp s x = true) : ∃ u, s.take x = .next u ∧ u.stalled = true := by
  unfold heldUp at h
  split at h
  · exact ⟨_, ‹_›, h⟩
  · exact absurd h (by simp)

theorem unstamped_of {s : State} (h : s.stampTicks = []) (n : Nat) : noStampWithin s n := by
  intro p hp; rw [h] at hp; cases hp

/-- After reset the device boots first; released and at rest, every turn is held up. -/
theorem test_hyp_schedule : ∃ (s t u : State) (x : Slot) (pre post : List Slot), s.agenda = [] ∧ s.offers = pre ++ x :: post ∧
    (∀ y ∈ s.offers, noStampWithin s y.dt) ∧ (∀ y ∈ u.offers, noStampWithin u y.dt) ∧ noStampWithin u 1 ∧
    (∀ y ∈ pre, ∃ v, s.take y = .next v ∧ v.stalled = true) ∧ s.take x = .next t ∧ t.stalled = false ∧ u.agenda = [] ∧ u.offers ≠ [] ∧
    ∀ y ∈ u.offers, ∃ v, u.take y = .next v ∧ v.stalled = true :=
  ⟨State.reset, _, { State.reset with
      trust := { State.reset.trust with released := true }, cool := { State.reset.cool with valved := some 0 } }, { core := 0, dt := 0, turn := .event .fosynBoot }, [], _,
    rfl, rfl, fun y _ => unstamped_of rfl _, fun y _ => unstamped_of rfl _, unstamped_of rfl _,
    fun y hy => (List.not_mem_nil hy).elim, rfl, by decide +kernel, rfl, by decide +kernel,
    fun y hy => heldUp_of (List.all_eq_true.mp (by decide +kernel : (State.offers _).all (heldUp _) = true) y hy)⟩

end Sys2Proof.Tests
end

section
/-! SUPPORT. The device register window (01 R18): which step writes which register, where a write to a register of a table goes,
what reads there, and that the registers of plain value read back what they take. -/

namespace Sys2Proof.Machine
open Sys2Proof.Claim

/-! ## Register writes over the host link (01 R18, 14 R422, R428) -/

theorem State.linkUp_iff (s : State) : s.linkUp = true ↔ s.trust.powered = true ∧ s.trust.recovery = false := by
  simp [State.linkUp]

theorem refused_iff (s : State) (o : Nat) :
    refused s o ↔ (s.trust.tdisp = .configLocked ∨ s.trust.tdisp = .run) ∧ lockedReg o = true := by
  simp [refused, lockedReg]

theorem regEvent_of_down {s : State} (ok : Bool) (o : Nat) (v : Word) (h : s.linkUp = false) :
    regEvent ok o v s = stood s := by
  simp [regEvent, h, idle, stood]

theorem regEvent_of_refused {s : State} {o : Nat} (v : Word) (hup : s.linkUp = true) (h : refused s o) :
    regEvent true o v s = moved { s with sent := s.sent ++ [.unsupported o] } := by
  simp [regEvent, hup, (refused_iff s o).mp h, did, moved]

theorem regEvent_of_not_refused {s : State} {o : Nat} (v : Word) (hup : s.linkUp = true) (h : ¬ refused s o) :
    regEvent true o v s = moved (s.writeReg o v) := by
  simp only [regEvent, hup, if_neg (mt (refused_iff s o).mpr h)]
  rfl

theorem regEvent_of_exists {ok : Bool} (h : ok = true) (o : Nat) (v : Word) (s : State) :
    regEvent ok o v s = regEvent true o v s := by rw [h]

/-- Every step that is a register write is the one operation at its offset. -/
theorem exec_of_registerWrite {i : Instr} {o : Nat} {v : Word} (h : registerWrite i o v) (s : State) :
    exec i s = regEvent true o v s := by
  rcases h with ⟨c, k, hc, hk, rfl, rfl⟩ | ⟨c, k, hc, hk, rfl, rfl⟩ | ⟨c, hc, rfl, rfl⟩ | ⟨rfl, rfl⟩ | ⟨rfl, rfl⟩ |
    ⟨r, hr, rfl, rfl⟩ | ⟨r, hr, rfl, rfl⟩ | ⟨rfl, rfl⟩ | ⟨rfl, rfl⟩ | ⟨rfl, rfl⟩ | ⟨z, hz, rfl, rfl⟩ | ⟨z, hz, rfl, rfl⟩ |
    ⟨rfl, rfl⟩ | ⟨rfl, rfl⟩ | ⟨rfl, rfl⟩ | ⟨rfl, rfl⟩ | ⟨ho, ha, rfl⟩
  · exact regEvent_of_exists (by simp [hc, hk]) _ v s
  · exact regEvent_of_exists (by simp [hc, hk]) _ v s
  · exact regEvent_of_exists (decide_eq_true hc) _ v s
  · rfl
  · rfl
  · exact regEvent_of_exists (decide_eq_true hr) _ v s
  · exact regEvent_of_exists (decide_eq_true hr) _ v s
  · rfl
  · rfl
  · rfl
  · exact regEvent_of_exists (decide_eq_true hz) _ v s
  · exact regEvent_of_exists (decide_eq_true hz) _ v s
  · rfl
  · rfl
  · rfl
  · rfl
  · exact regEvent_of_exists (by simp [ho, ha]) _ v s

theorem registerWritesReachTheirOffset : RegisterWritesReachTheirOffset := by
  intro s i o v h
  rw [exec_of_registerWrite h s]
  refine ⟨fun hp hr => ?_, fun hdown => ?_⟩
  · have hup : s.linkUp = true := s.linkUp_iff.mpr ⟨hp, hr⟩
    exact ⟨regEvent_of_not_refused v hup, regEvent_of_refused v hup⟩
  · have hdown : s.linkUp = false := by rcases hdown with h | h <;> simp [State.linkUp, h]
    exact regEvent_of_down true o v hdown

/-! ## Values in fields -/

theorem word_toNat (v : Word) : word v.toNat = v := by simp

/-- A value that fits a narrow register is not cut by it. -/
theorem setWidth_ofNat_toNat {m : Nat} {v : Word} (h : v.toNat < 2 ^ m) : (BitVec.ofNat m v.toNat).setWidth 64 = v := by
  apply BitVec.eq_of_toNat_eq
  rw [BitVec.toNat_setWidth, BitVec.toNat_ofNat, Nat.mod_eq_of_lt h, Nat.mod_eq_of_lt v.isLt]

theorem bit_toNat (n k : Nat) : (bit n k).toNat = n / 2 ^ k % 2 := by
  rcases Nat.mod_two_eq_zero_or_one (n / 2 ^ k) with h | h <;> simp [bit, h]

/-- A value of k + 1 bits is its top bit and the field below. -/
theorem bit_add_fld {n k : Nat} (h : n < 2 ^ (k + 1)) : (bit n k).toNat * 2 ^ k + fld n 0 k = n := by
  have htop : n / 2 ^ k < 2 := Nat.div_lt_of_lt_mul (by rwa [← Nat.pow_succ])
  rw [bit_toNat, Nat.mod_eq_of_lt htop, fld, Nat.pow_zero, Nat.div_one, Nat.div_add_mod']

/-- A multiple of 8 loses nothing in a register that holds eighths. -/
theorem word_ofNat_div_eight {m : Nat} {v : Word} (hlt : v.toNat < 2 ^ m * 8) (hdvd : v.toNat % 8 = 0) :
    word ((BitVec.ofNat m (v.toNat / 8)).toNat * 8) = v := by
  rw [BitVec.toNat_ofNat, Nat.mod_eq_of_lt (Nat.div_lt_of_lt_mul (by rwa [Nat.mul_comm])),
    Nat.div_mul_cancel (Nat.dvd_of_mod_eq_zero hdvd), word_toNat]

/-! ## Where a write goes, and what reads there -/

@[simp] theorem State.bucket_setBucket_same (s : State) (c : Nat) (b : Bucket) : (s.setBucket c b).bucket c = b := by
  simp [State.bucket, State.setBucket]

@[simp] theorem State.stack_setStack_same (s : State) (k : Nat) (b : Stack) : (s.setStack k b).stack k = b := by
  simp [State.stack, State.setStack]

@[simp] theorem State.ctx_setCtx_same (s : State) (n : Nat) (c : Ctx) : (s.setCtx n c).ctx n = c := by
  simp [State.ctx, State.setCtx]

@[simp] theorem State.region_setRegion_same (s : State) (r : Nat) (g : Region) : (s.setRegion r g).region r = g := by
  simp [State.region, State.setRegion]

/-- What a crew bucket reads as at offset k of its entry (06 Table 66). -/
def Bucket.read (b : Bucket) (k : Nat) : Word :=
  if k = 0 then word b.cap else if k = 8 then word b.rate else if k = 0x10 then BitVec.ofInt 64 b.level else 0

/-- What a stack bucket reads as at offset k of its entry (10 Table 107). -/
def Stack.read (b : Stack) (k : Nat) : Word :=
  if k = 0 then word b.cap else if k = 8 then word b.rate else if k = 0x10 then BitVec.ofInt 64 b.level
  else if k = 0x18 then word b.permit else 0

/-- What a region reads as at offset k of its entry (11 Table 119). -/
def Region.read (g : Region) (k : Nat) : Word :=
  if k = 0 then
    word (g.valid.toNat * 2 ^ 63 + g.index.toNat * 2 ^ 61 + g.w.toNat * 2 ^ 60 + g.r.toNat * 2 ^ 59 + g.ctx * 2 ^ 52
      + g.ctrl * 2 ^ 44)
  else if k = 8 then word g.base
  else if k = 0x10 then word g.pages
  else if k = 0x18 then word g.fill
  else if k = 0x20 then word g.version
  else if k = 0x28 then word g.merged
  else if k = 0x30 then word g.logpos
  else if k = 0x38 then word (g.hold.toNat * 2 ^ 32 + g.logcap)
  else 0

section
variable (s : State) (v : Word) {o e k : Nat}

theorem State.writeReg_bucket (he : e < 9) (hk : k < 0x40) (ho : o = 0x10000 + 0x40 * e + k) :
    s.writeReg o v = s.writeBucket e k v.toNat := by
  have hpage : o / 0x1000 = 0x10 := by omega
  have hin : o % 0x1000 < 0x240 := by omega
  have hentry : o % 0x1000 / 0x40 = e := by omega
  have hoff : o % 0x40 = k := by omega
  simp only [State.writeReg, hpage, hin, hentry, hoff, if_true]

theorem State.readReg_bucket (he : e < 9) (hk : k < 0x40) (ho : o = 0x10000 + 0x40 * e + k) :
    s.readReg o = (s.bucket e).read k := by
  have hpage : o / 0x1000 = 0x10 := by omega
  have hin : o % 0x1000 < 0x240 := by omega
  have hentry : o % 0x1000 / 0x40 = e := by omega
  have hoff : o % 0x1000 % 0x40 = k := by omega
  simp only [State.readReg, hpage, hin, hentry, hoff, if_true, Bucket.read]

theorem State.writeReg_stack (he : e < 16) (hk : k < 0x40) (ho : o = 0x30000 + 0x40 * e + k) :
    s.writeReg o v = s.writeStack e k v.toNat := by
  have hpage : o / 0x1000 = 0x30 := by omega
  have hin : o % 0x1000 < 0x400 := by omega
  have hentry : o % 0x1000 / 0x40 = e := by omega
  have hoff : o % 0x40 = k := by omega
  simp only [State.writeReg, hpage, hin, hentry, hoff, reduceIte, Nat.reduceEqDiff]

theorem State.readReg_stack (he : e < 16) (hk : k < 0x40) (ho : o = 0x30000 + 0x40 * e + k) :
    s.readReg o = (s.stack e).read k := by
  have hpage : o / 0x1000 = 0x30 := by omega
  have hin : o % 0x1000 < 0x400 := by omega
  have hentry : o % 0x1000 / 0x40 = e := by omega
  have hoff : o % 0x1000 % 0x40 = k := by omega
  simp only [State.readReg, hpage, hin, hentry, hoff, reduceIte, Nat.reduceEqDiff, Stack.read]

theorem State.writeReg_region (he : e < 256) (hk : k < 0x40) (ho : o = 0x40000 + 0x40 * e + k) :
    s.writeReg o v = s.writeRegionReg e k v.toNat := by
  have hpage : 0x40 ≤ o / 0x1000 ∧ o / 0x1000 < 0x44 := by omega
  have hother : o / 0x1000 ≠ 0x10 ∧ o / 0x1000 ≠ 0x20 ∧ o / 0x1000 ≠ 0x30 ∧ o / 0x1000 ≠ 0x33 := by omega
  have hentry : (o - 0x40000) / 0x40 = e := by omega
  have hoff : o % 0x40 = k := by omega
  simp only [State.writeReg, hpage, hother, hentry, hoff, reduceIte, and_self]

theorem State.readReg_region (he : e < 256) (hk : k < 0x40) (ho : o = 0x40000 + 0x40 * e + k) :
    s.readReg o = (s.region e).read k := by
  have hpage : 0x40 ≤ o / 0x1000 ∧ o / 0x1000 < 0x44 := by omega
  have hother : o / 0x1000 ≠ 0x10 ∧ o / 0x1000 ≠ 0x20 ∧ o / 0x1000 ≠ 0x30 ∧ o / 0x1000 ≠ 0x31 ∧ o / 0x1000 ≠ 0x32 ∧
    o / 0x1000 ≠ 0x33 := by omega
  have hentry : (o - 0x40000) / 0x40 = e := by omega
  have hoff : o % 0x40 = k := by omega
  simp only [State.readReg, hpage, hother, hentry, hoff, reduceIte, and_self, or_self, Region.read]

theorem State.writeReg_rftBase (he : e < 64) : s.writeReg (0x33000 + 16 * e) v =
    if v.toNat < 2 ^ 52 ∧ v.toNat % 8 = 0 then s.setCtx e { (s.ctx e) with rftBase := BitVec.ofNat 49 (v.toNat / 8) }
    else s := by
  have hpage : (0x33000 + 16 * e) / 0x1000 = 0x33 := by omega
  have hentry : (0x33000 + 16 * e) % 0x1000 / 16 = e := by omega
  have hoff : (0x33000 + 16 * e) % 16 = 0 := by omega
  have hin : ¬ 64 ≤ e := Nat.not_le.mpr he
  simp only [State.writeReg, hpage, hentry, hoff, hin, reduceIte, Nat.reduceEqDiff]

theorem State.readReg_rftBase (he : e < 64) : s.readReg (0x33000 + 16 * e) = word ((s.ctx e).rftBase.toNat * 8) := by
  have hpage : (0x33000 + 16 * e) / 0x1000 = 0x33 := by omega
  have hentry : (0x33000 + 16 * e) % 0x1000 / 16 = e := by omega
  have hoff : (0x33000 + 16 * e) % 0x1000 % 16 = 0 := by omega
  have hin : ¬ 64 ≤ e := Nat.not_le.mpr he
  simp only [State.readReg, hpage, hentry, hoff, hin, reduceIte, Nat.reduceEqDiff, or_self]

theorem State.writeReg_rftCount (he : e < 64) : s.writeReg (0x33008 + 16 * e) v =
    if v.toNat ≤ 256 then s.setCtx e { (s.ctx e) with rftCount := v.toNat } else s := by
  have hpage : (0x33008 + 16 * e) / 0x1000 = 0x33 := by omega
  have hentry : (0x33008 + 16 * e) % 0x1000 / 16 = e := by omega
  have hoff : (0x33008 + 16 * e) % 16 = 8 := by omega
  have hin : ¬ 64 ≤ e := Nat.not_le.mpr he
  simp only [State.writeReg, hpage, hentry, hoff, hin, reduceIte, Nat.reduceEqDiff]

theorem State.readReg_rftCount (he : e < 64) : s.readReg (0x33008 + 16 * e) = word (s.ctx e).rftCount := by
  have hpage : (0x33008 + 16 * e) / 0x1000 = 0x33 := by omega
  have hentry : (0x33008 + 16 * e) % 0x1000 / 16 = e := by omega
  have hoff : (0x33008 + 16 * e) % 0x1000 % 16 = 8 := by omega
  have hin : ¬ 64 ≤ e := Nat.not_le.mpr he
  simp only [State.readReg, hpage, hentry, hoff, hin, reduceIte, Nat.reduceEqDiff, or_self]

theorem State.writeReg_rxhigh (he : e < 64) :
    s.writeReg (0x72200 + 8 * e) v = s.setCtx e { (s.ctx e) with rxhigh := v } := by
  have hpage : (0x72200 + 8 * e) / 0x1000 = 0x72 := by omega
  have hoff : (0x72200 + 8 * e) % 0x1000 = 0x200 + 8 * e := by omega
  have hlow : ¬ 0x200 + 8 * e < 0x20 ∧ 0x200 + 8 * e ≠ 0x20 := by omega
  have hin : 0x200 ≤ 0x200 + 8 * e ∧ 0x200 + 8 * e < 0x400 ∧ (0x200 + 8 * e) % 8 = 0 := by omega
  have hentry : (0x200 + 8 * e - 0x200) / 8 = e := by omega
  simp only [State.writeReg, hpage, hoff, hlow, hin, hentry, reduceIte, Nat.reduceEqDiff, Nat.reduceLT, and_self, and_false]

theorem State.readReg_rxhigh (he : e < 64) : s.readReg (0x72200 + 8 * e) = (s.ctx e).rxhigh := by
  have hpage : (0x72200 + 8 * e) / 0x1000 = 0x72 := by omega
  have hoff : (0x72200 + 8 * e) % 0x1000 = 0x200 + 8 * e := by omega
  have hin : 0x200 ≤ 0x200 + 8 * e ∧ 0x200 + 8 * e < 0x400 ∧ (0x200 + 8 * e) % 8 = 0 := by omega
  have hentry : (0x200 + 8 * e - 0x200) / 8 = e := by omega
  simp only [State.readReg, hpage, hoff, hin, hentry, reduceIte, Nat.reduceEqDiff, Nat.reduceLT, and_self, or_self, and_false]

end

/-! ## Registers of plain value (00 R6)

A register is plain when a write sets it by `put` where the value is legal and does nothing else, and what was put reads
back. At a fixed offset both sides of the first condition compute to the same term. -/

theorem plainRegister_of_set {o : Nat} {ok : Word → Prop} {reads : Word → Word} [DecidablePred ok]
    (put : State → Word → State) (hwrite : ∀ s v, s.writeReg o v = if ok v then put s v else s)
    (hread : ∀ s v, ok v → (put s v).readReg o = reads v) : plainRegister o ok reads := fun s v =>
  ⟨fun h => by rw [hwrite, if_pos h, hread s v h], fun h => by rw [hwrite, if_neg h]⟩

/-- A register without reserved bits takes every value. -/
theorem plainRegister_of_set_any {o : Nat} {reads : Word → Word} (put : State → Word → State)
    (hwrite : ∀ s v, s.writeReg o v = put s v) (hread : ∀ s v, (put s v).readReg o = reads v) :
    plainRegister o (fun _ => True) reads := fun s v =>
  ⟨fun _ => by rw [hwrite, hread], fun h => absurd trivial h⟩

/-- A field of an entry of a table: the register is plain when the entry's field is. -/
theorem plainRegister_of_entry {α : Type} {o : Nat} {ok : Word → Prop} [DecidablePred ok] {get : State → α}
    {set : State → α → State} (read : α → Word) (hsame : ∀ s a, get (set s a) = a) (put : α → Word → α)
    (hwrite : ∀ s v, s.writeReg o v = if ok v then set s (put (get s) v) else s)
    (hreg : ∀ s : State, s.readReg o = read (get s)) (hread : ∀ a v, ok v → read (put a v) = v) :
    plainRegister o ok fun v => v :=
  plainRegister_of_set (fun s v => set s (put (get s) v)) hwrite fun s v h => by rw [hreg, hsame, hread _ v h]

/-! ### Toll buckets (06 Table 66, 10 Table 107) -/

theorem plainRegister_bucket {o c k : Nat} {ok : Word → Prop} [DecidablePred ok] (put : Bucket → Word → Bucket)
    (hc : c < 9) (hk : k < 0x40) (ho : o = 0x10000 + 0x40 * c + k)
    (hwrite : ∀ s v, State.writeBucket s c k v.toNat = if ok v then s.setBucket c (put (s.bucket c) v) else s)
    (hread : ∀ b v, ok v → (put b v).read k = v) : plainRegister o ok fun v => v :=
  plainRegister_of_entry (·.read k) (fun s b => s.bucket_setBucket_same c b) put
    (fun s v => (s.writeReg_bucket v hc hk ho).trans (hwrite s v)) (fun s => s.readReg_bucket hc hk ho) hread

theorem plainRegister_bucketCap {c : Nat} (hc : c < 9) :
    plainRegister (0x10000 + 0x40 * c) (fun v => v.toNat < 2 ^ 32) fun v => v :=
  plainRegister_bucket (k := 0) (fun b v => b.setCap v.toNat) hc (by omega) rfl (fun _ _ => rfl) fun _ v _ => word_toNat v

theorem plainRegister_bucketRate {c : Nat} (hc : c < 9) :
    plainRegister (0x10008 + 0x40 * c) (fun v => v.toNat < 2 ^ 16) fun v => v :=
  plainRegister_bucket (k := 8) (fun b v => { b with rate := v.toNat }) hc (by omega) (by omega) (fun _ _ => rfl)
    fun _ v _ => word_toNat v

theorem plainRegister_stack {o e k : Nat} {ok : Word → Prop} [DecidablePred ok] (put : Stack → Word → Stack)
    (he : e < 16) (hk : k < 0x40) (ho : o = 0x30000 + 0x40 * e + k)
    (hwrite : ∀ s v, State.writeStack s e k v.toNat = if ok v then s.setStack e (put (s.stack e) v) else s)
    (hread : ∀ b v, ok v → (put b v).read k = v) : plainRegister o ok fun v => v :=
  plainRegister_of_entry (·.read k) (fun s b => s.stack_setStack_same e b) put
    (fun s v => (s.writeReg_stack v he hk ho).trans (hwrite s v)) (fun s => s.readReg_stack he hk ho) hread

theorem plainRegister_stackCap {e : Nat} (he : e < 16) :
    plainRegister (0x30000 + 0x40 * e) (fun v => v.toNat < 2 ^ 32) fun v => v :=
  plainRegister_stack (k := 0) (fun b v => b.setCap v.toNat) he (by omega) rfl (fun _ _ => rfl) fun _ v _ => word_toNat v

theorem plainRegister_stackRate {e : Nat} (he : e < 16) :
    plainRegister (0x30008 + 0x40 * e) (fun v => v.toNat < 2 ^ 16) fun v => v :=
  plainRegister_stack (k := 8) (fun b v => { b with rate := v.toNat }) he (by omega) (by omega) (fun _ _ => rfl)
    fun _ v _ => word_toNat v

theorem plainRegister_stackPermit {e : Nat} (he : e < 16) :
    plainRegister (0x30018 + 0x40 * e) (fun v => 4 ≤ v.toNat ∧ v.toNat ≤ 32 ∧ v.toNat % 4 = 0) fun v => v :=
  plainRegister_stack (k := 0x18) (fun b v => { b with permit := v.toNat }) he (by omega) (by omega) (fun _ _ => rfl)
    fun _ v _ => word_toNat v

/-! ### Translation, remote functions and the return window (08 Table 76, 10 R316) -/

theorem plainRegister_ftbase : plainRegister 0x20400 (fun v => v.toNat < 2 ^ 44 ∧ v.toNat % 2 ^ 24 = 0) fun v => v :=
  plainRegister_of_set (fun s v => { s with pages := { s.pages with ftbase := BitVec.ofNat 44 v.toNat } })
    (fun _ _ => rfl) fun _ _ h => setWidth_ofNat_toNat h.1

theorem plainRegister_freebase : plainRegister 0x20408 (fun v => v.toNat < 2 ^ 44 ∧ v.toNat % 8 = 0) fun v => v :=
  plainRegister_of_set (fun s v => { s with pages := { s.pages with freebase := BitVec.ofNat 44 v.toNat } })
    (fun _ _ => rfl) fun _ _ h => setWidth_ofNat_toNat h.1

theorem plainRegister_freelog : plainRegister 0x20410 (fun v => v.toNat ≤ 21) fun v => v :=
  plainRegister_of_set (fun s v => { s with pages := { s.pages with freelog := BitVec.ofNat 5 v.toNat } })
    (fun _ _ => rfl) fun _ _ h => setWidth_ofNat_toNat (m := 5) (Nat.lt_of_le_of_lt h (by decide))

/-- INVADDR holds the first address of a block: the bits below it read as 0. -/
theorem plainRegister_invaddr :
    plainRegister 0x20440 (fun v => v.toNat < 2 ^ 52) fun v => word (v.toNat / 2 ^ 19 * 2 ^ 19) :=
  plainRegister_of_set (fun s v => { s with pages := { s.pages with invaddr := v.toNat / 2 ^ 19 * 2 ^ 19 } })
    (fun _ _ => rfl) fun _ _ _ => rfl

theorem plainRegister_invlen : plainRegister 0x20448 (fun v => v.toNat < 2 ^ 34) fun v => v :=
  plainRegister_of_set (fun s v => { s with pages := { s.pages with invlen := BitVec.ofNat 34 v.toNat } })
    (fun _ _ => rfl) fun _ _ h => setWidth_ofNat_toNat h

theorem plainRegister_rftBase {c : Nat} (hc : c < 64) :
    plainRegister (0x33000 + 16 * c) (fun v => v.toNat < 2 ^ 52 ∧ v.toNat % 8 = 0) fun v => v :=
  plainRegister_of_entry (fun x => word (x.rftBase.toNat * 8)) (fun s x => s.ctx_setCtx_same c x)
    (fun x v => { x with rftBase := BitVec.ofNat 49 (v.toNat / 8) }) (fun s v => s.writeReg_rftBase v hc) (fun s => s.readReg_rftBase hc)
    fun _ _ ⟨hlt, hdvd⟩ => word_ofNat_div_eight hlt hdvd

theorem plainRegister_rftCount {c : Nat} (hc : c < 64) :
    plainRegister (0x33008 + 16 * c) (fun v => v.toNat ≤ 256) fun v => v :=
  plainRegister_of_entry (word ·.rftCount) (fun s x => s.ctx_setCtx_same c x) (fun x v => { x with rftCount := v.toNat })
    (fun s v => s.writeReg_rftCount v hc) (fun s => s.readReg_rftCount hc) fun _ v _ => word_toNat v

theorem plainRegister_rxhigh {c : Nat} (hc : c < 64) : plainRegister (0x72200 + 8 * c) (fun _ => True) fun v => v :=
  plainRegister_of_set_any (fun s v => s.setCtx c { (s.ctx c) with rxhigh := v }) (fun s v => s.writeReg_rxhigh v hc)
    fun s v => by rw [State.readReg_rxhigh _ hc, State.ctx_setCtx_same]

/-! ### Flash regions (11 Table 119) -/

theorem plainRegister_region {o r k : Nat} {ok : Word → Prop} [DecidablePred ok] (put : Region → Word → Region)
    (hr : r < 256) (hk : k < 0x40) (ho : o = 0x40000 + 0x40 * r + k)
    (hwrite : ∀ s v, State.writeRegionReg s r k v.toNat = if ok v then s.setRegion r (put (s.region r) v) else s)
    (hread : ∀ g v, ok v → (put g v).read k = v) : plainRegister o ok fun v => v :=
  plainRegister_of_entry (·.read k) (fun s b => s.region_setRegion_same r b) put
    (fun s v => (s.writeReg_region v hr hk ho).trans (hwrite s v)) (fun s => s.readReg_region hr hk ho) hread

theorem plainRegister_regionBase {r : Nat} (hr : r < 256) :
    plainRegister (0x40008 + 0x40 * r) (fun v => v.toNat < 2 ^ 24) fun v => v :=
  plainRegister_region (k := 8) (fun g v => { g with base := v.toNat }) hr (by omega) (by omega) (fun _ _ => rfl)
    fun _ v _ => word_toNat v

theorem plainRegister_regionPages {r : Nat} (hr : r < 256) :
    plainRegister (0x40010 + 0x40 * r) (fun v => v.toNat < 2 ^ 34) fun v => v :=
  plainRegister_region (k := 0x10) (fun g v => { g with pages := v.toNat }) hr (by omega) (by omega) (fun _ _ => rfl)
    fun _ v _ => word_toNat v

/-- HOLD and the log's capacity stand in one register of 33 bits. -/
theorem plainRegister_regionLogcap {r : Nat} (hr : r < 256) :
    plainRegister (0x40038 + 0x40 * r) (fun v => v.toNat < 2 ^ 33) fun v => v :=
  plainRegister_region (k := 0x38) (fun g v => { g with hold := bit v.toNat 32, logcap := fld v.toNat 0 32 }) hr (by omega)
    (by omega) (fun _ _ => rfl) fun _ v h => (congrArg word (bit_add_fld h)).trans (word_toNat v)

/-! ### Scheduler (12 Table 141) -/

theorem plainRegister_actbase : plainRegister 0x50018 (fun v => v.toNat < 2 ^ 44 ∧ v.toNat % 2 ^ 15 = 0) fun v => v :=
  plainRegister_of_set (fun s v => { s with sched := { s.sched with actbase := BitVec.ofNat 44 v.toNat } })
    (fun _ _ => rfl) fun _ _ h => setWidth_ofNat_toNat h.1

theorem plainRegister_ckbase : plainRegister 0x50020 (fun v => v.toNat < 2 ^ 44 ∧ v.toNat % 2 ^ 16 = 0) fun v => v :=
  plainRegister_of_set (fun s v => { s with sched := { s.sched with ckbase := BitVec.ofNat 44 v.toNat } })
    (fun _ _ => rfl) fun _ _ h => setWidth_ofNat_toNat h.1

theorem plainRegister_ckunits : plainRegister 0x50028 (fun _ => True) fun v => v :=
  plainRegister_of_set_any (fun s v => { s with sched := { s.sched with ckunits := v } }) (fun _ _ => rfl) fun _ _ => rfl

theorem plainRegister_drainT : plainRegister 0x50030 (fun v => v.toNat < 2 ^ 32) fun v => v :=
  plainRegister_of_set (fun s v => { s with sched := { s.sched with drainT := BitVec.ofNat 32 v.toNat } })
    (fun _ _ => rfl) fun _ _ h => setWidth_ofNat_toNat h

theorem plainRegister_wdlimit : plainRegister 0x50038 (fun _ => True) fun v => v :=
  plainRegister_of_set_any (fun s v => { s with sched := { s.sched with wdlimit := v } }) (fun _ _ => rfl) fun _ _ => rfl

theorem plainRegister_hmsg : plainRegister 0x50080 (fun v => v.toNat % 8 = 0) fun v => v :=
  plainRegister_of_set (fun s v => { s with sched := { s.sched with hmsg := v } }) (fun _ _ => rfl) fun _ _ _ => rfl

/-! ### Records and trust (14 Tables 153, 157, 159-161) -/

theorem plainRegister_ringbase : plainRegister 0x70008 (fun v => v.toNat < 2 ^ 44 ∧ v.toNat % 2 ^ 12 = 0) fun v => v :=
  plainRegister_of_set (fun s v => { s with records := { s.records with ringbase := BitVec.ofNat 44 v.toNat } })
    (fun _ _ => rfl) fun _ _ h => setWidth_ofNat_toNat h.1

theorem plainRegister_assaylim : plainRegister 0x71080 (fun v => v.toNat < 2 ^ 16) fun v => v :=
  plainRegister_of_set (fun s v => { s with trust := { s.trust with assaylim := v.toNat } })
    (fun _ _ => rfl) fun _ v _ => word_toNat v

theorem plainRegister_hxhost : plainRegister 0x72400 (fun _ => True) fun v => v :=
  plainRegister_of_set_any (fun s v => { s with trust := { s.trust with hxhost := v } }) (fun _ _ => rfl) fun _ _ => rfl

theorem plainRegister_hxdev : plainRegister 0x72408 (fun v => v.toNat < 2 ^ 52 ∧ v.toNat % 256 = 0) fun v => v :=
  plainRegister_of_set (fun s v => { s with trust := { s.trust with hxdev := v.toNat } })
    (fun _ _ => rfl) fun _ v _ => word_toNat v

theorem plainRegister_hxlen :
    plainRegister 0x72410 (fun v => v.toNat < 2 ^ 32 ∧ v.toNat % 256 = 0 ∧ v ≠ 0) fun v => v :=
  plainRegister_of_set (fun s v => { s with trust := { s.trust with hxlen := v.toNat } })
    (fun _ v =>
      have hzero : v.toNat ≠ 0 ↔ v ≠ 0 := not_congr (BitVec.toNat_inj (x := v) (y := 0))
      ite_congr (propext (and_congr_right fun _ => and_congr_right fun _ => hzero)) (fun _ => rfl) fun _ => rfl)
    fun _ v _ => word_toNat v

theorem plainRegister_explo : plainRegister 0x77000 (fun v => v.toNat < 2 ^ 44) fun v => v :=
  plainRegister_of_set (fun s v => { s with trust := { s.trust with explo := BitVec.ofNat 44 v.toNat } })
    (fun _ _ => rfl) fun _ _ h => setWidth_ofNat_toNat h

theorem plainRegister_exphi : plainRegister 0x77008 (fun v => v.toNat < 2 ^ 44) fun v => v :=
  plainRegister_of_set (fun s v => { s with trust := { s.trust with exphi := BitVec.ofNat 44 v.toNat } })
    (fun _ _ => rfl) fun _ _ h => setWidth_ofNat_toNat h

theorem plainRegister_self : plainRegister 0x77010 (fun v => v.toNat < 2 ^ 8) fun v => v :=
  plainRegister_of_set (fun s v => { s with trust := { s.trust with self := BitVec.ofNat 8 v.toNat } })
    (fun _ _ => rfl) fun _ _ h => setWidth_ofNat_toNat h

theorem plainRegistersReadBackWhatTheyTake : PlainRegistersReadBackWhatTheyTake :=
  ⟨plainRegister_ftbase, plainRegister_freebase, plainRegister_freelog, plainRegister_invaddr, plainRegister_invlen,
    fun _ hc => ⟨plainRegister_bucketCap hc, plainRegister_bucketRate hc⟩,
    fun _ he => ⟨plainRegister_stackCap he, plainRegister_stackRate he, plainRegister_stackPermit he⟩,
    fun _ hc => ⟨plainRegister_rftBase hc, plainRegister_rftCount hc, plainRegister_rxhigh hc⟩,
    fun _ hr => ⟨plainRegister_regionBase hr, plainRegister_regionPages hr, plainRegister_regionLogcap hr⟩,
    plainRegister_actbase, plainRegister_ckbase, plainRegister_ckunits, plainRegister_drainT, plainRegister_wdlimit,
    plainRegister_hmsg, plainRegister_ringbase, plainRegister_assaylim, plainRegister_hxhost, plainRegister_hxdev,
    plainRegister_hxlen, plainRegister_explo, plainRegister_exphi, plainRegister_self⟩

/-- Settles O32: every register write is one operation at its offset, which the lock and the link's state decide; each plain
register is a `put` that computes at its offset. Which offsets the lock protects is log 17, and that a broken multiple voids the
write is log 47: choices of the model. -/
theorem registersReadBackWhatTheyTake : Obligations.RegistersReadBackWhatTheyTake :=
  ⟨registerWritesReachTheirOffset, plainRegistersReadBackWhatTheyTake⟩

end Sys2Proof.Machine
end
